-- ==== Sys2Proof/Word.lean ====
section
/-! DEFINITION. The words of the hub: bytes, 32-bit registers, 36-bit quantities and 64-bit memory words (R2, R3, R8). -/

namespace Sys2Proof

/-- One byte. -/
abbrev Byte := BitVec 8
/-- A register or a 32-bit parameter (R423). -/
abbrev W32 := BitVec 32
/-- A 36-bit two's complement quantity (R8, R10). -/
abbrev W36 := BitVec 36
/-- A word of SRAM or of a queue (R19, R264). -/
abbrev W64 := BitVec 64

end Sys2Proof
end

