-- ==== Sys2Proof/Syntax.lean ====
section
/-! DEFINITION. The commands of the hub: one constructor of `Instr` per row of the operation table, with the operands that a
host, a link or the hardware presents. Host commands carry a header `Hdr`; events carry what the hardware observes. -/

namespace Sys2Proof

/-- A host port (R318). -/
inductive Port where
  | a | b
deriving DecidableEq, Repr

/-- Source of a command: a local port, or a port of another node over the link (R290). -/
inductive Src where
  | port (p : Port)
  | link (node : Nat) (p : Port)
deriving DecidableEq, Repr

/-- Reply status codes (R303). -/
inductive Status where
  | ok | accepted | badOpcode | badLen | badTag | tagInUse | badNode | badAddr | badParam
  | stateConflict | notOwner | semHeld | sealed | budget | markStale | auditFull
  | clockFail | memEcc | regionFault | authFail | jumpRefused | linkTimeout | linkDown
deriving DecidableEq, Repr

/-- How a transfer of a host port begins and what it brings: its first byte (SPI: the frame type, 0xA5 for a write frame and 0x00 for a
read frame; I2C and I3C: 0x00 for a read transfer, 0xA5 for a write transfer; UART: of no meaning), and how many bytes of packets, or of
the reply where it reads, it carries up to the next event at the port; or that the transfer of that event goes on, with more such bytes
(R319 to R321, R326). -/
structure Lead where
  first : Byte := 0xa5
  got : Nat := 0
  cont : Bool := false
deriving DecidableEq, Repr

/-- Memory errors that the checks and recomputations of one command meet: whether a coefficient read was corrected, how many SRAM reads
were, and the uncorrectable coefficient reads, each with its chain, bank and index (R21, R162). -/
structure MemErr where
  coef : Bool := false
  sram : Nat := 0
  bad : List (Nat × Nat × Nat) := []
deriving DecidableEq, Repr

/-- What the hub's memory shows a command that comes over the link: as in its header, for a QUEUE_READ the word slots at whose moment
the window shows a word and the first word that meets an uncorrectable error; |V_REFX|; the transfers at the host ports since their
last events; and the frames that a retraining cuts (R275, R283, R290, R326, R346, R400). -/
structure Seen where
  ecc : Option Nat := none
  fix : List Nat := []
  errs : List (Nat × MemErr) := []
  shown : Nat := 0
  bad : Option Nat := none
  refx : Nat := 0
  peer : List (Port × Lead) := []
  cut : Nat × Nat := (0, 0)
deriving DecidableEq, Repr

/-- Header of a packet that passed its CRC check: the transfers of its port since the port's last event, the one that carries it last
(none: it follows in the transfer of the packet before); its source, TAG, NODE, the FRC at its last byte (R306, R360); whether its OPCODE
is defined and its LEN fits (R300 steps 1 and 2); the first of its words that meets an uncorrectable error, and the words whose memory
read meets a single-bit error that is corrected, counted from 0 (R283, R313); what the checks that each of its words calls for meet in
memory (R21, R162); the transfers at the other port since that port's last event (R326); |V_REFX| in millivolts as it runs (R400); and how many frames are
on their way over the upstream and the downstream hop, which a retraining cuts (R346). -/
structure Hdr where
  src : Src := .port .a
  tag : Nat := 0
  node : Nat := 0x40
  rx : Nat := 0
  known : Bool := true
  fit : Bool := true
  ecc : Option Nat := none
  fix : List Nat := []
  errs : List (Nat × MemErr) := []
  leads : List Lead := []
  peer : List (Port × Lead) := []
  refx : Nat := 0
  cut : Nat × Nat := (0, 0)
deriving DecidableEq, Repr

/-- Parameters of EBB_ARM (R381). -/
structure EbbParams where
  mask : Nat := 0
deriving DecidableEq, Repr

/-- A command of the opcode reference with its parameters (R314). `shown` of QUEUE_READ counts the word slots at whose moment the
window shows a word (R275, R276); `bad` is the first word that meets an uncorrectable error (R283). -/
inductive HostCmd where
  | nop | devStatus | swidRead
  | semTake (lease : Nat) | semGive | semStatus
  | regRead (a : Nat) | regWrite (a : Nat) (v : W32)
  | regReadBlock (a n s : Nat) | regWriteBlock (a n s : Nat) (vs : List W32)
  | tableLoad (ofs : Nat) (ws : List W64)
  | chanStart (m : Nat) | chanStop (m : Nat) | chanSync (m : Nat)
  | queueRead (q n shown : Nat) (bad : Option Nat)
  | clockSet (src ref ndiv msel : Nat)
  | wait | ebbArm (p : EbbParams) | ebbDisarm
  | timeRead | timeSet (t frac : Nat) (force : Bool)
  | timeAdjust (step : Int) (frac : Nat) (rate : Int) (sel : Nat)
  | linkEnum | seal | unseal
  | patchLoad (ofs : Nat) (bytes : List Byte) | patchActivate
deriving DecidableEq, Repr

/-- Why a receiver drops bytes without a reply (R289). -/
inductive Discard where
  | badStart | badLength | badCrc | bufferFull | inBoot
deriving DecidableEq, Repr

/-- Level of a strap ball at reset (R46). -/
inductive Strap where
  | gnd | opened | high
deriving DecidableEq, Repr

/-- What the hub finds at reset release: straps, supply comparators, SEAL_N and TEST levels, the die reading (R46 to R49, R426); other
causes that hold at once (R66); LFCLK periods of the outage up to the AO step of the boot and FRC there (R87); whether a brown-out cut the
save under way short (R85). -/
structure Env where
  strapA : Strap := .gnd
  strapB : Strap := .gnd
  sup : BitVec 5 := 0x1f
  sealHigh : Bool := true
  test : Bool := false
  temp : Int := 0
  also : List Nat := []
  lf : Nat := 0
  frc : Nat := 0
  cut : Bool := false
deriving DecidableEq, Repr

/-- A register of a driver or current source whose write waits for the tick boundary (R100). -/
inductive ExcReg where
  | ctrl (x : Nat) | level (x : Nat) | chop (x : Nat) | isrc (n : Nat) | pair (p : Nat)
deriving DecidableEq, Repr

/-- A monitored condition (R132, R143). -/
inductive FaultKind where
  | low (x : Nat) | high (x : Nat) | fsp (x : Nat) | fsn (x : Nat) | sat (x : Nat) | ref (x : Nat)
  | comp (n : Nat) | cm (nn : Nat)
deriving DecidableEq, Repr

/-- A monitored condition that has been qualified: in which MCLK period and TCLK period (FRC) it began, what the comparator saw in µA or
µV, and the supply that its limit refers to, in µV: VEXC for saturation, VSUP for compliance and common mode (R132, R140). -/
structure Detection where
  kind : FaultKind
  tM : Nat
  tF : Nat
  q : Int
  sup : Int := 0
deriving DecidableEq, Repr

/-- MCLK edges between which a driver's load would draw a current, in µA, at or above its limit or not (R98). -/
structure Spell where
  start : Nat
  stop : Nat
  load : Nat
deriving DecidableEq, Repr

/-- Memory errors met by the engine item that completes (R21, R162). -/
inductive EccEvent where
  | none | corrected | coef (index : Nat) | table
deriving DecidableEq, Repr

/-- A frame of the Acnar link after its checks (R340, R341). -/
structure Frame where
  type : Nat
  dest : Nat
  src : Nat
  payload : List Byte
deriving DecidableEq, Repr

/-- What the blocks answer during a power entry beyond what the state shows: a bulk mover busy, a received link frame that waits
for the sequencer, a transfer in progress at a host port; and a wake that falls into the entry: its source, and whether it fires in the
commit cycle (R372, R374). -/
structure EntryObs where
  moverBusy : Bool := false
  linkBusy : Bool := false
  portABusy : Bool := false
  portBBusy : Bool := false
  wake : Option (Nat × Bool) := none
deriving DecidableEq, Repr


/-- The commands: one constructor per row of the operation table, in the order of the table but that some rows
without operands stand last. -/
inductive Instr where
  /-- R314: Command that does nothing and replies OK. -/
  | nop (h : Hdr)
  /-- R314: Command that returns device state, fault cause, seal state, semaphore owner, node address, reset cause and chain states. -/
  | devStatus (h : Hdr)
  /-- R395: Command that returns ROM version, patch ID and code CRC. -/
  | swidRead (h : Hdr)
  /-- R305: Command that grants or renews the configuration semaphore with a lease, or is refused with SEM_HELD. -/
  | semTake (h : Hdr) (lease : Nat)
  /-- R305: Command that frees the semaphore held by its source. -/
  | semGive (h : Hdr)
  /-- R314: Command that returns the semaphore status and the lease left. -/
  | semStatus (h : Hdr)
  /-- R312: Command that reads one 32-bit register or SRAM-window word. -/
  | regRead (h : Hdr) (a : Nat)
  /-- R312: Command that writes one register or window word under its access codes, the seal and the semaphore; also covers writes to registers that have no row of their own. -/
  | regWrite (h : Hdr) (a : Nat) (v : W32)
  /-- R312: Command that reads N words at a start address with a span, making the captures that single reads would make. -/
  | regReadBlock (h : Hdr) (a n s : Nat)
  /-- R312: Command that checks every word and then writes N words in order, stopping at the first word its register refuses. -/
  | regWriteBlock (h : Hdr) (a n s : Nat) (vs : List W32)
  /-- R313: Long command that writes whole 64-bit words into user-table memory through MV5. -/
  | tableLoad (h : Hdr) (ofs : Nat) (ws : List W64)
  /-- R295: MV5 has written the last word of a table load, or met a fault, and the reply is sent. -/
  | tableLoadComplete (bad : Option Nat) (fixed : Nat)
  /-- R316: Command that makes the named IDLE chains start-pending, all or none, after the budget and configuration checks. -/
  | chanStart (h : Hdr) (m : Nat)
  /-- R316: Command that makes the named chains stop-pending or cancels pending starts. -/
  | chanStop (h : Hdr) (m : Nat)
  /-- R171: Command that requests a sync of the named sync groups. -/
  | chanSync (h : Hdr) (m : Nat)
  /-- R275: Command that returns n words from a queue's host window with a trailer, advancing R by the words delivered. -/
  | queueRead (h : Hdr) (q n shown : Nat) (bad : Option Nat)
  /-- R73: Long command that switches SYSCLK to HFRC or the PLL with a new reference, NDIV and MCLK_SEL. -/
  | clockSet (h : Hdr) (src ref ndiv msel : Nat)
  /-- R73: The crystal oscillator or XIN buffer started by a CLOCK_SET is running. -/
  | xoStarted
  /-- R73: The PLL reference has been counted against HFRC over 1,024 periods and lies within the ±4 % window. -/
  | refQualified (khz : Nat)
  /-- R73: The PLL has locked after qualification of its reference. -/
  | pllLocked
  /-- R73: SYSCLK, SQCLK, MCLK, TCLK and the regulator clock switch together at an MCLK edge. -/
  | clockSwitch
  /-- R73: Qualification did not complete within 2 ms or lock within 400 µs, so the CLOCK_SET ends with CLOCK_FAIL. -/
  | clockFailTimeout
  /-- R370: Command that checks PWR_MODE.TARGET and, when accepted, replies ACCEPTED and holds later commands until the entry ends. -/
  | waitCmd (h : Hdr)
  /-- R381: Command that arms Ebb for up to eight chains and enters device state EBB_ACTIVE. -/
  | ebbArm (h : Hdr) (p : EbbParams)
  /-- R382: Command that disarms Ebb and returns the device to CONFIG. -/
  | ebbDisarm (h : Hdr)
  /-- R359: Command that returns the corrected time and the FRC of one TCLK period. -/
  | timeRead (h : Hdr)
  /-- R360: Command that steps corrected time to a requested value, subject to the jump limit unless forced. -/
  | timeSet (h : Hdr) (t frac : Nat) (force : Bool)
  /-- R361: Command that applies an OFFSET step and/or a new RATE at one TCLK period. -/
  | timeAdjust (h : Hdr) (step : Int) (frac : Nat) (rate : Int) (sel : Nat)
  /-- R348: Long command, legal at the root only, that assigns node addresses along the Acnar chain. -/
  | linkEnum (h : Hdr)
  /-- R348: No ENU done has arrived within 10 ms, so LINK_ENUM replies LINK_TIMEOUT. -/
  | enumTimeout
  /-- R389: Long command that computes the set CRC and seals the hub, counting a change in OTP when the set differs from the reference. -/
  | seal (h : Hdr)
  /-- R390: Long command that opens a sealed hub when the jumper is open and the counter is not exhausted. -/
  | unseal (h : Hdr)
  /-- R397: Command that writes patch image bytes into patch RAM. -/
  | patchLoad (h : Hdr) (ofs : Nat) (bytes : List Byte)
  /-- R397: Long command that verifies the patch format, key hash and signature, and activates the patch. -/
  | patchActivate (h : Hdr)
  /-- R289: A received packet with a bad start byte, LEN, CRC, a full buffer or arriving in BOOT is dropped without reply and counted. -/
  | packetDiscard (p : Port) (k : Discard) (ls : List Lead) (n : Nat)
  /-- R319: A bus transfer ends inside a packet, which is discarded and counted in PART. -/
  | partialPacketDiscard (p : Port) (ls : List Lead) (n : Nat)
  /-- R293: The last byte of a reply has left its port and its tag leaves flight. -/
  | replySent (p : Port) (ls : List Lead)
  /-- R323: HA_CS_N rises before a reply is complete, so the rest of the reply is discarded and its tag freed. -/
  | replyCut (p : Port) (k : Nat) (ls : List Lead)
  /-- R307: The 1 ms lease check finds the deadline passed and frees the semaphore. -/
  | leaseExpiry
  /-- R290: No reply to a forwarded command returned within CMD_LINK.TMO, so the receiving hub replies LINK_TIMEOUT. -/
  | forwardTimeout (tag : Nat)
  /-- R317: Write of CMD_CTRL.CLR_REJ that clears CMD_STATE_REJECTS. -/
  | clrRej (h : Hdr) (v : W32)
  /-- R317: Write of CMD_CTRL.CLR_ERR that clears CMD_ERR_A and CMD_ERR_B. -/
  | clrErr (h : Hdr) (v : W32)
  /-- R317: Write of CMD_CTRL.CLR_LATE that clears CMD_LINK.LATE. -/
  | clrLate (h : Hdr) (v : W32)
  /-- R66: VSUP rises above the POR threshold after falling below retention, and the hub boots with the AO copies invalidated. -/
  | powerOnReset (e : Env)
  /-- R66: VSUP falls below the brown-out threshold for more than 2 µs and the hub boots with an AO restore. -/
  | brownOut (e : Env)
  /-- R49: RESET_N held low for at least 2 µs resets the hub. -/
  | resetN (e : Env)
  /-- R83: The 250 ms watchdog expires, a final AO save is made and the hub boots with cause 3. -/
  | watchdogExpiry (e : Env)
  /-- R66: Exit from factory test starts a boot with an AO restore. -/
  | factoryTestExit (e : Env)
  /-- R77: The boot finishes and the hub enters CONFIG, or FAULT when the OTP trim CRC failed. -/
  | bootComplete (otpBad : Bool)
  /-- R77: Background clearing of B02 to B15 ends and SRAM_READY is set. -/
  | sramCleared
  /-- R81: VREF reaches 2 ppm of its final value and VREF-referenced chains may begin settling. -/
  | vrefSettled
  /-- R85: The 1 s timer writes the next AO save copy. -/
  | aoSavePeriodic
  /-- R61: A supply supervisor comparator changes, updating SUP_STATUS and acting on drivers, ports and quad mode. -/
  | supplyChange (sup : BitVec 5) (ls : List Lead) (cut : Option Nat)
  /-- R68: Write of CLK_CTRL.LF_SEL that starts or stops the LF crystal and its qualification. -/
  | lfSelWrite (h : Hdr) (v : W32)
  /-- R68: 1,024 LF crystal periods lie within ±5 % and LFCLK switches to the crystal. -/
  | lfXtalQualified
  /-- R68: No LF crystal edge for 4 LFRC periods, or no qualification within 1 s, returns LFCLK to LFRC and sets LF_LOST. -/
  | lfLoss
  /-- R76: The PLL reference or lock is lost and SYSCLK returns to HFRC. -/
  | refLoss
  /-- R68: Write of CLK_CTRL.CLR_LOST that clears REF_LOST and LF_LOST. -/
  | clrLost (h : Hdr) (v : W32)
  /-- R64: Write of REG_CTRL.MODE that probes for the inductor before buck mode, or returns to LDO. -/
  | regCtrlModeWrite (h : Hdr) (v : W32)
  /-- R64: The switch-node decay is measured and the regulator enters buck mode or sets BUCK_FAIL. -/
  | buckProbeResult (inductor : Bool)
  /-- R26: The tick divider expires and the hub performs the boundary actions in order. -/
  | tickBoundary
  /-- R169: 128 MCLK periods after the start boundary, the first CIC input fixes the chain's origin. -/
  | chainOrigin (nn : Nat)
  /-- R166: A chain's output boundary is reached, the FRC is captured and the output's engine work becomes ready. -/
  | outputBoundary (nn : Nat) (xs : List Int)
  /-- R31: A lane completes one work item and dispatches the next by priority. -/
  | engineItem (lane stall : Nat) (ecc : EccEvent)
  /-- R127: Integrators held at their limits for 16 MCLK periods are cleared. -/
  | modulatorClear (nn : Nat)
  /-- R103: A running chop generator reverses polarity every HALF MCLK periods and blanking starts. -/
  | chopReversal (x : Nat)
  /-- R101: A driver's excitation ramp reaches its level. -/
  | rampEnd (x : Nat)
  /-- R98: The overload timer reaches 10 ms and the driver enters hiccup, or lockout. -/
  | hiccupEntry (x : Nat) (ls : List Spell)
  /-- R99: After 100 ms of hiccup the driver restarts with its ramp. -/
  | hiccupRestart (x : Nat)
  /-- R132: A monitor's condition is qualified as a fault, records are marked and a fault event record is written. -/
  | faultDetect (ds : List Detection)
  /-- R140: A fault's condition has been absent long enough and its clearing event record is written. -/
  | faultClear (code tM tF : Nat) (done : Bool)
  /-- R147: The die converter takes a reading every 128 µs and evaluates the thermal thresholds. -/
  | tempReading (q : Int)
  /-- R134: Write of MON_EXCx_CTRL.LEARN that requests a current-window learn at the next tick boundary. -/
  | learn (h : Hdr) (x : Nat) (v : W32)
  /-- R134: The 65,536-period learn ends, setting ILEARN, LEVEL_REF and the window, or LEARN_FAIL. -/
  | learnComplete (x i : Nat) (ok : Bool)
  /-- R134: Write of MON_CTRL.CLR_EXC that clears the driver sticky bits and LEARN_FAIL. -/
  | clrExc (h : Hdr) (v : W32)
  /-- R138: Write of MON_CTRL.CLR_CM that clears MON_CM_STKY and MON_ISRC.LOST_S. -/
  | clrCm (h : Hdr) (v : W32)
  /-- R147: Write of MON_CTRL.CLR_TEMP that clears the thermal sticky bits. -/
  | clrTemp (h : Hdr) (v : W32)
  /-- R126: Write of AFE_CTRL.CLR_OVL that clears AFE_OVL. -/
  | clrOvl (h : Hdr) (v : W32)
  /-- R90: Write of a port role that opens the old switches and closes the new ones within 1 µs. -/
  | apCfgWrite (h : Hdr) (nn : Nat) (v : W32)
  /-- R100: Write of a driver, source or chop register that is held until the next tick boundary. -/
  | excConfigWrite (h : Hdr) (r : ExcReg) (v : W32)
  /-- R121: Write of a TIA feedback step, immediate while IDLE and otherwise at the next tick boundary. -/
  | afeTiaFbWrite (h : Hdr) (nn : Nat) (v : W32)
  /-- R24: Write of the tick divider that takes effect at the next boundary of the old tick. -/
  | sysTickDivWrite (h : Hdr) (v : W32)
  /-- R32: Write of ENG_PRIO that selects PRIO chains from the next tick boundary. -/
  | engPrioWrite (h : Hdr) (v : W32)
  /-- R33: Write of ENG_CTRL.CLR_OVR that clears TICK_OVERRUN. -/
  | clrOvr (h : Hdr) (v : W32)
  /-- R34: Write of ENG_CTRL.CLR_DROP that clears the drop counters and DROPPED. -/
  | clrDrop (h : Hdr) (v : W32)
  /-- R41: Write of ENG_CTRL.CLR_MAX that sets ENG_LOAD_MAX to ENG_LOAD_LAST. -/
  | clrMax (h : Hdr) (v : W32)
  /-- R161: Write of SLU_COEF_HI that commits a coefficient word and advances INDEX. -/
  | coefCommit (h : Hdr) (v : W32)
  /-- R163: Write of SLU_BANKnn.REQ that checks and requests a coefficient bank swap. -/
  | swapRequest (h : Hdr) (nn : Nat) (v : W32)
  /-- R163: A pending swap takes effect at its swap edge and writes event 0x1500 + nn. -/
  | swapEdge (nn : Nat)
  /-- R171: Write of SLU_SYNC_CTRL.FIRE that requests a sync of the named groups. -/
  | syncFire (h : Hdr) (m : Nat)
  /-- R170: A group's sync edge resets the state and origin of every non-IDLE chain in the group. -/
  | syncEdge (g : Nat) (xs : List (Nat × List Int))
  /-- R172: A rising edge on the SYNC input requests a sync of PIN_GRP and fires EC56. -/
  | syncPinRise (high : Nat)
  /-- R172: The 16-MCLK output pulse on SYNC ends. -/
  | syncPinPulseEnd
  /-- R162: Write of SLU_ECC.CLR that clears CORR, UNCORR and UADDR. -/
  | sluEccClr (h : Hdr) (v : W32)
  /-- R310: Write of the LO register of a 36-bit pair that fills the source's staging slot. -/
  | pairLoWrite (h : Hdr) (a : Nat) (v : W32)
  /-- R310: Write of the HI register of a 36-bit pair that commits the staged pair. -/
  | pairHiCommit (h : Hdr) (a : Nat) (v : W32)
  /-- R310: Read of a LO register that captures the HI half into the source's shadow. -/
  | pairLoRead (h : Hdr) (a : Nat)
  /-- R180: Commit of a zero or span pair, applying with it any staged SSH. -/
  | sclSpanCommit (h : Hdr) (nn : Nat) (v : W32)
  /-- R181: Host commit of AZT checked against AZT_LIM, clearing AT_LIMIT and cancelling the Meld correction of that period. -/
  | sclAztCommit (h : Hdr) (nn : Nat) (v : W32)
  /-- R180: Write of SCL_CFGnn.SSH, staged while the chain runs. -/
  | sclSshWrite (h : Hdr) (nn : Nat) (v : W32)
  /-- R184: Write of DS_CFGdd.EN that checks the slots and starts or stops the derived stream. -/
  | dsEnable (h : Hdr) (dd : Nat) (v : W32)
  /-- R184: Write of DS_WT that commits the staged slot and advances SLOT. -/
  | dsWtWrite (h : Hdr) (v : W32)
  /-- R184: Read of DS_WT that returns the slot weight and advances SLOT when INC is 1. -/
  | dsWtRead (h : Hdr)
  /-- R193: Write of a curve that checks the user block. -/
  | linCfgWrite (h : Hdr) (s : Nat) (v : W32)
  /-- R197: DT_CTRL.RST or the detector-reset consumer requests a reset at the next latch edge. -/
  | detectorReset (h : Hdr) (v : W32)
  /-- R197: At the latch edge the detector ends its period, may output, and restarts. -/
  | detectorLatch (x : Nat)
  /-- R202: Write of STAT_ENA that starts slots at the next tick boundary or stops them at once. -/
  | statEnaWrite (h : Hdr) (v : W32)
  /-- R200: STAT_LATCH or the statistics-latch consumer requests a latch at the next latch edge. -/
  | statLatch (h : Hdr) (v : W32)
  /-- R200: A statistics period ends by event or by PER ticks, and the slot latches and restarts. -/
  | statLatchEdge (ss : Nat)
  /-- R203: Read of STAT_CNTss that captures the latched set into the port's shadow. -/
  | statCntRead (h : Hdr) (ss : Nat)
  /-- R209: Write of MELD_CFGuu.EN that checks and clears the unit, or stops it. -/
  | meldEnable (h : Hdr) (uu : Nat) (v : W32)
  /-- R221: MELD_CTRL.ARM or the Meld-arm consumer arms a unit. -/
  | meldArm (h : Hdr) (m : Nat)
  /-- R226: Write of MELD_CTRL.CLR that clears a unit's sticky bits. -/
  | meldClr (h : Hdr) (m : Nat)
  /-- R226: Read of MELD_RES_LOuu that captures the unit's result into the port's shadow. -/
  | meldResRead (h : Hdr) (uu : Nat)
  /-- R222: A unit's 16-cycle evaluation slot processes enables, arms, gate edges, buffered records and due checks. -/
  | meldSlot (uu : Nat)
  /-- R219: A filtered gate edge reaches a unit and is stamped in hardware. -/
  | gateEdge (uu : Nat) (level : Bool)
  /-- R213: A zero-tracking period of PER ticks ends and is judged. -/
  | ztPeriodEnd (uu : Nat)
  /-- R213: A zero-tracking correction reaches AZT at the second tick boundary after its period, limited per R214. -/
  | aztApply (uu : Nat)
  /-- R230: An event reaching a routing channel becomes a firing that reaches its enabled consumers, or is discarded or suppressed. -/
  | routeFiring (n : Nat) (err : MemErr)
  /-- R239: An EVT pulse of PW × 128 cycles ends. -/
  | evtPulseEnd (p : Nat)
  /-- R229: A filtered edge on a GP pin fires its routing channel. -/
  | gpEdge (p : Nat) (level : Bool)
  /-- R229: A falling edge on WAKE_N fires EC57 or acts as a wake source. -/
  | wakeNFall
  /-- R229: The tick divider TD fires every N-th tick boundary. -/
  | tdFire
  /-- R233: Write of ROUTE_FIRE0 or FIRE1 that presents software firings to the named channels. -/
  | routeFire (h : Hdr) (w : Nat) (v : W32)
  /-- R232: Write of ROUTE_GSET that sets latch gate levels. -/
  | routeGset (h : Hdr) (v : W32)
  /-- R232: Write of ROUTE_GCLR that clears latch gate levels. -/
  | routeGclr (h : Hdr) (v : W32)
  /-- R235: Write of ROUTE_CHcc under its lock and seal rules, effective from the next cycle. -/
  | routeChWrite (h : Hdr) (cc : Nat) (v : W32)
  /-- R229: Write of ROUTE_TDIV that restarts the tick-divider count. -/
  | routeTdivWrite (h : Hdr) (v : W32)
  /-- R237: Write of ROUTE_CTRL.CLR_CONS that clears every consumer's OVERRUN, REFUSED and MERGE. -/
  | clrCons (h : Hdr) (v : W32)
  /-- R238: Write of ROUTE_CTRL.CLR_BUDGET that clears the budget sticky bits. -/
  | clrBudget (h : Hdr) (v : W32)
  /-- R239: Write of ROUTE_EVTp.CLR that ends a latched EVT output. -/
  | evtClr (h : Hdr) (p : Nat) (v : W32)
  /-- R239: Write of ROUTE_EVTp that returns the pin to inactive when OUT, MODE or POL changes. -/
  | routeEvtWrite (h : Hdr) (p : Nat) (v : W32)
  /-- R245: Write of a pending view that sets each bit of its target to the value written. -/
  | irqPendWrite (h : Hdr) (t w : Nat) (v : W32)
  /-- R245: Write of a mask view that masks or unmasks sources of its target. -/
  | irqMaskWrite (h : Hdr) (t w : Nat) (v : W32)
  /-- R248: Read of IRQ_CLAIM_x that claims the highest deliverable source and raises LEVEL. -/
  | irqClaim (h : Hdr) (t : Nat)
  /-- R249: Write of IRQ_EOI_x that ends a source's service. -/
  | irqEoi (h : Hdr) (t : Nat) (v : W32)
  /-- R244: Write of IRQ_LOSTCLR that clears IRQ_LOST bits. -/
  | irqLostclr (h : Hdr) (t w : Nat) (v : W32)
  /-- R249: Write of IRQ_CTRL_x.CLR_BADEOI that clears BAD_EOI. -/
  | clrBadeoi (h : Hdr) (t : Nat) (v : W32)
  /-- R255: Write of IRQ_CFGss that changes a source's target and priority. -/
  | irqCfgWrite (h : Hdr) (ss : Nat) (v : W32)
  /-- R253: The firmware claims a sequencer-targeted source, stamps it and writes event 0x1800 + ss. -/
  | seqIrqService (late : Nat)
  /-- R254: The 1 ms repeat requests an IBI again while the line stays unclaimed. -/
  | ibiRepeat (p : Port)
  /-- R263: MV0 writes a unit into a queue, opening or closing packets, or drops it when it does not fit. -/
  | unitStore
  /-- R262: PKT_TICKS tick boundaries have passed and the open packet closes. -/
  | pktTicksClose (q : Nat)
  /-- R274: MV1 or MV2 copies committed words into a host port's window, halting on a read fault. -/
  | windowPrefetch (p : Port) (bad : Option Nat) (fixed : Nat)
  /-- R278: Write of WEIR_Qn_CFG.EN that checks and enables a queue, or discards it. -/
  | queueEnable (h : Hdr) (q : Nat) (v : W32)
  /-- R262: Write of WEIR_Qn_CTRL.CLOSE that closes the open packet. -/
  | closeQ (h : Hdr) (q : Nat) (v : W32)
  /-- R271: Write of WEIR_Qn_CTRL.FLUSH that discards every packet now or when the unit in progress ends. -/
  | flush (h : Hdr) (q : Nat) (v : W32)
  /-- R271: A deferred flush takes effect when the unit in progress ends. -/
  | flushEffect (q : Nat)
  /-- R267: Write of WEIR_Qn_CTRL.MARK_W that sets M to the open packet's length slot. -/
  | markW (h : Hdr) (q : Nat) (v : W32)
  /-- R267: Write of WEIR_Qn_CTRL.MARK_R that sets M to R. -/
  | markR (h : Hdr) (q : Nat) (v : W32)
  /-- R267: Write of WEIR_Qn_CTRL.MARK_CLR that clears MARK_VALID. -/
  | markClr (h : Hdr) (q : Nat) (v : W32)
  /-- R269: Write of WEIR_Qn_CTRL.REWIND that sets R back to the mark. -/
  | rewind (h : Hdr) (q : Nat) (v : W32)
  /-- R270: Write of WEIR_Qn_CTRL.SKIP that sets R to the end of the current packet. -/
  | skip (h : Hdr) (q : Nat) (v : W32)
  /-- R282: Write of WEIR_Qn_CTRL.RESUME that rechecks QW and clears WHALT. -/
  | resume (h : Hdr) (q : Nat) (v : W32)
  /-- R272: Write of WEIR_Qn_CTRL.CLR_STKY that clears the queue's sticky bits. -/
  | clrStky (h : Hdr) (q : Nat) (v : W32)
  /-- R266: Write of WEIR_Qn_REL that advances F by N words or to R. -/
  | release (h : Hdr) (q : Nat) (v : W32)
  /-- R277: Write of WEIR_Qn_THR that re-arms the threshold on the present side. -/
  | weirThrWrite (h : Hdr) (q : Nat) (v : W32)
  /-- R282: Write of MOVER_CTRL.CLR that clears a mover's fault record. -/
  | moverClr (h : Hdr) (v : W32)
  /-- R285: Write of a host region entry, effective from the next cycle. -/
  | regionWrite (h : Hdr) (e : Nat) (attr : Bool) (v : W32)
  /-- R20: Write of REGION_BOUND.B that moves the boundary between table and Weir memory. -/
  | regionBoundWrite (h : Hdr) (v : W32)
  /-- R322: Write of HOST_A_CFG.QUAD that switches port A to quad frames. -/
  | spiQuadWrite (h : Hdr) (t : Nat) (v : W32)
  /-- R326: Write of HOST_x_CTRL.ABORT_RX that discards the reply in progress. -/
  | abortRx (h : Hdr) (t : Nat) (v : W32)
  /-- R323: Write of HOST_x_CTRL.CLR that clears HOST_x_STAT. -/
  | hostClr (h : Hdr) (t : Nat) (v : W32)
  /-- R328: Write of the UART bit rate, effective after the reply to that write. -/
  | hostBBaudWrite (h : Hdr) (v : W32)
  /-- R329: More than 20 bit times pass inside a UART packet, which is discarded. -/
  | uartGapTimeout
  /-- R329: RX held low for 20 bit times resynchronises the receiver and counts BRK. -/
  | uartBreak
  /-- R327: I3C CCC that assigns a dynamic address. -/
  | entdaa (p : Port) (a : Nat)
  /-- R327: I3C CCC that assigns the dynamic address from the static address. -/
  | setdasa (p : Port) (a : Nat)
  /-- R327: I3C CCC that changes the dynamic address. -/
  | setnewda (p : Port) (a : Nat)
  /-- R327: I3C CCC that resets the dynamic address. -/
  | rstdaa (p : Port)
  /-- R327: I3C CCC that returns the provisioned ID. -/
  | getpid (p : Port)
  /-- R327: I3C CCC that returns BCR. -/
  | getbcr (p : Port)
  /-- R327: I3C CCC that returns DCR. -/
  | getdcr (p : Port)
  /-- R327: I3C CCC that returns the target status. -/
  | getstatus (p : Port)
  /-- R327: I3C CCC that enables in-band interrupts, setting IRQ_CTRL_x.IBI. -/
  | enec (p : Port) (b : Nat)
  /-- R327: I3C CCC that disables in-band interrupts, clearing IRQ_CTRL_x.IBI. -/
  | disec (p : Port) (b : Nat)
  /-- R327: I3C CCC that sets the maximum write length. -/
  | setmwl (p : Port) (n : Nat)
  /-- R327: I3C CCC that returns the maximum write length. -/
  | getmwl (p : Port)
  /-- R327: I3C CCC that sets the maximum read length. -/
  | setmrl (p : Port) (n : Nat)
  /-- R327: I3C CCC that returns the maximum read length. -/
  | getmrl (p : Port)
  /-- R332: Write of SBUS_CFG.EN that starts the poll schedule from the write. -/
  | sbusEnable (h : Hdr) (v : W32)
  /-- R332: A poll entry falls due at a tick boundary and its transaction begins. -/
  | pollDue (k : Nat)
  /-- R333: A poll transaction ends and produces an SP record, with FLT on an error. -/
  | pollComplete (k back : Nat) (ok : Bool) (bytes : List Byte)
  /-- R332: A poll not finished by the next tick boundary is abandoned and later entries skipped. -/
  | pollAbandon (k : Nat)
  /-- R335: Write of SBUS_CTRL.CLR that clears SBUS_STATUS and the poll counters. -/
  | sbusClr (h : Hdr) (v : W32)
  /-- R338: An enabled DOWN port detects a signal and starts training at 25 Mbaud. -/
  | portSignalDetect (p : Nat)
  /-- R338: 64 valid TRN sets are exchanged and the hop moves up a rate or becomes UP. -/
  | trainComplete (p rate : Nat)
  /-- R338: Training at a rate does not complete within 100 µs, or retraining within 1 ms, and the rate drops or the port goes DOWN. -/
  | trainTimeout (p : Nat)
  /-- R338: A DOWN port tries to train again every 10 ms. -/
  | trainRetry (p : Nat)
  /-- R338: A receiver loses its signal for 1 µs and the port goes DOWN. -/
  | signalLoss (p : Nat)
  /-- R342: A frame header CRC error or excessive code errors make the port retrain. -/
  | headerCrcError (p lost codes : Nat)
  /-- R342: A payload CRC or code error discards the frame and returns its credits. -/
  | frameCrcError (p credits codes : Nat)
  /-- R338: Write of LINK_CTRL.RETRAIN_U that retrains the upstream port. -/
  | retrainU (h : Hdr) (v : W32)
  /-- R338: Write of LINK_CTRL.RETRAIN_D that retrains the downstream port. -/
  | retrainD (h : Hdr) (v : W32)
  /-- R350: Write of LINK_CTRL.CLR_STKY that clears SYNC_LATE and ORDER_BAD. -/
  | linkClrStky (h : Hdr) (v : W32)
  /-- R342: Write of LINK_CTRL.CLR_ERR that clears both LINK_Pp_ERR. -/
  | linkClrErr (h : Hdr) (v : W32)
  /-- R345: A CRD pair carries the partner's cumulative freed-credit count. -/
  | crd (p n lost : Nat)
  /-- R346: A port lacking credits for 100 µs with no CRD, or counting above 16, retrains. -/
  | creditTimeout (p lost : Nat)
  /-- R341: A CMD frame for this node is reassembled into a command packet. -/
  | cmdFrame (p : Nat) (f : Frame) (rx : Nat) (seen : Seen)
  /-- R290: An RPL frame returns the reply of a forwarded command to its port; `late` tells that the reply it completes is to a command that
  has timed out. -/
  | rplFrame (p : Nat) (f : Frame) (late : Bool)
  /-- R352: A REC frame is assembled and at END written by MV4 as a local packet and acknowledged. -/
  | recFrame (p : Nat) (f : Frame) (bad : Option Nat) (fixed : Nat)
  /-- R353: An ACK sets the origin queue's F to the end of the named packet. -/
  | ackFrame (p : Nat) (f : Frame)
  /-- R354: An EVT frame fires producer EC(52 + NUM) at its destination. -/
  | evtFrame (p : Nat) (f : Frame)
  /-- R355: A SYN frame requests a group sync at T_s, or at once when late. -/
  | synFrame (p : Nat) (f : Frame)
  /-- R365: A TIM frame is stamped on arrival and feeds the time servo, or changes the master. -/
  | timFrame (p : Nat) (f : Frame) (rx : Nat)
  /-- R348: An ENU frame assigns this node's address or reports the count to the root. -/
  | enuFrame (p : Nat) (f : Frame)
  /-- R350: A HEL frame reports a neighbour's address and updates LAST and ORDER_BAD. -/
  | helFrame (p : Nat) (f : Frame)
  /-- R344: A frame not addressed to this node is forwarded, or answered or discarded when its port is not UP. -/
  | frameForward (p : Nat) (f : Frame)
  /-- R351: MV3 sends a committed packet of a link-owned queue as REC frames. -/
  | recSend (bad : Option Nat) (fixed : Nat)
  /-- R353: No ACK within 4 × TMO of a packet's END, so R returns to F and packets are resent. -/
  | ackTimeout (q : Nat)
  /-- R355: Write of LINK_SYNCTX.FIRE that broadcasts a group sync with lead time. -/
  | linkSyncFire (h : Hdr) (v : W32)
  /-- R364: A master sends TIM out of each UP port every 2^PER ms. -/
  | timSend
  /-- R365: At the end of a block of TIM messages the servo steps time or adjusts RATE. -/
  | servoBlock
  /-- R366: Write of TIME_CTRL.REACQ that sends the servo to ACQUIRE. -/
  | reacq (h : Hdr) (v : W32)
  /-- R366: Write of TIME_CTRL.CLR_STKY that clears the servo sticky bits. -/
  | timeClrStky (h : Hdr) (v : W32)
  /-- R362: Write of TIME_CTRL.CLR_CNT that clears TIME_CNT. -/
  | clrCnt (h : Hdr) (v : W32)
  /-- R359: Read of TIME_NOW_LO that captures the corrected time and FRC into the port's shadow. -/
  | timeNowRead (h : Hdr)
  /-- R372: After the ACCEPTED reply has left, the sequencer asks the blocks in order and commits, refuses or aborts the entry. -/
  | powerEntry (o : EntryObs)
  /-- R377: An enabled wake source restarts the hub on HFRC from DOZE, EBB or HOLD. -/
  | wake (id : Nat)
  /-- R374: Write of PWR_WAKE_CLR that clears latched wake sources. -/
  | pwrWakeClr (h : Hdr) (v : W32)
  /-- R382: An Ebb conversion ends, results are judged against their windows, logged, and the hub sleeps or wakes. -/
  | ebbResult (rs : List (List Int × Bool)) (fs : List Detection)
  /-- R385: The filtered SEAL_N level changes, setting JMP_S and firing source 15. -/
  | sealNChange (high : Bool)
  /-- R388: Write of SEAL_CTRL.CALC that computes SEAL_CRC without changing state. -/
  | sealCalc (h : Hdr) (v : W32)
  /-- R385: Write of SEAL_CTRL.CLR_STKY that clears JMP_S and MISMATCH. -/
  | sealClrStky (h : Hdr) (v : W32)
  /-- R402: Write of BEO_CFGk.EN that starts an emulator output at CODE 0 or sets it to high impedance. -/
  | beoEnable (h : Hdr) (k : Nat) (v : W32)
  /-- R403: Write of BEO_CTRL.HOLD that starts an event hold of an output. -/
  | beoCtrlHold (h : Hdr) (v : W32)
  /-- R403: Write of BEO_CTRL.RELEASE that ends an event hold. -/
  | beoCtrlRelease (h : Hdr) (v : W32)
  /-- R403: Write of BEO_CTRL.CLR_STKY that clears HOLD_S, OFF_FAULT and ICLAMP_S. -/
  | beoClrStky (h : Hdr) (v : W32)
  /-- R409: Write of BEO_CTRL.LOCK that locks the BEO configuration until boot. -/
  | beoLock (h : Hdr) (v : W32)
  /-- R403: HTICKS tick boundaries pass since the last hold event and the event hold ends. -/
  | holdTicksExpiry (k : Nat)
  /-- R406: Write of BEO_LOOP_CFG.EN that checks and enables the balance loop, or disables it. -/
  | loopEnable (h : Hdr) (v : W32)
  /-- R126: The over-range comparator flags an MCLK period, setting AFE_OVL and firing the front-end over-range interrupt source on its rise. -/
  | overRangeFlag (nn : Nat) (hit : Bool)
  /-- R98: A driver's overload timer clears after its current limit has been inactive for 61,440 MCLK periods. -/
  | overloadTimerClear (x : Nat) (ls : List Spell)
  /-- R295: A SEAL or UNSEAL finishes its seal-state change and OTP audit writes, takes final effect and sends its reply. -/
  | sealComplete (fails : Nat) (stuck : List Byte) (err : MemErr)
  /-- R366: No TIM accepted for HOLD × 2^PER ms and the servo enters HOLDOVER. -/
  | holdoverTimeout
  /-- R364: A node in ACQUIRE or HOLDOVER with no TIM for the set time becomes master. -/
  | masterTimeout
  /-- R371: The ACCEPTED reply has not left within REPLY_TMO, so the entry ends REFUSED. -/
  | entryReplyTimeout
  /-- R377: The hub is ready after wake, records WOKE_BY and PWR_SLEPT and fires source 12. -/
  | wakeReady
  /-- R376: The wake timer expires PWR_TIMER LFCLK periods after commit. -/
  | wakeTimer
  /-- R375: The sequencer runs briefly in DOZE to serve a link frame, a sequencer source or the watchdog. -/
  | dozeService
  /-- R382: Every PERIOD LFCLK periods an Ebb cycle starts HFRC, excites and starts conversions. -/
  | ebbCycle
  /-- R397: Verification of a patch ends, activating it or rejecting it, and the PATCH_ACTIVATE reply is sent. -/
  | patchVerificationEnd (fixed : Nat)
  /-- R388: A SEAL_CTRL.CALC computation ends, SEAL_CRC takes the CRC of the set and BUSY clears. -/
  | calcComplete (err : MemErr)
  /-- R329: After a discard, HB_RX has been idle for 20 bit times and the receiver again takes the next 0xA5 as a START. -/
  | uartRxResync
  /-- R382: SETTLE LFCLK periods after an Ebb cycle starts, the named chains start their CIC conversions on one MCLK edge. -/
  | ebbSettleEnd
  /-- R297: The sequencer meets an uncorrectable error in B00 or B01 and the device enters FAULT with FAULT_CAUSE 2. -/
  | firmwareMemoryError
deriving DecidableEq, Repr

end Sys2Proof
end

