-- ==== Sys2Proof/Decode.lean ====
section
/-! DEFINITION. Decoding of table words. The operation table gives no row any bits (every row's list of fields is empty): a command
reaches the hub as a packet (R286), not as a word. -/

namespace Sys2Proof

/-- The command that a table word spells: none, since no row of the table has bits. -/
def decodeTableWord (_nbits _w : Nat) : Option Instr := none

end Sys2Proof
end

