-- ==== Sys2Proof/Config.lean ====
section
/-! DEFINITION. What the spec leaves to the part or leaves open: constants with no body, so that no proof can see their values. -/

namespace Sys2Proof

/-- An unconstrained value, fresh for each count that is drawn (log entry 1). -/
opaque freeValue : Nat → (w : Nat) → BitVec w

/-- Half-band words of INDEX 0 to 10 whose values are not in the spec, before they are held to what R153 says of them (log entry 2). -/
opaque halfbandPair : Nat → W36

/-- Whether a quotient `n ÷ d` that is not whole is rounded upwards, where the spec states a rounded result and no direction
(log entry 30). -/
opaque roundsUp : Int → Nat → Bool

/-- Output of the CIC at a full-scale input of +1, which no 36-bit word holds (R152; log entry 31). -/
opaque cicPlusOne : W36

/-- Deviation of curve `c` at an input from the function of its standard, in temperature words, before it is held to the tolerance
(R189; log entry 32). -/
opaque curveErr : Nat → Int → Int
/-- EMF word of a cold junction whose temperature word lies outside the reference function of curve `c` (R191; log entry 32). -/
opaque coldOutside : Nat → Int → Int

/-- Current limit of driver `x` in µA, normally and while TJ_FOLD holds, before it is held to its tolerance (R98, R148; log entry 110). -/
opaque driverLimit : Nat → Bool → Nat

/-- Version of the ROM (R395). -/
opaque romVersion : W32
/-- CRC-32 over the 256 KiB of ROM (R395); the ROM cannot be read (R22). -/
opaque romCrc : W32
/-- Manufacturer ID and instance number of the provisioned ID (R327). -/
opaque pidMaker : BitVec 15
/-- Instance number of the provisioned ID (R327). -/
opaque pidInstance : BitVec 15
/-- How the owner (its code, its node and port) and the lease setting share the word at 0x034 of an AO copy (R84; log entry 47). -/
opaque aoSemWord : Nat → Nat → Nat → W32

end Sys2Proof
end

