-- ==== Sys2Proof/Machine/Curves.lean ====
section
/-! DEFINITION. The standard curves of linearisation (R188 to R191): resistance thermometers, thermistor, thermocouples. The spec names
the standards and gives scales, ranges of curves 1 to 5 and tolerances; the coefficients are those of the standards (PRESUMED, log entry 32).
A temperature word counts 2^-24 °C (2,048 °C for a full scale of 2^35). -/

namespace Sys2Proof.Machine

/-! ### Arithmetic -/

/-- A polynomial, lowest coefficient first; a coefficient is a mantissa and how many decimal places it has. -/
def decimalPoly (cs : List (Int × Nat)) (t : Rat) : Rat := cs.foldr (fun c a => mkRat c.1 (10 ^ c.2) + t * a) 0
/-- Scale of the fixed-point numbers below. -/
def fixOne : Int := 2 ^ 96
/-- Product of two fixed-point numbers. -/
def fixMul (a b : Int) : Int := a * b / fixOne
/-- A fraction as a fixed-point number. -/
def toFix (x : Rat) : Int := (x * fixOne).floor
/-- Twice the inverse hyperbolic tangent of `z` by its series, `n` terms from the power `p` = z^(2k+1) on. -/
def atanh2 (zz : Int) : Nat → Nat → Int → Int
  | 0, _, _ => 0
  | n + 1, k, p => 2 * p / (2 * k + 1) + atanh2 zz n (k + 1) (fixMul p zz)
/-- Natural logarithm of `(a + b) ÷ a` for b ≤ a. -/
def logStep (a b : Nat) : Int :=
  let z := fixOne * b / (2 * a + b)
  atanh2 (fixMul z z) 32 0 z
/-- Natural logarithm of `m × 2^e`, m not 0, as a fraction. -/
def logOf (m : Nat) (e : Int) : Rat :=
  let k := m.log2
  mkRat ((k + e) * logStep 1 1 + logStep (2 ^ k) (m - 2 ^ k)) (2 ^ 96)
/-- e^-w for 0 ≤ w < 256 as a fraction: the series of e^(-w/256), squared eight times. -/
def expNeg (w : Rat) : Rat :=
  let y := toFix (w / 256)
  let e := (List.range 24).foldr (fun k a => fixOne - fixMul y a / (k + 1)) fixOne
  mkRat ((List.range 8).foldl (fun a _ => fixMul a a) e) (2 ^ 96)
/-- The greatest word between `lo` and `hi`, to one in (hi - lo) ÷ 2^n, at which a rising function does not exceed `x`. -/
def solveWord (f : Int → Rat) (x : Rat) : Nat → Int → Int → Int
  | 0, lo, _ => lo
  | n + 1, lo, hi =>
    let mid := (lo + hi) / 2
    if f mid ≤ x then solveWord f x n mid hi else solveWord f x n lo mid

/-! ### The functions of the standards -/

/-- A reference function of IEC 60584-1 in mV over °C: its range, the temperature at which its polynomials meet, the two polynomials. -/
structure Couple where
  lo : Int
  mid : Int
  hi : Int
  below : List (Int × Nat)
  above : List (Int × Nat)

/-- Types K, J, T, E and N (IEC 60584-1). -/
def couple : Nat → Couple
  | 8 => ⟨-270, 0, 1372,
    [(0, 0), (39450128025, 12), (23622373598, 15), (-32858906784, 17), (-49904828777, 19), (-67509059173, 21),
    (-57410327428, 23), (-31088872894, 25), (-10451609365, 27), (-19889266878, 30), (-16322697486, 33)],
    [(-17600413686, 12), (38921204975, 12), (18558770032, 15), (-99457592874, 18), (31840945719, 20), (-56072844889, 23),
    (56075059059, 26), (-32020720003, 29), (97151147152, 33), (-12104721275, 36)]⟩
  | 9 => ⟨-210, 760, 1200,
    [(0, 0), (50381187815, 12), (30475836930, 15), (-85681065720, 18), (13228195295, 20), (-17052958337, 23),
    (20948090697, 26), (-12538395336, 29), (15631725697, 33)],
    [(29645625681, 8), (-14976127786, 10), (31787103924, 13), (-31847686701, 16), (15720819004, 19), (-30691369056, 23)]⟩
  | 10 => ⟨-270, 0, 400,
    [(0, 0), (38748106364, 12), (44194434347, 15), (11844323105, 17), (20032973554, 18), (90138019559, 20),
    (22651156593, 21), (36071154205, 23), (38493939883, 25), (28213521925, 27), (14251594779, 29), (48768662286, 32),
    (10795539270, 34), (13945027062, 37), (79795153927, 41)],
    [(0, 0), (38748106364, 12), (33292227880, 15), (20618243404, 17), (-21882256846, 19), (10996880928, 21),
    (-30815758772, 24), (45479135290, 27), (-27512901673, 30)]⟩
  | 11 => ⟨-270, 0, 1000,
    [(0, 0), (58665508708, 12), (45410977124, 15), (-77998048686, 17), (-25800160843, 18), (-59452583057, 20),
    (-93214058667, 22), (-10287605534, 23), (-80370123621, 26), (-43979497391, 28), (-16414776355, 30), (-39673619516, 33),
    (-55827328721, 36), (-34657842013, 39)],
    [(0, 0), (58665508710, 12), (45032275582, 15), (28908407212, 18), (-33056896652, 20), (65024403270, 23),
    (-19197495504, 26), (-12536600497, 28), (21489217569, 31), (-14388041782, 34), (35960899481, 38)]⟩
  | _ => ⟨-270, 0, 1300,
    [(0, 0), (26159105962, 12), (10957484228, 15), (-93841111554, 18), (-46412039759, 21), (-26303357716, 22),
    (-22653438003, 24), (-76089300791, 27), (-93419667835, 30)],
    [(0, 0), (25929394601, 12), (15710141880, 15), (43825627237, 18), (-25261169794, 20), (64311819339, 23),
    (-10063471519, 25), (99745338992, 29), (-60863245607, 32), (20849229339, 35), (-30682196151, 39)]⟩
/-- EMF of a thermocouple of curve `c` in mV at `t` °C; type K has an exponential term above 0 °C. -/
def coupleEmf (c : Nat) (t : Rat) : Rat :=
  let k := couple c
  if t ≤ k.mid then decimalPoly k.below t
  else
    let v := decimalPoly k.above t
    if c = 8 then
      let d := t - mkRat 1269686 10000
      v + mkRat 1185976 10000000 * expNeg (mkRat 1183432 10000000000 * d * d)
    else v
/-- R ÷ R0 of a platinum thermometer of α = 0.00385 (Callendar–Van Dusen equation, IEC 60751). -/
def platinum (t : Rat) : Rat :=
  decimalPoly (if t < 0 then [(1, 0), (39083, 7), (-5775, 10), (4183, 13), (-4183, 15)] else [(1, 0), (39083, 7), (-5775, 10)]) t
/-- R ÷ R0 of Ni100 (DIN 43760). -/
def nickel (t : Rat) : Rat := decimalPoly [(1, 0), (5485, 6), (665, 8), (0, 0), (2805, 14), (0, 0), (-2, 17)] t
/-- What reaches curve `c` at `t` °C, as a fraction of full scale (*Curve scales*, R188). -/
def curveInput (c : Nat) (t : Rat) : Rat :=
  if c ≤ 3 then platinum t / 8 else if c = 4 then nickel t / 8 else coupleEmf c t / 128
/-- Range of a curve in °C (R188). -/
def curveRange (c : Nat) : Int × Int :=
  if c ≤ 3 then (-200, 850) else if c = 4 then (-60, 180) else ((couple c).lo, (couple c).hi)
/-- Tolerance of a curve in temperature words: 0.001 °C, 0.01 °C (R189). One word of it is left to the search for the value. -/
def curveTol (c : Nat) : Int := if c ≤ 4 then 16776 else 167771
/-- A temperature word with the deviation that the tolerance allows, which nothing else constrains (R189). -/
def withinTol (c : Nat) (x y : Int) : Int := y + max (-curveTol c) (min (curveTol c) (Sys2Proof.curveErr c x))

/-! ### The curves -/

/-- Curves 1 to 4 and 8 to 12 at an input `x`, a fraction of full scale: the temperature word, and whether `x` lies outside the range, where
the value is that of the nearer end (R189). -/
def standardCurve (c : Nat) (x : Rat) : Int × Bool :=
  let r := curveRange c
  let f (y : Int) : Rat := curveInput c (mkRat y (2 ^ 24))
  let lo := r.1 * 2 ^ 24
  let hi := r.2 * 2 ^ 24
  let key (x : Rat) : Int := (x * 2 ^ 35).floor
  if x < f lo then (withinTol c (key (f lo)) lo, true)
  else if f hi < x then (withinTol c (key (f hi)) hi, true)
  else (withinTol c (key x) (solveWord f x 36 lo (hi + 1)), false)
/-- EMF of a cold junction as a fraction of full scale; outside the range of the reference function the spec states none (R191). -/
def coldEmf (c : Nat) (y : Int) : Rat :=
  if (couple c).lo * 2 ^ 24 ≤ y ∧ y ≤ (couple c).hi * 2 ^ 24 then coupleEmf c (mkRat y (2 ^ 24)) / 128
  else mkRat (Sys2Proof.coldOutside c y) (2 ^ 35)
/-- 1 ÷ T of an NTC at ln R (R190). -/
def steinhart (a b c : Int) (l : Rat) : Rat := mkRat a (2 ^ 43) + mkRat b (2 ^ 45) * l + mkRat c (2 ^ 55) * l * l * l
/-- The temperature word of an exact value; the direction of its rounding is not stated (log entry 30). -/
def curveWord (y : Rat) : Int := if y.den = 1 then y.num else y.floor + (Sys2Proof.roundsUp y.num y.den).toNat
/-- Curve 5 at an input word `x`, R = x × 2^(E - 35) Ω (R188 to R190): beyond 200 K and 500 K the nearer end. A resistance of 0 or less
lies beyond the end to which the equation goes as R falls. -/
def thermistor (a b c : Int) (e : Nat) (x : Int) : Int × Bool :=
  let ends (u : Rat) : Int × Bool :=
    let word (t : Rat) : Int := curveWord ((t - mkRat 27315 100) * 2 ^ 24)
    if u < mkRat 1 500 then (word 500, true)
    else if mkRat 1 200 < u then (word 200, true)
    else (word (1 / u), false)
  if 0 < x then ends (steinhart a b c (logOf x.toNat (e - 35)))
  else
    let s := if c = 0 then b else c
    ((ends (if s = 0 then mkRat a (2 ^ 43) else if 0 < s then 0 else 1)).1, true)

end Sys2Proof.Machine
end

