-- ==== Sys2Proof/Machine/Flags.lean ====
section
/-! DEFINITION. The flags of a record, bits 41 to 36 of its 48 (R10, R11): bit i of a flag word stands for record bit 36 + i. -/

namespace Sys2Proof.Machine

/-- UNS: the chain has not settled (R11). -/
def flagUNS : BitVec 6 := 0x20
/-- DIS (R11). -/
def flagDIS : BitVec 6 := 0x10
/-- FLT (R11). -/
def flagFLT : BitVec 6 := 0x08
/-- OVR (R11). -/
def flagOVR : BitVec 6 := 0x04
/-- SYN (R11). -/
def flagSYN : BitVec 6 := 0x02
/-- CLK (R11). -/
def flagCLK : BitVec 6 := 0x01
/-- A flag where a condition holds. -/
def flagIf (b : Bool) (f : BitVec 6) : BitVec 6 := if b then f else 0

end Sys2Proof.Machine
end

