-- ==== Sys2Proof/Machine/Cells.lean ====
section
/-! DEFINITION. Sparse storage by key. A `Cells α` is a list of key and value pairs in strictly rising key order. Registers and
per-instance records use `cellSet`, which keeps what is written; the memories use `memSet`, which drops an entry equal
to what an unlisted address reads as, so that equal memories are equal lists. -/

namespace Sys2Proof.Machine

/-- Sparse storage: key and value pairs, keys strictly rising. -/
abbrev Cells (α : Type) := List (Nat × α)

/-- The value at key `k`; `d` where no entry has that key. -/
def cellGet {α : Type} : Cells α → Nat → α → α
  | [], _, d => d
  | (a, x) :: m, k, d => if a = k then x else cellGet m k d

/-- Store `v` at key `k`, keeping the keys in rising order. -/
def cellSet {α : Type} : Cells α → Nat → α → Cells α
  | [], k, v => [(k, v)]
  | (a, x) :: m, k, v =>
    if k < a then (k, v) :: (a, x) :: m
    else if a = k then (k, v) :: m
    else (a, x) :: cellSet m k v

/-- Remove the entry of key `k`. -/
def cellDrop {α : Type} : Cells α → Nat → Cells α
  | [], _ => []
  | (a, x) :: m, k => if a = k then cellDrop m k else (a, x) :: cellDrop m k

/-- Store `v` at address `k` of a memory whose unlisted addresses read as `d`: an entry equal to `d` is not kept. -/
def memSet {α : Type} [DecidableEq α] (m : Cells α) (k : Nat) (v d : α) : Cells α :=
  if v = d then cellDrop m k else cellSet m k v

/-- The keys are strictly rising. -/
def keysRise {α : Type} : Cells α → Bool
  | [] => true
  | [_] => true
  | a :: b :: m => decide (a.1 < b.1) && keysRise (b :: m)

/-- Canonical form of a memory whose unlisted addresses read as `d`. -/
def memWf {α : Type} [DecidableEq α] (m : Cells α) (d : α) : Bool :=
  keysRise m && m.all fun p => decide (p.2 ≠ d)

end Sys2Proof.Machine
end

