-- ==== Sys2Proof/Machine/Regs.lean ====
section
/-! DEFINITION. The register map (R423, R424): one constructor of `Reg` per register of the index, with the instance
index as argument; its address, the masks of its access codes (R5) and its reset value from the register tables.
Field masks: `rw` fields a write sets (RW and RWL), `w1p` fields that pulse, `wo` fields that are written and read 0,
`rwl` the RWL fields among `rw`. Computed and live registers are given their content in `RegRead.lean`. -/

namespace Sys2Proof.Machine

/-- A register of the hub (R423), named as in the register address index. -/
inductive Reg where
  | engDrop (n : Nat)
  | apCfg (n : Nat)
  | apChsel (n : Nat)
  | excCtrl (n : Nat)
  | excLevel (n : Nat)
  | excChop (n : Nat)
  | excStatus (n : Nat)
  | isrcCfg (n : Nat)
  | isrcPair (n : Nat)
  | afeCfg (n : Nat)
  | afeTia (n : Nat)
  | monExcCtrl (n : Nat)
  | monExcWin (n : Nat)
  | monExcLearn (n : Nat)
  | monExcStatus (n : Nat)
  | monCm (n : Nat)
  | monCmv (n : Nat)
  | sluCic (n : Nat)
  | sluFir (n : Nat)
  | sluRank (n : Nat)
  | sluIir (n : Nat)
  | sluRate (n : Nat)
  | sluSh (n : Nat)
  | sluBank (n : Nat)
  | sluState (n : Nat)
  | sluDec (n : Nat)
  | sluWin (n : Nat)
  | sluSettle (n : Nat)
  | sluGd (n : Nat)
  | sluGdnx (n : Nat)
  | sluEnbw (n : Nat)
  | sluSgrp (n : Nat)
  | sclCfg (n : Nat)
  | sclZeroLo (n : Nat)
  | sclZeroHi (n : Nat)
  | sclSpanLo (n : Nat)
  | sclSpanHi (n : Nat)
  | sclAztLo (n : Nat)
  | sclAztHi (n : Nat)
  | linCfg (n : Nat)
  | linTbl (n : Nat)
  | linNtcALo (n : Nat)
  | linNtcAHi (n : Nat)
  | linNtcBLo (n : Nat)
  | linNtcBHi (n : Nat)
  | linNtcCLo (n : Nat)
  | linNtcCHi (n : Nat)
  | dsCfg (n : Nat)
  | dsOfsLo (n : Nat)
  | dsOfsHi (n : Nat)
  | dsStat (n : Nat)
  | dtCfg (n : Nat)
  | dtCoef (n : Nat)
  | statCfg (n : Nat)
  | statPer (n : Nat)
  | statCnt (n : Nat)
  | statNex (n : Nat)
  | statMinLo (n : Nat)
  | statMinHi (n : Nat)
  | statMaxLo (n : Nat)
  | statMaxHi (n : Nat)
  | statMeanLo (n : Nat)
  | statMeanHi (n : Nat)
  | statVarLo (n : Nat)
  | statVarHi (n : Nat)
  | statTlo (n : Nat)
  | statThi (n : Nat)
  | statSeq (n : Nat)
  | meldCfg (n : Nat)
  | meldGate (n : Nat)
  | meldALo (n : Nat)
  | meldAHi (n : Nat)
  | meldBLo (n : Nat)
  | meldBHi (n : Nat)
  | meldP0 (n : Nat)
  | meldP1 (n : Nat)
  | meldP2 (n : Nat)
  | meldP3 (n : Nat)
  | meldStatus (n : Nat)
  | meldResLo (n : Nat)
  | meldResHi (n : Nat)
  | meldRcnt (n : Nat)
  | meldRtLo (n : Nat)
  | meldRtHi (n : Nat)
  | routeCh (n : Nat)
  | routeStat (n : Nat)
  | routeGsrc (n : Nat)
  | routeCm (n : Nat)
  | routeSl (n : Nat)
  | routeQt (n : Nat)
  | routeSet (n : Nat)
  | routePin (n : Nat)
  | routeEvt (n : Nat)
  | routeRem (n : Nat)
  | routeCstat (n : Nat)
  | irqCfg (n : Nat)
  | irqPend (t w : Nat)
  | irqMask (t w : Nat)
  | irqInsv (t w : Nat)
  | irqLost (t w : Nat)
  | irqLostclr (t w : Nat)
  | irqClaim (n : Nat)
  | irqEoi (n : Nat)
  | irqLevel (n : Nat)
  | irqCtrl (n : Nat)
  | weirCfg (n : Nat)
  | weirArea (n : Nat)
  | weirSrcLo (n : Nat)
  | weirSrcHi (n : Nat)
  | weirPkt (n : Nat)
  | weirThr (n : Nat)
  | weirCtrl (n : Nat)
  | weirRel (n : Nat)
  | weirStatus (n : Nat)
  | weirW (n : Nat)
  | weirC (n : Nat)
  | weirR (n : Nat)
  | weirM (n : Nat)
  | weirF (n : Nat)
  | weirDrop (n : Nat)
  | weirLevel (n : Nat)
  | moverStatus (n : Nat)
  | moverFaddr (n : Nat)
  | regionAddr (n : Nat)
  | regionAttr (n : Nat)
  | hostCfg (n : Nat)
  | hostAddr (n : Nat)
  | hostStat (n : Nat)
  | hostCtrl (n : Nat)
  | cmdErr (n : Nat)
  | sbusSpCfg (n : Nat)
  | sbusSpWr (n : Nat)
  | sbusSpXtr (n : Nat)
  | sbusSpCnt (n : Nat)
  | linkPStat (n : Nat)
  | linkPErr (n : Nat)
  | linkPDly (n : Nat)
  | ebbWlo (n : Nat)
  | ebbWhi (n : Nat)
  | beoCfg (n : Nat)
  | beoScale (n : Nat)
  | beoOfsLo (n : Nat)
  | beoOfsHi (n : Nat)
  | beoHval (n : Nat)
  | beoOut (n : Nat)
  | aoCopyA (n : Nat)
  | aoCopyB (n : Nat)
  | sysTickDiv
  | sysTickCount
  | engCtrl
  | engStatus
  | engCapacityLo
  | engCapacityHi
  | engLoadPred
  | engLoadLast
  | engLoadMax
  | engLate
  | engPrio
  | seqLoad
  | movLoad
  | engDropAux
  | clkCtrl
  | clkPll
  | clkStatus
  | regCtrl
  | regStatus
  | supStatus
  | rstCause
  | bootStatus
  | aoStatus
  | aoBorCount
  | aoWdtCount
  | aoLfcountLo
  | aoLfcountHi
  | isrcStatus
  | afeCtrl
  | afeStatus
  | afeOvl
  | monCtrl
  | monCmAct
  | monCmStky
  | monIsrc
  | monTempCfg
  | monTempStatus
  | sluCoefAddr
  | sluCoefLo
  | sluCoefHi
  | sluSyncCtrl
  | sluEcc
  | dsSel
  | dsSlot
  | dsWt
  | dtCtrl
  | statEna
  | statLatch
  | meldCtrl
  | meldState
  | meldStky
  | routeFire0
  | routeFire1
  | routeHand
  | routeGlevel
  | routeGset
  | routeGclr
  | routeCtrl
  | routeBudg0
  | routeBudg1
  | routeTdiv
  | irqSeqQmask
  | moverCtrl
  | regionBound
  | hostBBaud
  | hostBUart
  | hostPidLo
  | hostPidHi
  | semStatus
  | semCfg
  | devState
  | cmdStateRejects
  | cmdLink
  | cmdCtrl
  | cmdInflight
  | sbusCfg
  | sbusStatus
  | sbusCtrl
  | linkCfg
  | linkStatus
  | linkNode
  | linkCtrl
  | linkSynctx
  | linkRxq
  | timeOfsF
  | timeOfsLo
  | timeOfsHi
  | timeRate
  | timeJumpLimit
  | timeNowLo
  | timeNowHi
  | timeFrcLo
  | timeFrcHi
  | timeLastStep
  | timeSrvCfg
  | timeSrvPri
  | timeSrvStat
  | timeErr
  | timeRateI
  | timeCnt
  | timeCtrl
  | pwrMode
  | pwrStatus
  | pwrLastEntry
  | pwrRefuseCount
  | pwrRefuser
  | pwrWakeEn
  | pwrWakePend
  | pwrWakeClr
  | pwrTimer
  | pwrBankRet
  | pwrBankLost
  | pwrSlept
  | pwrCfg
  | ebbCfg
  | ebbPulse
  | ebbStatus
  | ebbCycles
  | sealStatus
  | sealMetro
  | sealRef
  | sealCrc
  | sealCtrl
  | auditStatus
  | swidRom
  | swidPatch
  | swidCrc
  | patchStatus
  | beoCtrl
  | beoStatus
  | beoLoopCfg
  | beoLoopWa
  | beoLoopWb
  | beoLoopSpLo
  | beoLoopSpHi
  | beoLoopIlimLo
  | beoLoopIlimHi
  | beoLoopUofsLo
  | beoLoopUofsHi
  | beoLoopKp
  | beoLoopKi
  | beoLoopKd
  | beoLoopILo
  | beoLoopIHi
  | beoLoopStatus
  | beoLoopIter
deriving DecidableEq, Repr

/-- What the index and the register table say of a register: address of instance 0, stride, number of instances and masks. -/
structure RegSpec where
  base : Nat
  stride : Nat
  count : Nat
  rw : Nat
  w1p : Nat
  wo : Nat
  rwl : Nat
  reset : Nat
deriving DecidableEq, Repr

/-- Address layout, access masks and reset value of a register (R5, R423, R424). -/
def Reg.spec : Reg → RegSpec
  | .sysTickDiv => ⟨0x100, 4, 1, 0x7fffff, 0x0, 0x0, 0x0, 0x1800⟩
  | .sysTickCount => ⟨0x104, 4, 1, 0x0, 0x0, 0x0, 0x0, 0x0⟩
  | .engCtrl => ⟨0x110, 4, 1, 0x0, 0x7, 0x0, 0x0, 0x0⟩
  | .engStatus => ⟨0x114, 4, 1, 0x0, 0x0, 0x0, 0x0, 0x0⟩
  | .engCapacityLo => ⟨0x118, 4, 1, 0x0, 0x0, 0x0, 0x0, 0xc0000⟩
  | .engCapacityHi => ⟨0x11c, 4, 1, 0x0, 0x0, 0x0, 0x0, 0x0⟩
  | .engLoadPred => ⟨0x120, 4, 1, 0x0, 0x0, 0x0, 0x0, 0x0⟩
  | .engLoadLast => ⟨0x124, 4, 1, 0x0, 0x0, 0x0, 0x0, 0x0⟩
  | .engLoadMax => ⟨0x128, 4, 1, 0x0, 0x0, 0x0, 0x0, 0x0⟩
  | .engLate => ⟨0x12c, 4, 1, 0x0, 0x0, 0x0, 0x0, 0x0⟩
  | .engPrio => ⟨0x130, 4, 1, 0xffffff, 0x0, 0x0, 0x0, 0x0⟩
  | .seqLoad => ⟨0x134, 4, 1, 0x0, 0x0, 0x0, 0x0, 0x0⟩
  | .movLoad => ⟨0x138, 4, 1, 0x0, 0x0, 0x0, 0x0, 0x0⟩
  | .engDropAux => ⟨0x13c, 4, 1, 0x0, 0x0, 0x0, 0x0, 0x0⟩
  | .engDrop _ => ⟨0x140, 4, 24, 0x0, 0x0, 0x0, 0x0, 0x0⟩
  | .clkCtrl => ⟨0x10000, 4, 1, 0x180, 0x10000, 0x0, 0x0, 0x0⟩
  | .clkPll => ⟨0x10004, 4, 1, 0x0, 0x0, 0x0, 0x0, 0xc⟩
  | .clkStatus => ⟨0x10008, 4, 1, 0x0, 0x0, 0x0, 0x0, 0x0⟩
  | .regCtrl => ⟨0x10010, 4, 1, 0x1, 0x0, 0x0, 0x0, 0x0⟩
  | .regStatus => ⟨0x10014, 4, 1, 0x0, 0x0, 0x0, 0x0, 0x0⟩
  | .supStatus => ⟨0x10018, 4, 1, 0x0, 0x0, 0x0, 0x0, 0x1f⟩
  | .rstCause => ⟨0x10020, 4, 1, 0x0, 0x0, 0x0, 0x0, 0x0⟩
  | .bootStatus => ⟨0x10024, 4, 1, 0x0, 0x0, 0x0, 0x0, 0x0⟩
  | .aoStatus => ⟨0xf0000, 4, 1, 0x0, 0x0, 0x0, 0x0, 0x0⟩
  | .aoBorCount => ⟨0xf0004, 4, 1, 0x0, 0x0, 0x0, 0x0, 0x0⟩
  | .aoWdtCount => ⟨0xf0008, 4, 1, 0x0, 0x0, 0x0, 0x0, 0x0⟩
  | .aoLfcountLo => ⟨0xf0010, 4, 1, 0x0, 0x0, 0x0, 0x0, 0x0⟩
  | .aoLfcountHi => ⟨0xf0014, 4, 1, 0x0, 0x0, 0x0, 0x0, 0x0⟩
  | .apCfg _ => ⟨0x20000, 4, 48, 0x3f07, 0x0, 0x0, 0x0, 0x0⟩
  | .apChsel _ => ⟨0x20100, 4, 24, 0xf3f3f, 0x0, 0x0, 0xf3f3f, 0x3f3f⟩
  | .excCtrl _ => ⟨0x20200, 64, 4, 0xff01, 0x0, 0x0, 0x0, 0x400⟩
  | .excLevel _ => ⟨0x20204, 64, 4, 0x3fff, 0x0, 0x0, 0x0, 0x9c4⟩
  | .excChop _ => ⟨0x20208, 64, 4, 0xffffffff, 0x0, 0x0, 0x0, 0xc001800⟩
  | .excStatus _ => ⟨0x2020c, 64, 4, 0x0, 0x0, 0x0, 0x0, 0x0⟩
  | .isrcCfg _ => ⟨0x20400, 4, 8, 0xbfff, 0x0, 0x0, 0x0, 0x1⟩
  | .isrcPair _ => ⟨0x20420, 4, 4, 0x7, 0x0, 0x0, 0x0, 0x0⟩
  | .isrcStatus => ⟨0x20430, 4, 1, 0x0, 0x0, 0x0, 0x0, 0x0⟩
  | .afeCfg _ => ⟨0x30000, 4, 24, 0xf070f, 0x0, 0x0, 0xf070f, 0x0⟩
  | .afeTia _ => ⟨0x30100, 4, 4, 0xfff0007, 0x0, 0x0, 0xfff0007, 0x0⟩
  | .afeCtrl => ⟨0x30200, 4, 1, 0x0, 0x1, 0x0, 0x0, 0x0⟩
  | .afeStatus => ⟨0x30204, 4, 1, 0x0, 0x0, 0x0, 0x0, 0x0⟩
  | .afeOvl => ⟨0x30208, 4, 1, 0x0, 0x0, 0x0, 0x0, 0x0⟩
  | .monExcCtrl _ => ⟨0x40000, 32, 4, 0xffcb, 0x4, 0x0, 0xffcb, 0x2100⟩
  | .monExcWin _ => ⟨0x40004, 32, 4, 0xfff0fff, 0x0, 0x0, 0xfff0fff, 0x0⟩
  | .monExcLearn _ => ⟨0x40008, 32, 4, 0x3fff0000, 0x0, 0x0, 0x3fff0000, 0x9c40000⟩
  | .monExcStatus _ => ⟨0x4000c, 32, 4, 0x0, 0x0, 0x0, 0x0, 0x0⟩
  | .monCm _ => ⟨0x40100, 4, 24, 0xffff1fff, 0x0, 0x0, 0xffff1fff, 0x64157c⟩
  | .monCmv _ => ⟨0x40180, 4, 24, 0x0, 0x0, 0x0, 0x0, 0x0⟩
  | .monCtrl => ⟨0x40200, 4, 1, 0x0, 0x7, 0x0, 0x0, 0x0⟩
  | .monCmAct => ⟨0x40204, 4, 1, 0x0, 0x0, 0x0, 0x0, 0x0⟩
  | .monCmStky => ⟨0x40208, 4, 1, 0x0, 0x0, 0x0, 0x0, 0x0⟩
  | .monIsrc => ⟨0x4020c, 4, 1, 0x0, 0x0, 0x0, 0x0, 0x0⟩
  | .monTempCfg => ⟨0x40210, 4, 1, 0xff, 0x0, 0x0, 0x0, 0x7d⟩
  | .monTempStatus => ⟨0x40214, 4, 1, 0x0, 0x0, 0x0, 0x0, 0x0⟩
  | .sluCic _ => ⟨0x50000, 256, 24, 0x3707ff, 0x0, 0x0, 0x3707ff, 0x40180⟩
  | .sluFir _ => ⟨0x50004, 256, 24, 0x8f1fffff, 0x0, 0x0, 0x8f1fffff, 0x1000⟩
  | .sluRank _ => ⟨0x50008, 256, 24, 0x80000f0f, 0x0, 0x0, 0x80000f0f, 0x301⟩
  | .sluIir _ => ⟨0x5000c, 256, 24, 0x33000fff, 0x0, 0x0, 0x33000fff, 0x100000f⟩
  | .sluRate _ => ⟨0x50010, 256, 24, 0xf010f, 0x0, 0x0, 0xf010f, 0x0⟩
  | .sluSh _ => ⟨0x50014, 256, 24, 0x3f3f, 0x0, 0x0, 0x3f3f, 0x2323⟩
  | .sluBank _ => ⟨0x50018, 256, 24, 0x100, 0x80000000, 0x0, 0x100, 0x100⟩
  | .sluState _ => ⟨0x5001c, 256, 24, 0x0, 0x0, 0x0, 0x0, 0x0⟩
  | .sluDec _ => ⟨0x50020, 256, 24, 0x0, 0x0, 0x0, 0x0, 0x1800⟩
  | .sluWin _ => ⟨0x50024, 256, 24, 0x0, 0x0, 0x0, 0x0, 0x1c7d⟩
  | .sluSettle _ => ⟨0x50028, 256, 24, 0x0, 0x0, 0x0, 0x0, 0x2⟩
  | .sluGd _ => ⟨0x5002c, 256, 24, 0x0, 0x0, 0x0, 0x0, 0xe410⟩
  | .sluGdnx _ => ⟨0x50030, 256, 24, 0x0, 0x0, 0x0, 0x0, 0xe410⟩
  | .sluEnbw _ => ⟨0x50034, 256, 24, 0x0, 0x0, 0x0, 0x0, 0x8000⟩
  | .sluCoefAddr => ⟨0x51800, 4, 1, 0x80003fff, 0x0, 0x0, 0x0, 0x80000000⟩
  | .sluCoefLo => ⟨0x51804, 4, 1, 0xffffffff, 0x0, 0x0, 0xffffffff, 0x0⟩
  | .sluCoefHi => ⟨0x51808, 4, 1, 0xf, 0x0, 0x0, 0xf, 0x0⟩
  | .sluSgrp _ => ⟨0x51810, 4, 8, 0x7, 0x0, 0x0, 0x0, 0x0⟩
  | .sluSyncCtrl => ⟨0x51830, 4, 1, 0x17, 0xff0000, 0x0, 0x0, 0x0⟩
  | .sluEcc => ⟨0x51834, 4, 1, 0x0, 0x80000000, 0x0, 0x0, 0x0⟩
  | .sclCfg _ => ⟨0x60000, 32, 24, 0xffffff3f, 0x0, 0x0, 0xffffff3f, 0x22⟩
  | .sclZeroLo _ => ⟨0x60004, 32, 24, 0xffffffff, 0x0, 0x0, 0xffffffff, 0x0⟩
  | .sclZeroHi _ => ⟨0x60008, 32, 24, 0xf, 0x0, 0x0, 0xf, 0x0⟩
  | .sclSpanLo _ => ⟨0x6000c, 32, 24, 0xffffffff, 0x0, 0x0, 0xffffffff, 0x0⟩
  | .sclSpanHi _ => ⟨0x60010, 32, 24, 0xf, 0x0, 0x0, 0xf, 0x4⟩
  | .sclAztLo _ => ⟨0x60014, 32, 24, 0xffffffff, 0x0, 0x0, 0x0, 0x0⟩
  | .sclAztHi _ => ⟨0x60018, 32, 24, 0xf, 0x0, 0x0, 0x0, 0x0⟩
  | .linCfg _ => ⟨0x60400, 4, 40, 0x1f3f3f, 0x0, 0x0, 0x1f3f3f, 0x0⟩
  | .linTbl _ => ⟨0x60500, 4, 40, 0x3ffff, 0x0, 0x0, 0x3ffff, 0x0⟩
  | .linNtcALo _ => ⟨0x60600, 32, 4, 0xffffffff, 0x0, 0x0, 0xffffffff, 0x0⟩
  | .linNtcAHi _ => ⟨0x60604, 32, 4, 0xf, 0x0, 0x0, 0xf, 0x0⟩
  | .linNtcBLo _ => ⟨0x60608, 32, 4, 0xffffffff, 0x0, 0x0, 0xffffffff, 0x0⟩
  | .linNtcBHi _ => ⟨0x6060c, 32, 4, 0xf, 0x0, 0x0, 0xf, 0x0⟩
  | .linNtcCLo _ => ⟨0x60610, 32, 4, 0xffffffff, 0x0, 0x0, 0xffffffff, 0x0⟩
  | .linNtcCHi _ => ⟨0x60614, 32, 4, 0xf, 0x0, 0x0, 0xf, 0x0⟩
  | .dsCfg _ => ⟨0x60800, 4, 16, 0xc0000000, 0x0, 0x0, 0xc0000000, 0x0⟩
  | .dsOfsLo _ => ⟨0x60880, 8, 16, 0xffffffff, 0x0, 0x0, 0xffffffff, 0x0⟩
  | .dsOfsHi _ => ⟨0x60884, 8, 16, 0xf, 0x0, 0x0, 0xf, 0x0⟩
  | .dsSel => ⟨0x60900, 4, 1, 0x800001ff, 0x0, 0x0, 0x0, 0x80000000⟩
  | .dsSlot => ⟨0x60904, 4, 1, 0x8000003f, 0x0, 0x0, 0x8000003f, 0x0⟩
  | .dsWt => ⟨0x60908, 4, 1, 0xffffffff, 0x0, 0x0, 0xffffffff, 0x0⟩
  | .dsStat _ => ⟨0x60980, 4, 16, 0x0, 0x0, 0x0, 0x0, 0x0⟩
  | .dtCfg _ => ⟨0x60a00, 8, 8, 0xffff3f00, 0x0, 0x0, 0x0, 0x40010000⟩
  | .dtCoef _ => ⟨0x60a04, 8, 8, 0x1f0f, 0x0, 0x0, 0x0, 0x802⟩
  | .dtCtrl => ⟨0x60a80, 4, 1, 0x0, 0xff, 0x0, 0x0, 0x0⟩
  | .statCfg _ => ⟨0x60c00, 4, 32, 0x3f00013f, 0x0, 0x0, 0x0, 0x3c000000⟩
  | .statPer _ => ⟨0x60c80, 4, 32, 0xffffff, 0x0, 0x0, 0x0, 0x3e8⟩
  | .statEna => ⟨0x60d00, 4, 1, 0xffffffff, 0x0, 0x0, 0x0, 0x0⟩
  | .statLatch => ⟨0x60d04, 4, 1, 0x0, 0xffffffff, 0x0, 0x0, 0x0⟩
  | .statCnt _ => ⟨0x61000, 64, 32, 0x0, 0x0, 0x0, 0x0, 0x0⟩
  | .statNex _ => ⟨0x61004, 64, 32, 0x0, 0x0, 0x0, 0x0, 0x0⟩
  | .statMinLo _ => ⟨0x61008, 64, 32, 0x0, 0x0, 0x0, 0x0, 0x0⟩
  | .statMinHi _ => ⟨0x6100c, 64, 32, 0x0, 0x0, 0x0, 0x0, 0x0⟩
  | .statMaxLo _ => ⟨0x61010, 64, 32, 0x0, 0x0, 0x0, 0x0, 0x0⟩
  | .statMaxHi _ => ⟨0x61014, 64, 32, 0x0, 0x0, 0x0, 0x0, 0x0⟩
  | .statMeanLo _ => ⟨0x61018, 64, 32, 0x0, 0x0, 0x0, 0x0, 0x0⟩
  | .statMeanHi _ => ⟨0x6101c, 64, 32, 0x0, 0x0, 0x0, 0x0, 0x0⟩
  | .statVarLo _ => ⟨0x61020, 64, 32, 0x0, 0x0, 0x0, 0x0, 0x0⟩
  | .statVarHi _ => ⟨0x61024, 64, 32, 0x0, 0x0, 0x0, 0x0, 0x0⟩
  | .statTlo _ => ⟨0x61028, 64, 32, 0x0, 0x0, 0x0, 0x0, 0x0⟩
  | .statThi _ => ⟨0x6102c, 64, 32, 0x0, 0x0, 0x0, 0x0, 0x0⟩
  | .statSeq _ => ⟨0x61030, 64, 32, 0x0, 0x0, 0x0, 0x0, 0x0⟩
  | .meldCfg _ => ⟨0x70000, 64, 16, 0xffff0f3f, 0x0, 0x0, 0xffff0f3f, 0x3c0000⟩
  | .meldGate _ => ⟨0x70004, 64, 16, 0xffbf, 0x0, 0x0, 0xffbf, 0x0⟩
  | .meldALo _ => ⟨0x70008, 64, 16, 0xffffffff, 0x0, 0x0, 0xffffffff, 0x0⟩
  | .meldAHi _ => ⟨0x7000c, 64, 16, 0xf, 0x0, 0x0, 0xf, 0x0⟩
  | .meldBLo _ => ⟨0x70010, 64, 16, 0xffffffff, 0x0, 0x0, 0xffffffff, 0x0⟩
  | .meldBHi _ => ⟨0x70014, 64, 16, 0xf, 0x0, 0x0, 0xf, 0x0⟩
  | .meldP0 _ => ⟨0x70018, 64, 16, 0xffffffff, 0x0, 0x0, 0xffffffff, 0x0⟩
  | .meldP1 _ => ⟨0x7001c, 64, 16, 0xffffffff, 0x0, 0x0, 0xffffffff, 0x0⟩
  | .meldP2 _ => ⟨0x70020, 64, 16, 0xffffffff, 0x0, 0x0, 0xffffffff, 0x0⟩
  | .meldP3 _ => ⟨0x70024, 64, 16, 0xffffffff, 0x0, 0x0, 0xffffffff, 0x0⟩
  | .meldStatus _ => ⟨0x70028, 64, 16, 0x0, 0x0, 0x0, 0x0, 0x0⟩
  | .meldResLo _ => ⟨0x7002c, 64, 16, 0x0, 0x0, 0x0, 0x0, 0x0⟩
  | .meldResHi _ => ⟨0x70030, 64, 16, 0x0, 0x0, 0x0, 0x0, 0x0⟩
  | .meldRcnt _ => ⟨0x70034, 64, 16, 0x0, 0x0, 0x0, 0x0, 0x0⟩
  | .meldRtLo _ => ⟨0x70038, 64, 16, 0x0, 0x0, 0x0, 0x0, 0x0⟩
  | .meldRtHi _ => ⟨0x7003c, 64, 16, 0x0, 0x0, 0x0, 0x0, 0x0⟩
  | .meldCtrl => ⟨0x70400, 4, 1, 0x0, 0xffffffff, 0x0, 0x0, 0x0⟩
  | .meldState => ⟨0x70404, 4, 1, 0x0, 0x0, 0x0, 0x0, 0x0⟩
  | .meldStky => ⟨0x70408, 4, 1, 0x0, 0x0, 0x0, 0x0, 0x0⟩
  | .routeCh _ => ⟨0x80000, 4, 64, 0xc7cfffff, 0x0, 0x0, 0x47cfffff, 0x1000⟩
  | .routeStat _ => ⟨0x80100, 4, 64, 0x0, 0x0, 0x0, 0x0, 0x0⟩
  | .routeFire0 => ⟨0x80200, 4, 1, 0x0, 0xffffffff, 0x0, 0x0, 0x0⟩
  | .routeFire1 => ⟨0x80204, 4, 1, 0x0, 0xffffffff, 0x0, 0x0, 0x0⟩
  | .routeHand => ⟨0x80210, 4, 1, 0xff, 0x0, 0x0, 0x0, 0xff⟩
  | .routeGlevel => ⟨0x80214, 4, 1, 0x0, 0x0, 0x0, 0x0, 0x0⟩
  | .routeGset => ⟨0x80218, 4, 1, 0x0, 0xffff, 0x0, 0x0, 0x0⟩
  | .routeGclr => ⟨0x8021c, 4, 1, 0x0, 0xffff, 0x0, 0x0, 0x0⟩
  | .routeCtrl => ⟨0x80220, 4, 1, 0x0, 0x3, 0x0, 0x0, 0x0⟩
  | .routeBudg0 => ⟨0x80228, 4, 1, 0x0, 0x0, 0x0, 0x0, 0x0⟩
  | .routeBudg1 => ⟨0x8022c, 4, 1, 0x0, 0x0, 0x0, 0x0, 0x0⟩
  | .routeGsrc _ => ⟨0x80240, 4, 16, 0xff, 0x0, 0x0, 0xff, 0x0⟩
  | .routeCm _ => ⟨0x80280, 4, 4, 0x71f, 0x0, 0x0, 0x71f, 0x700⟩
  | .routeSl _ => ⟨0x80290, 4, 2, 0x1f, 0x0, 0x0, 0x1f, 0x0⟩
  | .routeTdiv => ⟨0x80298, 4, 1, 0xffffff, 0x0, 0x0, 0xffffff, 0x0⟩
  | .routeQt _ => ⟨0x802a0, 4, 4, 0x1f, 0x0, 0x0, 0x1f, 0x0⟩
  | .routeSet _ => ⟨0x802b0, 4, 4, 0xffffff, 0x0, 0x0, 0xffffff, 0x0⟩
  | .routePin _ => ⟨0x802c0, 4, 8, 0xff03, 0x0, 0x0, 0xff03, 0x0⟩
  | .routeEvt _ => ⟨0x802e0, 4, 8, 0xf60fffff, 0x8000000, 0x0, 0x0, 0x1⟩
  | .routeRem _ => ⟨0x80300, 4, 4, 0x37f, 0x0, 0x0, 0x0, 0x7f⟩
  | .routeCstat _ => ⟨0x80400, 4, 144, 0x0, 0x0, 0x0, 0x0, 0x0⟩
  | .irqCfg n => ⟨0x90000, 4, 128, 0x307, 0x0, 0x0, 0x0, (if n = 64 ∨ n = 66 then 0x100 else if n = 65 ∨ n = 67 then 0x200 else if 112 ≤ n ∧ n ≤ 126 then 0x300 else 0)⟩
  | .irqPend t _ => ⟨0x90400 + 256 * t, 4, 4, 0xffffffff, 0x0, 0x0, 0x0, 0x0⟩
  | .irqMask t _ => ⟨0x90410 + 256 * t, 4, 4, 0xffffffff, 0x0, 0x0, 0x0, 0xffffffff⟩
  | .irqInsv t _ => ⟨0x90420 + 256 * t, 4, 4, 0x0, 0x0, 0x0, 0x0, 0x0⟩
  | .irqLost t _ => ⟨0x90430 + 256 * t, 4, 4, 0x0, 0x0, 0x0, 0x0, 0x0⟩
  | .irqLostclr t _ => ⟨0x90440 + 256 * t, 4, 4, 0x0, 0xffffffff, 0x0, 0x0, 0x0⟩
  | .irqClaim _ => ⟨0x90450, 256, 3, 0x0, 0x0, 0x0, 0x0, 0x7f⟩
  | .irqEoi _ => ⟨0x90454, 256, 3, 0x0, 0x0, 0x7f, 0x0, 0x0⟩
  | .irqLevel _ => ⟨0x90458, 256, 3, 0x0, 0x0, 0x0, 0x0, 0x7f00⟩
  | .irqCtrl _ => ⟨0x9045c, 256, 3, 0x3, 0x4, 0x0, 0x0, 0x0⟩
  | .irqSeqQmask => ⟨0x90700, 4, 1, 0xffff, 0x0, 0x0, 0x0, 0x0⟩
  | .weirCfg _ => ⟨0xa0000, 64, 16, 0xe0000000, 0x0, 0x0, 0x0, 0x0⟩
  | .weirArea _ => ⟨0xa0004, 64, 16, 0x3ff03ff, 0x0, 0x0, 0x0, 0x0⟩
  | .weirSrcLo _ => ⟨0xa0008, 64, 16, 0xffffffff, 0x0, 0x0, 0x0, 0x0⟩
  | .weirSrcHi _ => ⟨0xa000c, 64, 16, 0xffffff, 0x0, 0x0, 0x0, 0x0⟩
  | .weirPkt _ => ⟨0xa0010, 64, 16, 0xffffffff, 0x0, 0x0, 0x0, 0xffff0001⟩
  | .weirThr _ => ⟨0xa0014, 64, 16, 0xc007ffff, 0x0, 0x0, 0x0, 0x0⟩
  | .weirCtrl _ => ⟨0xa0018, 64, 16, 0x0, 0x3fe, 0x0, 0x0, 0x0⟩
  | .weirRel _ => ⟨0xa001c, 64, 16, 0x0, 0x0, 0x8007ffff, 0x0, 0x0⟩
  | .weirStatus _ => ⟨0xa0020, 64, 16, 0x0, 0x0, 0x0, 0x0, 0x0⟩
  | .weirW _ => ⟨0xa0024, 64, 16, 0x0, 0x0, 0x0, 0x0, 0x0⟩
  | .weirC _ => ⟨0xa0028, 64, 16, 0x0, 0x0, 0x0, 0x0, 0x0⟩
  | .weirR _ => ⟨0xa002c, 64, 16, 0x0, 0x0, 0x0, 0x0, 0x0⟩
  | .weirM _ => ⟨0xa0030, 64, 16, 0x0, 0x0, 0x0, 0x0, 0x0⟩
  | .weirF _ => ⟨0xa0034, 64, 16, 0x0, 0x0, 0x0, 0x0, 0x0⟩
  | .weirDrop _ => ⟨0xa0038, 64, 16, 0x0, 0x0, 0x0, 0x0, 0x0⟩
  | .weirLevel _ => ⟨0xa003c, 64, 16, 0x0, 0x0, 0x0, 0x0, 0x0⟩
  | .moverStatus _ => ⟨0xa0400, 16, 8, 0x0, 0x0, 0x0, 0x0, 0x0⟩
  | .moverFaddr _ => ⟨0xa0404, 16, 8, 0x0, 0x0, 0x0, 0x0, 0x0⟩
  | .moverCtrl => ⟨0xa0480, 4, 1, 0x0, 0xff, 0x0, 0x0, 0x0⟩
  | .regionAddr _ => ⟨0xa0800, 8, 16, 0x3ff03ff, 0x0, 0x0, 0x3ff03ff, 0x0⟩
  | .regionAttr _ => ⟨0xa0804, 8, 16, 0xc000000f, 0x0, 0x0, 0xc000000f, 0x0⟩
  | .regionBound => ⟨0xa0900, 4, 1, 0xf, 0x0, 0x0, 0x0, 0x3⟩
  | .hostCfg _ => ⟨0xb0000, 256, 2, 0x4, 0x0, 0x0, 0x0, 0x0⟩
  | .hostAddr n => ⟨0xb0004, 256, 2, 0x7f, 0x0, 0x0, 0x0, (if n = 0 then 0x5c else 0x5d)⟩
  | .hostStat _ => ⟨0xb0008, 256, 2, 0x0, 0x0, 0x0, 0x0, 0x0⟩
  | .hostCtrl _ => ⟨0xb000c, 256, 2, 0x0, 0x3, 0x0, 0x0, 0x0⟩
  | .hostBBaud => ⟨0xb0110, 4, 1, 0xffffff, 0x0, 0x0, 0x0, 0x1c200⟩
  | .hostBUart => ⟨0xb0114, 4, 1, 0xffff0001, 0x0, 0x0, 0x0, 0xc110000⟩
  | .hostPidLo => ⟨0xb0200, 4, 1, 0x0, 0x0, 0x0, 0x0, 0x48360000⟩
  | .hostPidHi => ⟨0xb0204, 4, 1, 0x0, 0x0, 0x0, 0x0, 0x0⟩
  | .semStatus => ⟨0xb0400, 4, 1, 0x0, 0x0, 0x0, 0x0, 0x0⟩
  | .semCfg => ⟨0xb0404, 4, 1, 0xffff, 0x0, 0x0, 0x0, 0x1f4⟩
  | .devState => ⟨0xb0408, 4, 1, 0x0, 0x0, 0x0, 0x0, 0x0⟩
  | .cmdStateRejects => ⟨0xb040c, 4, 1, 0x0, 0x0, 0x0, 0x0, 0x0⟩
  | .cmdErr _ => ⟨0xb0410, 4, 2, 0x0, 0x0, 0x0, 0x0, 0x0⟩
  | .cmdLink => ⟨0xb0418, 4, 1, 0xffff, 0x0, 0x0, 0x0, 0x14⟩
  | .cmdCtrl => ⟨0xb041c, 4, 1, 0x0, 0x7, 0x0, 0x0, 0x0⟩
  | .cmdInflight => ⟨0xb0420, 4, 1, 0x0, 0x0, 0x0, 0x0, 0x0⟩
  | .sbusCfg => ⟨0xb0800, 4, 1, 0x80ff03ff, 0x0, 0x0, 0x0, 0x640107⟩
  | .sbusStatus => ⟨0xb0804, 4, 1, 0x0, 0x0, 0x0, 0x0, 0x0⟩
  | .sbusCtrl => ⟨0xb0808, 4, 1, 0x0, 0x1, 0x0, 0x0, 0x0⟩
  | .sbusSpCfg _ => ⟨0xb0840, 16, 8, 0xfcffffff, 0x0, 0x0, 0x0, 0x40000000⟩
  | .sbusSpWr _ => ⟨0xb0844, 16, 8, 0xffffffff, 0x0, 0x0, 0x0, 0x0⟩
  | .sbusSpXtr _ => ⟨0xb0848, 16, 8, 0xffffffff, 0x0, 0x0, 0x0, 0x6100800⟩
  | .sbusSpCnt _ => ⟨0xb084c, 16, 8, 0x0, 0x0, 0x0, 0x0, 0x0⟩
  | .linkCfg => ⟨0xc0000, 4, 1, 0xff000003, 0x0, 0x0, 0x0, 0x2000003⟩
  | .linkStatus => ⟨0xc0004, 4, 1, 0x0, 0x0, 0x0, 0x0, 0x1⟩
  | .linkNode => ⟨0xc0008, 4, 1, 0x0, 0x0, 0x0, 0x0, 0xff00ff⟩
  | .linkCtrl => ⟨0xc000c, 4, 1, 0x0, 0xf, 0x0, 0x0, 0x0⟩
  | .linkPStat _ => ⟨0xc0010, 16, 2, 0x0, 0x0, 0x0, 0x0, 0x0⟩
  | .linkPErr _ => ⟨0xc0014, 16, 2, 0x0, 0x0, 0x0, 0x0, 0x0⟩
  | .linkPDly _ => ⟨0xc0018, 16, 2, 0xffff, 0x0, 0x0, 0x0, 0x190⟩
  | .linkSynctx => ⟨0xc0040, 4, 1, 0xffff0001, 0xff00, 0x0, 0x0, 0x640000⟩
  | .linkRxq => ⟨0xc0044, 4, 1, 0x8000000f, 0x0, 0x0, 0x0, 0x0⟩
  | .timeOfsF => ⟨0xc0100, 4, 1, 0x0, 0x0, 0x0, 0x0, 0x0⟩
  | .timeOfsLo => ⟨0xc0104, 4, 1, 0x0, 0x0, 0x0, 0x0, 0x0⟩
  | .timeOfsHi => ⟨0xc0108, 4, 1, 0x0, 0x0, 0x0, 0x0, 0x0⟩
  | .timeRate => ⟨0xc010c, 4, 1, 0x0, 0x0, 0x0, 0x0, 0x0⟩
  | .timeJumpLimit => ⟨0xc0110, 4, 1, 0xffffffff, 0x0, 0x0, 0x0, 0x2710⟩
  | .timeNowLo => ⟨0xc0114, 4, 1, 0x0, 0x0, 0x0, 0x0, 0x0⟩
  | .timeNowHi => ⟨0xc0118, 4, 1, 0x0, 0x0, 0x0, 0x0, 0x0⟩
  | .timeFrcLo => ⟨0xc011c, 4, 1, 0x0, 0x0, 0x0, 0x0, 0x0⟩
  | .timeFrcHi => ⟨0xc0120, 4, 1, 0x0, 0x0, 0x0, 0x0, 0x0⟩
  | .timeLastStep => ⟨0xc0124, 4, 1, 0x0, 0x0, 0x0, 0x0, 0x0⟩
  | .timeSrvCfg => ⟨0xc0128, 4, 1, 0xfeffffff, 0x0, 0x0, 0x0, 0xb63747d0⟩
  | .timeSrvPri => ⟨0xc012c, 4, 1, 0xff, 0x0, 0x0, 0x0, 0x80⟩
  | .timeSrvStat => ⟨0xc0130, 4, 1, 0x0, 0x0, 0x0, 0x0, 0x800000⟩
  | .timeErr => ⟨0xc0134, 4, 1, 0x0, 0x0, 0x0, 0x0, 0x0⟩
  | .timeRateI => ⟨0xc0138, 4, 1, 0x0, 0x0, 0x0, 0x0, 0x0⟩
  | .timeCnt => ⟨0xc013c, 4, 1, 0x0, 0x0, 0x0, 0x0, 0x0⟩
  | .timeCtrl => ⟨0xc0140, 4, 1, 0x0, 0x7, 0x0, 0x0, 0x0⟩
  | .pwrMode => ⟨0x10100, 4, 1, 0x17, 0x0, 0x0, 0x0, 0x0⟩
  | .pwrStatus => ⟨0x10104, 4, 1, 0x0, 0x0, 0x0, 0x0, 0x0⟩
  | .pwrLastEntry => ⟨0x10108, 4, 1, 0x0, 0x0, 0x0, 0x0, 0x0⟩
  | .pwrRefuseCount => ⟨0x1010c, 4, 1, 0x0, 0x0, 0x0, 0x0, 0x0⟩
  | .pwrRefuser => ⟨0x10110, 4, 1, 0x0, 0x0, 0x0, 0x0, 0x0⟩
  | .pwrWakeEn => ⟨0x10114, 4, 1, 0x1ff, 0x0, 0x0, 0x0, 0xc⟩
  | .pwrWakePend => ⟨0x10118, 4, 1, 0x0, 0x0, 0x0, 0x0, 0x0⟩
  | .pwrWakeClr => ⟨0x1011c, 4, 1, 0x0, 0x1ff, 0x0, 0x0, 0x0⟩
  | .pwrTimer => ⟨0x10120, 4, 1, 0xffffff, 0x0, 0x0, 0x0, 0x0⟩
  | .pwrBankRet => ⟨0x10124, 4, 1, 0xffff, 0x0, 0x0, 0x0, 0x0⟩
  | .pwrBankLost => ⟨0x10128, 4, 1, 0x0, 0x0, 0x0, 0x0, 0x0⟩
  | .pwrSlept => ⟨0x1012c, 4, 1, 0x0, 0x0, 0x0, 0x0, 0x0⟩
  | .pwrCfg => ⟨0x10130, 4, 1, 0xff, 0x0, 0x0, 0x0, 0x32⟩
  | .ebbCfg => ⟨0x10200, 4, 1, 0xef1fffff, 0x0, 0x0, 0x0, 0x8000⟩
  | .ebbPulse => ⟨0x10204, 4, 1, 0xfff07ff, 0x0, 0x0, 0x0, 0x100100⟩
  | .ebbStatus => ⟨0x10208, 4, 1, 0x0, 0x0, 0x0, 0x0, 0x0⟩
  | .ebbCycles => ⟨0x1020c, 4, 1, 0x0, 0x0, 0x0, 0x0, 0x0⟩
  | .ebbWlo _ => ⟨0x10220, 8, 8, 0xffffffff, 0x0, 0x0, 0x0, 0x80000000⟩
  | .ebbWhi _ => ⟨0x10224, 8, 8, 0xffffffff, 0x0, 0x0, 0x0, 0x7fffffff⟩
  | .sealStatus => ⟨0xd0000, 4, 1, 0x0, 0x0, 0x0, 0x0, 0x0⟩
  | .sealMetro => ⟨0xd0004, 4, 1, 0xffffff, 0x0, 0x0, 0xffffff, 0x0⟩
  | .sealRef => ⟨0xd0008, 4, 1, 0x0, 0x0, 0x0, 0x0, 0x0⟩
  | .sealCrc => ⟨0xd000c, 4, 1, 0x0, 0x0, 0x0, 0x0, 0x0⟩
  | .sealCtrl => ⟨0xd0010, 4, 1, 0x0, 0x3, 0x0, 0x0, 0x0⟩
  | .auditStatus => ⟨0xd0020, 4, 1, 0x0, 0x0, 0x0, 0x0, 0x0⟩
  | .swidRom => ⟨0xd0030, 4, 1, 0x0, 0x0, 0x0, 0x0, 0x0⟩
  | .swidPatch => ⟨0xd0034, 4, 1, 0x0, 0x0, 0x0, 0x0, 0x0⟩
  | .swidCrc => ⟨0xd0038, 4, 1, 0x0, 0x0, 0x0, 0x0, 0x0⟩
  | .patchStatus => ⟨0xd003c, 4, 1, 0x0, 0x0, 0x0, 0x0, 0x0⟩
  | .beoCtrl => ⟨0xe0000, 4, 1, 0x80000300, 0x3e, 0x0, 0x0, 0x0⟩
  | .beoStatus => ⟨0xe0004, 4, 1, 0x0, 0x0, 0x0, 0x0, 0x0⟩
  | .beoCfg _ => ⟨0xe0010, 32, 2, 0xffffff3f, 0x0, 0x0, 0x0, 0xc000000⟩
  | .beoScale _ => ⟨0xe0014, 32, 2, 0xffffffff, 0x0, 0x0, 0x0, 0x10000000⟩
  | .beoOfsLo _ => ⟨0xe0018, 32, 2, 0xffffffff, 0x0, 0x0, 0x0, 0x0⟩
  | .beoOfsHi _ => ⟨0xe001c, 32, 2, 0xf, 0x0, 0x0, 0x0, 0x0⟩
  | .beoHval _ => ⟨0xe0020, 32, 2, 0xffffff, 0x0, 0x0, 0x0, 0x0⟩
  | .beoOut _ => ⟨0xe0024, 32, 2, 0x0, 0x0, 0x0, 0x0, 0x0⟩
  | .beoLoopCfg => ⟨0xe0100, 4, 1, 0xefffcfff, 0x0, 0x0, 0x0, 0x3010fd0⟩
  | .beoLoopWa => ⟨0xe0104, 4, 1, 0xffffffff, 0x0, 0x0, 0x0, 0x10000000⟩
  | .beoLoopWb => ⟨0xe0108, 4, 1, 0xffffffff, 0x0, 0x0, 0x0, 0x0⟩
  | .beoLoopSpLo => ⟨0xe010c, 4, 1, 0xffffffff, 0x0, 0x0, 0x0, 0x0⟩
  | .beoLoopSpHi => ⟨0xe0110, 4, 1, 0xf, 0x0, 0x0, 0x0, 0x0⟩
  | .beoLoopIlimLo => ⟨0xe0120, 4, 1, 0xffffffff, 0x0, 0x0, 0x0, 0x0⟩
  | .beoLoopIlimHi => ⟨0xe0124, 4, 1, 0xf, 0x0, 0x0, 0x0, 0x0⟩
  | .beoLoopUofsLo => ⟨0xe0128, 4, 1, 0xffffffff, 0x0, 0x0, 0x0, 0x0⟩
  | .beoLoopUofsHi => ⟨0xe012c, 4, 1, 0xf, 0x0, 0x0, 0x0, 0x0⟩
  | .beoLoopKp => ⟨0xe0114, 4, 1, 0xffffffff, 0x0, 0x0, 0x0, 0x0⟩
  | .beoLoopKi => ⟨0xe0118, 4, 1, 0xffffffff, 0x0, 0x0, 0x0, 0x0⟩
  | .beoLoopKd => ⟨0xe011c, 4, 1, 0xffffffff, 0x0, 0x0, 0x0, 0x0⟩
  | .beoLoopILo => ⟨0xe0130, 4, 1, 0x0, 0x0, 0x0, 0x0, 0x0⟩
  | .beoLoopIHi => ⟨0xe0134, 4, 1, 0x0, 0x0, 0x0, 0x0, 0x0⟩
  | .beoLoopStatus => ⟨0xe0138, 4, 1, 0x0, 0x0, 0x0, 0x0, 0x0⟩
  | .beoLoopIter => ⟨0xe013c, 4, 1, 0x0, 0x0, 0x0, 0x0, 0x0⟩
  | .aoCopyA _ => ⟨0xf0400, 4, 17, 0x0, 0x0, 0x0, 0x0, 0x0⟩
  | .aoCopyB _ => ⟨0xf0600, 4, 17, 0x0, 0x0, 0x0, 0x0, 0x0⟩

/-- Instance index of a register (the one that the stride multiplies). -/
def Reg.idx : Reg → Nat
  | .sysTickDiv => 0
  | .sysTickCount => 0
  | .engCtrl => 0
  | .engStatus => 0
  | .engCapacityLo => 0
  | .engCapacityHi => 0
  | .engLoadPred => 0
  | .engLoadLast => 0
  | .engLoadMax => 0
  | .engLate => 0
  | .engPrio => 0
  | .seqLoad => 0
  | .movLoad => 0
  | .engDropAux => 0
  | .engDrop n => n
  | .clkCtrl => 0
  | .clkPll => 0
  | .clkStatus => 0
  | .regCtrl => 0
  | .regStatus => 0
  | .supStatus => 0
  | .rstCause => 0
  | .bootStatus => 0
  | .aoStatus => 0
  | .aoBorCount => 0
  | .aoWdtCount => 0
  | .aoLfcountLo => 0
  | .aoLfcountHi => 0
  | .apCfg n => n
  | .apChsel n => n
  | .excCtrl n => n
  | .excLevel n => n
  | .excChop n => n
  | .excStatus n => n
  | .isrcCfg n => n
  | .isrcPair n => n
  | .isrcStatus => 0
  | .afeCfg n => n
  | .afeTia n => n
  | .afeCtrl => 0
  | .afeStatus => 0
  | .afeOvl => 0
  | .monExcCtrl n => n
  | .monExcWin n => n
  | .monExcLearn n => n
  | .monExcStatus n => n
  | .monCm n => n
  | .monCmv n => n
  | .monCtrl => 0
  | .monCmAct => 0
  | .monCmStky => 0
  | .monIsrc => 0
  | .monTempCfg => 0
  | .monTempStatus => 0
  | .sluCic n => n
  | .sluFir n => n
  | .sluRank n => n
  | .sluIir n => n
  | .sluRate n => n
  | .sluSh n => n
  | .sluBank n => n
  | .sluState n => n
  | .sluDec n => n
  | .sluWin n => n
  | .sluSettle n => n
  | .sluGd n => n
  | .sluGdnx n => n
  | .sluEnbw n => n
  | .sluCoefAddr => 0
  | .sluCoefLo => 0
  | .sluCoefHi => 0
  | .sluSgrp n => n
  | .sluSyncCtrl => 0
  | .sluEcc => 0
  | .sclCfg n => n
  | .sclZeroLo n => n
  | .sclZeroHi n => n
  | .sclSpanLo n => n
  | .sclSpanHi n => n
  | .sclAztLo n => n
  | .sclAztHi n => n
  | .linCfg n => n
  | .linTbl n => n
  | .linNtcALo n => n
  | .linNtcAHi n => n
  | .linNtcBLo n => n
  | .linNtcBHi n => n
  | .linNtcCLo n => n
  | .linNtcCHi n => n
  | .dsCfg n => n
  | .dsOfsLo n => n
  | .dsOfsHi n => n
  | .dsSel => 0
  | .dsSlot => 0
  | .dsWt => 0
  | .dsStat n => n
  | .dtCfg n => n
  | .dtCoef n => n
  | .dtCtrl => 0
  | .statCfg n => n
  | .statPer n => n
  | .statEna => 0
  | .statLatch => 0
  | .statCnt n => n
  | .statNex n => n
  | .statMinLo n => n
  | .statMinHi n => n
  | .statMaxLo n => n
  | .statMaxHi n => n
  | .statMeanLo n => n
  | .statMeanHi n => n
  | .statVarLo n => n
  | .statVarHi n => n
  | .statTlo n => n
  | .statThi n => n
  | .statSeq n => n
  | .meldCfg n => n
  | .meldGate n => n
  | .meldALo n => n
  | .meldAHi n => n
  | .meldBLo n => n
  | .meldBHi n => n
  | .meldP0 n => n
  | .meldP1 n => n
  | .meldP2 n => n
  | .meldP3 n => n
  | .meldStatus n => n
  | .meldResLo n => n
  | .meldResHi n => n
  | .meldRcnt n => n
  | .meldRtLo n => n
  | .meldRtHi n => n
  | .meldCtrl => 0
  | .meldState => 0
  | .meldStky => 0
  | .routeCh n => n
  | .routeStat n => n
  | .routeFire0 => 0
  | .routeFire1 => 0
  | .routeHand => 0
  | .routeGlevel => 0
  | .routeGset => 0
  | .routeGclr => 0
  | .routeCtrl => 0
  | .routeBudg0 => 0
  | .routeBudg1 => 0
  | .routeGsrc n => n
  | .routeCm n => n
  | .routeSl n => n
  | .routeTdiv => 0
  | .routeQt n => n
  | .routeSet n => n
  | .routePin n => n
  | .routeEvt n => n
  | .routeRem n => n
  | .routeCstat n => n
  | .irqCfg n => n
  | .irqPend _ w => w
  | .irqMask _ w => w
  | .irqInsv _ w => w
  | .irqLost _ w => w
  | .irqLostclr _ w => w
  | .irqClaim n => n
  | .irqEoi n => n
  | .irqLevel n => n
  | .irqCtrl n => n
  | .irqSeqQmask => 0
  | .weirCfg n => n
  | .weirArea n => n
  | .weirSrcLo n => n
  | .weirSrcHi n => n
  | .weirPkt n => n
  | .weirThr n => n
  | .weirCtrl n => n
  | .weirRel n => n
  | .weirStatus n => n
  | .weirW n => n
  | .weirC n => n
  | .weirR n => n
  | .weirM n => n
  | .weirF n => n
  | .weirDrop n => n
  | .weirLevel n => n
  | .moverStatus n => n
  | .moverFaddr n => n
  | .moverCtrl => 0
  | .regionAddr n => n
  | .regionAttr n => n
  | .regionBound => 0
  | .hostCfg n => n
  | .hostAddr n => n
  | .hostStat n => n
  | .hostCtrl n => n
  | .hostBBaud => 0
  | .hostBUart => 0
  | .hostPidLo => 0
  | .hostPidHi => 0
  | .semStatus => 0
  | .semCfg => 0
  | .devState => 0
  | .cmdStateRejects => 0
  | .cmdErr n => n
  | .cmdLink => 0
  | .cmdCtrl => 0
  | .cmdInflight => 0
  | .sbusCfg => 0
  | .sbusStatus => 0
  | .sbusCtrl => 0
  | .sbusSpCfg n => n
  | .sbusSpWr n => n
  | .sbusSpXtr n => n
  | .sbusSpCnt n => n
  | .linkCfg => 0
  | .linkStatus => 0
  | .linkNode => 0
  | .linkCtrl => 0
  | .linkPStat n => n
  | .linkPErr n => n
  | .linkPDly n => n
  | .linkSynctx => 0
  | .linkRxq => 0
  | .timeOfsF => 0
  | .timeOfsLo => 0
  | .timeOfsHi => 0
  | .timeRate => 0
  | .timeJumpLimit => 0
  | .timeNowLo => 0
  | .timeNowHi => 0
  | .timeFrcLo => 0
  | .timeFrcHi => 0
  | .timeLastStep => 0
  | .timeSrvCfg => 0
  | .timeSrvPri => 0
  | .timeSrvStat => 0
  | .timeErr => 0
  | .timeRateI => 0
  | .timeCnt => 0
  | .timeCtrl => 0
  | .pwrMode => 0
  | .pwrStatus => 0
  | .pwrLastEntry => 0
  | .pwrRefuseCount => 0
  | .pwrRefuser => 0
  | .pwrWakeEn => 0
  | .pwrWakePend => 0
  | .pwrWakeClr => 0
  | .pwrTimer => 0
  | .pwrBankRet => 0
  | .pwrBankLost => 0
  | .pwrSlept => 0
  | .pwrCfg => 0
  | .ebbCfg => 0
  | .ebbPulse => 0
  | .ebbStatus => 0
  | .ebbCycles => 0
  | .ebbWlo n => n
  | .ebbWhi n => n
  | .sealStatus => 0
  | .sealMetro => 0
  | .sealRef => 0
  | .sealCrc => 0
  | .sealCtrl => 0
  | .auditStatus => 0
  | .swidRom => 0
  | .swidPatch => 0
  | .swidCrc => 0
  | .patchStatus => 0
  | .beoCtrl => 0
  | .beoStatus => 0
  | .beoCfg n => n
  | .beoScale n => n
  | .beoOfsLo n => n
  | .beoOfsHi n => n
  | .beoHval n => n
  | .beoOut n => n
  | .beoLoopCfg => 0
  | .beoLoopWa => 0
  | .beoLoopWb => 0
  | .beoLoopSpLo => 0
  | .beoLoopSpHi => 0
  | .beoLoopIlimLo => 0
  | .beoLoopIlimHi => 0
  | .beoLoopUofsLo => 0
  | .beoLoopUofsHi => 0
  | .beoLoopKp => 0
  | .beoLoopKi => 0
  | .beoLoopKd => 0
  | .beoLoopILo => 0
  | .beoLoopIHi => 0
  | .beoLoopStatus => 0
  | .beoLoopIter => 0
  | .aoCopyA n => n
  | .aoCopyB n => n

/-- Address of a register: block base plus offset plus index times stride (R424). -/
def Reg.addr (r : Reg) : Nat := r.spec.base + r.spec.stride * r.idx

/-- Value after power-on reset where no run-time rule overrides it (R426). -/
def Reg.reset (r : Reg) : BitVec 32 := BitVec.ofNat 32 r.spec.reset

/-- One family of equal registers in the address map: instance `i` lies at `base + stride * i`. -/
structure RegRow where
  base : Nat
  stride : Nat
  count : Nat
  reg : Nat → Reg

/-- The registers of block 0x0000_0000 of the register address index. -/
def regRows0 : List RegRow := [
  ⟨0x100, 4, 1, fun _ => .sysTickDiv⟩,
  ⟨0x104, 4, 1, fun _ => .sysTickCount⟩,
  ⟨0x110, 4, 1, fun _ => .engCtrl⟩,
  ⟨0x114, 4, 1, fun _ => .engStatus⟩,
  ⟨0x118, 4, 1, fun _ => .engCapacityLo⟩,
  ⟨0x11c, 4, 1, fun _ => .engCapacityHi⟩,
  ⟨0x120, 4, 1, fun _ => .engLoadPred⟩,
  ⟨0x124, 4, 1, fun _ => .engLoadLast⟩,
  ⟨0x128, 4, 1, fun _ => .engLoadMax⟩,
  ⟨0x12c, 4, 1, fun _ => .engLate⟩,
  ⟨0x130, 4, 1, fun _ => .engPrio⟩,
  ⟨0x134, 4, 1, fun _ => .seqLoad⟩,
  ⟨0x138, 4, 1, fun _ => .movLoad⟩,
  ⟨0x13c, 4, 1, fun _ => .engDropAux⟩,
  ⟨0x140, 4, 24, .engDrop⟩]

/-- The registers of block 0x0001_0000 of the register address index. -/
def regRows1 : List RegRow := [
  ⟨0x10000, 4, 1, fun _ => .clkCtrl⟩,
  ⟨0x10004, 4, 1, fun _ => .clkPll⟩,
  ⟨0x10008, 4, 1, fun _ => .clkStatus⟩,
  ⟨0x10010, 4, 1, fun _ => .regCtrl⟩,
  ⟨0x10014, 4, 1, fun _ => .regStatus⟩,
  ⟨0x10018, 4, 1, fun _ => .supStatus⟩,
  ⟨0x10020, 4, 1, fun _ => .rstCause⟩,
  ⟨0x10024, 4, 1, fun _ => .bootStatus⟩,
  ⟨0x10100, 4, 1, fun _ => .pwrMode⟩,
  ⟨0x10104, 4, 1, fun _ => .pwrStatus⟩,
  ⟨0x10108, 4, 1, fun _ => .pwrLastEntry⟩,
  ⟨0x1010c, 4, 1, fun _ => .pwrRefuseCount⟩,
  ⟨0x10110, 4, 1, fun _ => .pwrRefuser⟩,
  ⟨0x10114, 4, 1, fun _ => .pwrWakeEn⟩,
  ⟨0x10118, 4, 1, fun _ => .pwrWakePend⟩,
  ⟨0x1011c, 4, 1, fun _ => .pwrWakeClr⟩,
  ⟨0x10120, 4, 1, fun _ => .pwrTimer⟩,
  ⟨0x10124, 4, 1, fun _ => .pwrBankRet⟩,
  ⟨0x10128, 4, 1, fun _ => .pwrBankLost⟩,
  ⟨0x1012c, 4, 1, fun _ => .pwrSlept⟩,
  ⟨0x10130, 4, 1, fun _ => .pwrCfg⟩,
  ⟨0x10200, 4, 1, fun _ => .ebbCfg⟩,
  ⟨0x10204, 4, 1, fun _ => .ebbPulse⟩,
  ⟨0x10208, 4, 1, fun _ => .ebbStatus⟩,
  ⟨0x1020c, 4, 1, fun _ => .ebbCycles⟩,
  ⟨0x10220, 8, 8, .ebbWlo⟩,
  ⟨0x10224, 8, 8, .ebbWhi⟩]

/-- The registers of block 0x0002_0000 of the register address index. -/
def regRows2 : List RegRow := [
  ⟨0x20000, 4, 48, .apCfg⟩,
  ⟨0x20100, 4, 24, .apChsel⟩,
  ⟨0x20200, 64, 4, .excCtrl⟩,
  ⟨0x20204, 64, 4, .excLevel⟩,
  ⟨0x20208, 64, 4, .excChop⟩,
  ⟨0x2020c, 64, 4, .excStatus⟩,
  ⟨0x20400, 4, 8, .isrcCfg⟩,
  ⟨0x20420, 4, 4, .isrcPair⟩,
  ⟨0x20430, 4, 1, fun _ => .isrcStatus⟩]

/-- The registers of block 0x0003_0000 of the register address index. -/
def regRows3 : List RegRow := [
  ⟨0x30000, 4, 24, .afeCfg⟩,
  ⟨0x30100, 4, 4, .afeTia⟩,
  ⟨0x30200, 4, 1, fun _ => .afeCtrl⟩,
  ⟨0x30204, 4, 1, fun _ => .afeStatus⟩,
  ⟨0x30208, 4, 1, fun _ => .afeOvl⟩]

/-- The registers of block 0x0004_0000 of the register address index. -/
def regRows4 : List RegRow := [
  ⟨0x40000, 32, 4, .monExcCtrl⟩,
  ⟨0x40004, 32, 4, .monExcWin⟩,
  ⟨0x40008, 32, 4, .monExcLearn⟩,
  ⟨0x4000c, 32, 4, .monExcStatus⟩,
  ⟨0x40100, 4, 24, .monCm⟩,
  ⟨0x40180, 4, 24, .monCmv⟩,
  ⟨0x40200, 4, 1, fun _ => .monCtrl⟩,
  ⟨0x40204, 4, 1, fun _ => .monCmAct⟩,
  ⟨0x40208, 4, 1, fun _ => .monCmStky⟩,
  ⟨0x4020c, 4, 1, fun _ => .monIsrc⟩,
  ⟨0x40210, 4, 1, fun _ => .monTempCfg⟩,
  ⟨0x40214, 4, 1, fun _ => .monTempStatus⟩]

/-- The registers of block 0x0005_0000 of the register address index. -/
def regRows5 : List RegRow := [
  ⟨0x50000, 256, 24, .sluCic⟩,
  ⟨0x50004, 256, 24, .sluFir⟩,
  ⟨0x50008, 256, 24, .sluRank⟩,
  ⟨0x5000c, 256, 24, .sluIir⟩,
  ⟨0x50010, 256, 24, .sluRate⟩,
  ⟨0x50014, 256, 24, .sluSh⟩,
  ⟨0x50018, 256, 24, .sluBank⟩,
  ⟨0x5001c, 256, 24, .sluState⟩,
  ⟨0x50020, 256, 24, .sluDec⟩,
  ⟨0x50024, 256, 24, .sluWin⟩,
  ⟨0x50028, 256, 24, .sluSettle⟩,
  ⟨0x5002c, 256, 24, .sluGd⟩,
  ⟨0x50030, 256, 24, .sluGdnx⟩,
  ⟨0x50034, 256, 24, .sluEnbw⟩,
  ⟨0x51800, 4, 1, fun _ => .sluCoefAddr⟩,
  ⟨0x51804, 4, 1, fun _ => .sluCoefLo⟩,
  ⟨0x51808, 4, 1, fun _ => .sluCoefHi⟩,
  ⟨0x51810, 4, 8, .sluSgrp⟩,
  ⟨0x51830, 4, 1, fun _ => .sluSyncCtrl⟩,
  ⟨0x51834, 4, 1, fun _ => .sluEcc⟩]

/-- The registers of block 0x0006_0000 of the register address index, part 1. -/
def regRows6p0 : List RegRow := [
  ⟨0x60000, 32, 24, .sclCfg⟩,
  ⟨0x60004, 32, 24, .sclZeroLo⟩,
  ⟨0x60008, 32, 24, .sclZeroHi⟩,
  ⟨0x6000c, 32, 24, .sclSpanLo⟩,
  ⟨0x60010, 32, 24, .sclSpanHi⟩,
  ⟨0x60014, 32, 24, .sclAztLo⟩,
  ⟨0x60018, 32, 24, .sclAztHi⟩,
  ⟨0x60400, 4, 40, .linCfg⟩,
  ⟨0x60500, 4, 40, .linTbl⟩,
  ⟨0x60600, 32, 4, .linNtcALo⟩,
  ⟨0x60604, 32, 4, .linNtcAHi⟩,
  ⟨0x60608, 32, 4, .linNtcBLo⟩,
  ⟨0x6060c, 32, 4, .linNtcBHi⟩,
  ⟨0x60610, 32, 4, .linNtcCLo⟩,
  ⟨0x60614, 32, 4, .linNtcCHi⟩,
  ⟨0x60800, 4, 16, .dsCfg⟩,
  ⟨0x60880, 8, 16, .dsOfsLo⟩,
  ⟨0x60884, 8, 16, .dsOfsHi⟩,
  ⟨0x60900, 4, 1, fun _ => .dsSel⟩,
  ⟨0x60904, 4, 1, fun _ => .dsSlot⟩,
  ⟨0x60908, 4, 1, fun _ => .dsWt⟩,
  ⟨0x60980, 4, 16, .dsStat⟩,
  ⟨0x60a00, 8, 8, .dtCfg⟩,
  ⟨0x60a04, 8, 8, .dtCoef⟩,
  ⟨0x60a80, 4, 1, fun _ => .dtCtrl⟩,
  ⟨0x60c00, 4, 32, .statCfg⟩,
  ⟨0x60c80, 4, 32, .statPer⟩,
  ⟨0x60d00, 4, 1, fun _ => .statEna⟩,
  ⟨0x60d04, 4, 1, fun _ => .statLatch⟩,
  ⟨0x61000, 64, 32, .statCnt⟩,
  ⟨0x61004, 64, 32, .statNex⟩,
  ⟨0x61008, 64, 32, .statMinLo⟩,
  ⟨0x6100c, 64, 32, .statMinHi⟩,
  ⟨0x61010, 64, 32, .statMaxLo⟩,
  ⟨0x61014, 64, 32, .statMaxHi⟩,
  ⟨0x61018, 64, 32, .statMeanLo⟩,
  ⟨0x6101c, 64, 32, .statMeanHi⟩,
  ⟨0x61020, 64, 32, .statVarLo⟩,
  ⟨0x61024, 64, 32, .statVarHi⟩,
  ⟨0x61028, 64, 32, .statTlo⟩]

/-- The registers of block 0x0006_0000 of the register address index, part 2. -/
def regRows6p1 : List RegRow := [
  ⟨0x6102c, 64, 32, .statThi⟩,
  ⟨0x61030, 64, 32, .statSeq⟩]

/-- The registers of block 0x0006_0000. -/
def regRows6 : List RegRow := regRows6p0 ++ regRows6p1

/-- The registers of block 0x0007_0000 of the register address index. -/
def regRows7 : List RegRow := [
  ⟨0x70000, 64, 16, .meldCfg⟩,
  ⟨0x70004, 64, 16, .meldGate⟩,
  ⟨0x70008, 64, 16, .meldALo⟩,
  ⟨0x7000c, 64, 16, .meldAHi⟩,
  ⟨0x70010, 64, 16, .meldBLo⟩,
  ⟨0x70014, 64, 16, .meldBHi⟩,
  ⟨0x70018, 64, 16, .meldP0⟩,
  ⟨0x7001c, 64, 16, .meldP1⟩,
  ⟨0x70020, 64, 16, .meldP2⟩,
  ⟨0x70024, 64, 16, .meldP3⟩,
  ⟨0x70028, 64, 16, .meldStatus⟩,
  ⟨0x7002c, 64, 16, .meldResLo⟩,
  ⟨0x70030, 64, 16, .meldResHi⟩,
  ⟨0x70034, 64, 16, .meldRcnt⟩,
  ⟨0x70038, 64, 16, .meldRtLo⟩,
  ⟨0x7003c, 64, 16, .meldRtHi⟩,
  ⟨0x70400, 4, 1, fun _ => .meldCtrl⟩,
  ⟨0x70404, 4, 1, fun _ => .meldState⟩,
  ⟨0x70408, 4, 1, fun _ => .meldStky⟩]

/-- The registers of block 0x0008_0000 of the register address index. -/
def regRows8 : List RegRow := [
  ⟨0x80000, 4, 64, .routeCh⟩,
  ⟨0x80100, 4, 64, .routeStat⟩,
  ⟨0x80200, 4, 1, fun _ => .routeFire0⟩,
  ⟨0x80204, 4, 1, fun _ => .routeFire1⟩,
  ⟨0x80210, 4, 1, fun _ => .routeHand⟩,
  ⟨0x80214, 4, 1, fun _ => .routeGlevel⟩,
  ⟨0x80218, 4, 1, fun _ => .routeGset⟩,
  ⟨0x8021c, 4, 1, fun _ => .routeGclr⟩,
  ⟨0x80220, 4, 1, fun _ => .routeCtrl⟩,
  ⟨0x80228, 4, 1, fun _ => .routeBudg0⟩,
  ⟨0x8022c, 4, 1, fun _ => .routeBudg1⟩,
  ⟨0x80240, 4, 16, .routeGsrc⟩,
  ⟨0x80280, 4, 4, .routeCm⟩,
  ⟨0x80290, 4, 2, .routeSl⟩,
  ⟨0x80298, 4, 1, fun _ => .routeTdiv⟩,
  ⟨0x802a0, 4, 4, .routeQt⟩,
  ⟨0x802b0, 4, 4, .routeSet⟩,
  ⟨0x802c0, 4, 8, .routePin⟩,
  ⟨0x802e0, 4, 8, .routeEvt⟩,
  ⟨0x80300, 4, 4, .routeRem⟩,
  ⟨0x80400, 4, 144, .routeCstat⟩]

/-- The registers of block 0x0009_0000 of the register address index. -/
def regRows9 : List RegRow := [
  ⟨0x90000, 4, 128, .irqCfg⟩,
  ⟨0x90400, 4, 4, .irqPend 0⟩,
  ⟨0x90500, 4, 4, .irqPend 1⟩,
  ⟨0x90600, 4, 4, .irqPend 2⟩,
  ⟨0x90410, 4, 4, .irqMask 0⟩,
  ⟨0x90510, 4, 4, .irqMask 1⟩,
  ⟨0x90610, 4, 4, .irqMask 2⟩,
  ⟨0x90420, 4, 4, .irqInsv 0⟩,
  ⟨0x90520, 4, 4, .irqInsv 1⟩,
  ⟨0x90620, 4, 4, .irqInsv 2⟩,
  ⟨0x90430, 4, 4, .irqLost 0⟩,
  ⟨0x90530, 4, 4, .irqLost 1⟩,
  ⟨0x90630, 4, 4, .irqLost 2⟩,
  ⟨0x90440, 4, 4, .irqLostclr 0⟩,
  ⟨0x90540, 4, 4, .irqLostclr 1⟩,
  ⟨0x90640, 4, 4, .irqLostclr 2⟩,
  ⟨0x90450, 256, 3, .irqClaim⟩,
  ⟨0x90454, 256, 3, .irqEoi⟩,
  ⟨0x90458, 256, 3, .irqLevel⟩,
  ⟨0x9045c, 256, 3, .irqCtrl⟩,
  ⟨0x90700, 4, 1, fun _ => .irqSeqQmask⟩]

/-- The registers of block 0x000A_0000 of the register address index. -/
def regRowsA : List RegRow := [
  ⟨0xa0000, 64, 16, .weirCfg⟩,
  ⟨0xa0004, 64, 16, .weirArea⟩,
  ⟨0xa0008, 64, 16, .weirSrcLo⟩,
  ⟨0xa000c, 64, 16, .weirSrcHi⟩,
  ⟨0xa0010, 64, 16, .weirPkt⟩,
  ⟨0xa0014, 64, 16, .weirThr⟩,
  ⟨0xa0018, 64, 16, .weirCtrl⟩,
  ⟨0xa001c, 64, 16, .weirRel⟩,
  ⟨0xa0020, 64, 16, .weirStatus⟩,
  ⟨0xa0024, 64, 16, .weirW⟩,
  ⟨0xa0028, 64, 16, .weirC⟩,
  ⟨0xa002c, 64, 16, .weirR⟩,
  ⟨0xa0030, 64, 16, .weirM⟩,
  ⟨0xa0034, 64, 16, .weirF⟩,
  ⟨0xa0038, 64, 16, .weirDrop⟩,
  ⟨0xa003c, 64, 16, .weirLevel⟩,
  ⟨0xa0400, 16, 8, .moverStatus⟩,
  ⟨0xa0404, 16, 8, .moverFaddr⟩,
  ⟨0xa0480, 4, 1, fun _ => .moverCtrl⟩,
  ⟨0xa0800, 8, 16, .regionAddr⟩,
  ⟨0xa0804, 8, 16, .regionAttr⟩,
  ⟨0xa0900, 4, 1, fun _ => .regionBound⟩]

/-- The registers of block 0x000B_0000 of the register address index. -/
def regRowsB : List RegRow := [
  ⟨0xb0000, 256, 2, .hostCfg⟩,
  ⟨0xb0004, 256, 2, .hostAddr⟩,
  ⟨0xb0008, 256, 2, .hostStat⟩,
  ⟨0xb000c, 256, 2, .hostCtrl⟩,
  ⟨0xb0110, 4, 1, fun _ => .hostBBaud⟩,
  ⟨0xb0114, 4, 1, fun _ => .hostBUart⟩,
  ⟨0xb0200, 4, 1, fun _ => .hostPidLo⟩,
  ⟨0xb0204, 4, 1, fun _ => .hostPidHi⟩,
  ⟨0xb0400, 4, 1, fun _ => .semStatus⟩,
  ⟨0xb0404, 4, 1, fun _ => .semCfg⟩,
  ⟨0xb0408, 4, 1, fun _ => .devState⟩,
  ⟨0xb040c, 4, 1, fun _ => .cmdStateRejects⟩,
  ⟨0xb0410, 4, 2, .cmdErr⟩,
  ⟨0xb0418, 4, 1, fun _ => .cmdLink⟩,
  ⟨0xb041c, 4, 1, fun _ => .cmdCtrl⟩,
  ⟨0xb0420, 4, 1, fun _ => .cmdInflight⟩,
  ⟨0xb0800, 4, 1, fun _ => .sbusCfg⟩,
  ⟨0xb0804, 4, 1, fun _ => .sbusStatus⟩,
  ⟨0xb0808, 4, 1, fun _ => .sbusCtrl⟩,
  ⟨0xb0840, 16, 8, .sbusSpCfg⟩,
  ⟨0xb0844, 16, 8, .sbusSpWr⟩,
  ⟨0xb0848, 16, 8, .sbusSpXtr⟩,
  ⟨0xb084c, 16, 8, .sbusSpCnt⟩]

/-- The registers of block 0x000C_0000 of the register address index. -/
def regRowsC : List RegRow := [
  ⟨0xc0000, 4, 1, fun _ => .linkCfg⟩,
  ⟨0xc0004, 4, 1, fun _ => .linkStatus⟩,
  ⟨0xc0008, 4, 1, fun _ => .linkNode⟩,
  ⟨0xc000c, 4, 1, fun _ => .linkCtrl⟩,
  ⟨0xc0010, 16, 2, .linkPStat⟩,
  ⟨0xc0014, 16, 2, .linkPErr⟩,
  ⟨0xc0018, 16, 2, .linkPDly⟩,
  ⟨0xc0040, 4, 1, fun _ => .linkSynctx⟩,
  ⟨0xc0044, 4, 1, fun _ => .linkRxq⟩,
  ⟨0xc0100, 4, 1, fun _ => .timeOfsF⟩,
  ⟨0xc0104, 4, 1, fun _ => .timeOfsLo⟩,
  ⟨0xc0108, 4, 1, fun _ => .timeOfsHi⟩,
  ⟨0xc010c, 4, 1, fun _ => .timeRate⟩,
  ⟨0xc0110, 4, 1, fun _ => .timeJumpLimit⟩,
  ⟨0xc0114, 4, 1, fun _ => .timeNowLo⟩,
  ⟨0xc0118, 4, 1, fun _ => .timeNowHi⟩,
  ⟨0xc011c, 4, 1, fun _ => .timeFrcLo⟩,
  ⟨0xc0120, 4, 1, fun _ => .timeFrcHi⟩,
  ⟨0xc0124, 4, 1, fun _ => .timeLastStep⟩,
  ⟨0xc0128, 4, 1, fun _ => .timeSrvCfg⟩,
  ⟨0xc012c, 4, 1, fun _ => .timeSrvPri⟩,
  ⟨0xc0130, 4, 1, fun _ => .timeSrvStat⟩,
  ⟨0xc0134, 4, 1, fun _ => .timeErr⟩,
  ⟨0xc0138, 4, 1, fun _ => .timeRateI⟩,
  ⟨0xc013c, 4, 1, fun _ => .timeCnt⟩,
  ⟨0xc0140, 4, 1, fun _ => .timeCtrl⟩]

/-- The registers of block 0x000D_0000 of the register address index. -/
def regRowsD : List RegRow := [
  ⟨0xd0000, 4, 1, fun _ => .sealStatus⟩,
  ⟨0xd0004, 4, 1, fun _ => .sealMetro⟩,
  ⟨0xd0008, 4, 1, fun _ => .sealRef⟩,
  ⟨0xd000c, 4, 1, fun _ => .sealCrc⟩,
  ⟨0xd0010, 4, 1, fun _ => .sealCtrl⟩,
  ⟨0xd0020, 4, 1, fun _ => .auditStatus⟩,
  ⟨0xd0030, 4, 1, fun _ => .swidRom⟩,
  ⟨0xd0034, 4, 1, fun _ => .swidPatch⟩,
  ⟨0xd0038, 4, 1, fun _ => .swidCrc⟩,
  ⟨0xd003c, 4, 1, fun _ => .patchStatus⟩]

/-- The registers of block 0x000E_0000 of the register address index. -/
def regRowsE : List RegRow := [
  ⟨0xe0000, 4, 1, fun _ => .beoCtrl⟩,
  ⟨0xe0004, 4, 1, fun _ => .beoStatus⟩,
  ⟨0xe0010, 32, 2, .beoCfg⟩,
  ⟨0xe0014, 32, 2, .beoScale⟩,
  ⟨0xe0018, 32, 2, .beoOfsLo⟩,
  ⟨0xe001c, 32, 2, .beoOfsHi⟩,
  ⟨0xe0020, 32, 2, .beoHval⟩,
  ⟨0xe0024, 32, 2, .beoOut⟩,
  ⟨0xe0100, 4, 1, fun _ => .beoLoopCfg⟩,
  ⟨0xe0104, 4, 1, fun _ => .beoLoopWa⟩,
  ⟨0xe0108, 4, 1, fun _ => .beoLoopWb⟩,
  ⟨0xe010c, 4, 1, fun _ => .beoLoopSpLo⟩,
  ⟨0xe0110, 4, 1, fun _ => .beoLoopSpHi⟩,
  ⟨0xe0120, 4, 1, fun _ => .beoLoopIlimLo⟩,
  ⟨0xe0124, 4, 1, fun _ => .beoLoopIlimHi⟩,
  ⟨0xe0128, 4, 1, fun _ => .beoLoopUofsLo⟩,
  ⟨0xe012c, 4, 1, fun _ => .beoLoopUofsHi⟩,
  ⟨0xe0114, 4, 1, fun _ => .beoLoopKp⟩,
  ⟨0xe0118, 4, 1, fun _ => .beoLoopKi⟩,
  ⟨0xe011c, 4, 1, fun _ => .beoLoopKd⟩,
  ⟨0xe0130, 4, 1, fun _ => .beoLoopILo⟩,
  ⟨0xe0134, 4, 1, fun _ => .beoLoopIHi⟩,
  ⟨0xe0138, 4, 1, fun _ => .beoLoopStatus⟩,
  ⟨0xe013c, 4, 1, fun _ => .beoLoopIter⟩]

/-- The registers of block 0x000F_0000 of the register address index. -/
def regRowsF : List RegRow := [
  ⟨0xf0000, 4, 1, fun _ => .aoStatus⟩,
  ⟨0xf0004, 4, 1, fun _ => .aoBorCount⟩,
  ⟨0xf0008, 4, 1, fun _ => .aoWdtCount⟩,
  ⟨0xf0010, 4, 1, fun _ => .aoLfcountLo⟩,
  ⟨0xf0014, 4, 1, fun _ => .aoLfcountHi⟩,
  ⟨0xf0400, 4, 17, .aoCopyA⟩,
  ⟨0xf0600, 4, 17, .aoCopyB⟩]

/-- The rows of the block that an address lies in (its bits 19 to 16, R423). -/
def regRowsOf (a : Nat) : List RegRow :=
  match a / 0x10000 with
  | 0 => regRows0
  | 1 => regRows1
  | 2 => regRows2
  | 3 => regRows3
  | 4 => regRows4
  | 5 => regRows5
  | 6 => regRows6
  | 7 => regRows7
  | 8 => regRows8
  | 9 => regRows9
  | 10 => regRowsA
  | 11 => regRowsB
  | 12 => regRowsC
  | 13 => regRowsD
  | 14 => regRowsE
  | 15 => regRowsF
  | _ => []

/-- The register of a row that lies at an address, if one does. -/
def rowAt (row : RegRow) (a : Nat) : Option Reg :=
  if row.base ≤ a ∧ (a - row.base) % row.stride = 0 ∧ (a - row.base) / row.stride < row.count
  then some (row.reg ((a - row.base) / row.stride)) else none

/-- The register at an address; `none` where the address is unassigned (R423, R312). -/
def decodeAddr (a : Nat) : Option Reg :=
  (regRowsOf a).findSome? (rowAt · a)

/-- Every register of the hub, by rows (the index of R423). -/
def allRows : List RegRow :=
  regRows0 ++ regRows1 ++ regRows2 ++ regRows3 ++ regRows4 ++ regRows5 ++ regRows6 ++ regRows7 ++ regRows8 ++ regRows9 ++ regRowsA ++ regRowsB ++ regRowsC ++ regRowsD ++ regRowsE ++ regRowsF

/-- Every register of the hub, one entry per address. -/
def allRegs : List Reg :=
  allRows.flatMap fun row => (List.range row.count).map row.reg

end Sys2Proof.Machine
end

