-- ==== Sys2Proof/Machine/State.lean ====
section
/-! DEFINITION. The state of the hub as plain data: every register (by address), the memories, and the run-time state of every
block that the spec names; the reasons a command can stop; the state after power-on reset (R66 cause 0, R426). -/

namespace Sys2Proof.Machine

/-- No command of this model stops with a fault: the spec answers every command with a reply, an interrupt or nothing. -/
inductive Fault where
  /-- Raised by no meaning. Safe: it can only stop the machine where the hub goes on. -/
  | none
deriving DecidableEq, Repr

/-- Reasons to refuse a command. -/
inductive Refusal where
  /-- Raised by an arm of the dispatcher whose command has no meaning yet. Safe: the machine stops. -/
  | notModelled (mnemonic : String)
deriving DecidableEq, Repr

/-- Device states (R297). -/
inductive DevState where
  | boot | config | run | ebb | fault
deriving DecidableEq, Repr

/-- Chain states (R169). -/
inductive ChSt where
  | idle | settling | running | faulted
deriving DecidableEq, Repr

/-- Power states (R369). -/
inductive PwrState where
  | run | doze | ebb | hold | off
deriving DecidableEq, Repr

/-- A corrected time with its CLK flag and its epoch (R14, R75, R261). -/
structure Stamp where
  t : Nat := 0
  clk : Bool := false
  ep : Nat := 0
deriving DecidableEq, Repr

/-- A record (R9). -/
structure Rec where
  source : Nat := 0
  flags : BitVec 6 := 0
  value : W36 := 0
deriving DecidableEq, Repr

/-- A unit on its way to the queues (R257): its records, the source that produced it, the measurement time of its first record,
its epoch (in `tm`), its decimation in MCLK periods (R260). -/
structure RUnit where
  src : Nat := 0
  recs : List Rec := []
  tm : Stamp := {}
  stamped : Bool := false
  period : Nat := 0
deriving DecidableEq, Repr

/-- A reply waiting at a port (R286, R293); `q` of a QUEUE_READ reply: its queue, its words, the word delivered before it (R275). -/
structure Reply where
  src : Src
  tag : Nat
  node : Nat
  status : Status
  data : List Byte
  frees : Bool
  q : Option (Nat × Nat × W64) := none
  /-- FRC at which it joined its port's queue (R330). -/
  ready : Nat := 0
deriving DecidableEq, Repr

/-- A long command in progress (R295): what is left to do and to whom to reply. -/
inductive LongOp where
  | tableLoad (ofs : Nat) (words : List W64)
  | seal | unseal
  | patchActivate
  | linkEnum
  | clockSet
  | forward (node op : Nat) (due : Nat)
deriving DecidableEq, Repr

/-- The command interface: tags, replies, semaphore, long commands, held commands, pair slots (R292 to R310). -/
structure Proto where
  dev : DevState := .boot
  faultCause : Nat := 0
  /-- Factory test, whose behaviour the spec does not give (R49). -/
  factory : Bool := false
  tags : List (Nat × Src) := []
  replies : List Reply := []
  owner : Option Src := none
  lease : Nat := 0
  deadline : Nat := 0
  gen : Nat := 0
  expA : Bool := false
  expB : Bool := false
  longs : List (Hdr × LongOp) := []
  held : List (Hdr × HostCmd) := []
  staging : List (Src × Nat × W32) := []
  shadow : List (Src × Nat × W32) := []
  /-- Forwarded commands that timed out and whose reply may still come: node, tag, port (R290). -/
  late : List (Nat × Nat × Port) := []
  /-- The owner whose lease ended at a check, and its deadline: a command of it that came before passes still (R306). -/
  lapsed : Option (Src × Nat) := none
deriving DecidableEq, Repr

/-- Phases of a CLOCK_SET that is under way (R73): SYSCLK leaves the PLL, the oscillator or buffer starts, the reference qualifies,
the PLL locks, SYSCLK switches. -/
inductive ClkPhase where
  | leave | startXo | qualify | lock | switch
deriving DecidableEq, Repr

/-- A CLOCK_SET under way, or the one a restore runs (R73, R86). -/
structure ClkOp where
  hdr : Option Hdr
  pll : Bool
  ext : Bool
  ndiv : Nat
  msel : Nat
  phase : ClkPhase
  /-- FRC at which the wait for the reference, or for the lock, began. -/
  since : Nat := 0
deriving DecidableEq, Repr

/-- Items of the AO save list (R84). -/
structure AoItems where
  clk : Nat := 0
  ndiv : Nat := 12
  ofs : Int := 0
  rate : Int := 0
  node : Option Nat := none
  sealed : Bool := false
  owner : Option Src := none
  lease : Nat := 500
  refuseCount : Nat := 0
  refuser : Nat := 0
deriving DecidableEq, Repr

/-- One copy of the AO save area (R84, R85). -/
structure AoCopy where
  seq : Nat := 0
  items : AoItems := {}
  ts : Nat := 0
  ls : Nat := 0
deriving DecidableEq, Repr

/-- Clocks and counters (R67 to R76, R357) and the always-on domain (R84). -/
structure Clk where
  /-- FRC, 64 bits. -/
  frc : Nat := 0
  /-- Fractional accumulator of the HFRC advance of 1.024 per step, in 1/1000 (R69). -/
  frcAcc : Nat := 0
  /-- MCLK periods since reset, and TCLK steps within the present one. -/
  mclk : Nat := 0
  mclkPh : Nat := 0
  /-- AO_LFCOUNT and the accumulator that divides the step clock down to LFCLK. -/
  lf : Nat := 0
  lfAcc : Nat := 0
  op : Option ClkOp := none
  /-- REF and NDIV of the locked PLL. -/
  pll : Option (Bool × Nat) := none
  /-- External reference input buffer running. -/
  xin : Bool := false
  /-- Intervals of MCLK periods clocked from other than a locked PLL; the open one has no end (R75). -/
  offPll : List (Nat × Option Nat) := [(0, none)]
  /-- LF crystal being qualified, and AO_LFCOUNT at which that began (R68). -/
  lfQual : Bool := false
  lfQualAt : Nat := 0
  /-- BUCK_SW probe under way (R64). -/
  probe : Bool := false
  copyA : Option AoCopy := none
  copyB : Option AoCopy := none
  /-- FRC of the latest save, which takes 2 µs; AO_LFCOUNT of the latest periodic or start-up save (R85). -/
  savedAt : Option Nat := none
  saveLf : Nat := 0
deriving DecidableEq, Repr

/-- One value between stages, with the marks of R158 and R162. -/
structure Smp where
  v : Int := 0
  lim : Bool := false
  bad : Bool := false
deriving DecidableEq, Repr, Inhabited

/-- Past inputs and outputs of the IIR section; outputs with 70 fractional bits (R156). -/
structure Iir where
  x1 : Int := 0
  x2 : Int := 0
  y1 : Int := 0
  y2 : Int := 0
  /-- Samples since the last limited or damaged input. -/
  limAge : Option Nat := none
  badAge : Option Nat := none
deriving DecidableEq, Repr

/-- Filter histories of a chain, newest first, and the decimation phases (R152 to R157). -/
structure Filt where
  integ : List Int := []
  comb : List Int := []
  cicPh : Nat := 0
  recent : List Int := []
  mean : Int := 0
  hb1 : List Smp := []
  hb2 : List Smp := []
  fir : List Smp := []
  rank : List Smp := []
  iir : Iir := {}
  dec : List Smp := []
  /-- Last value the output decimator received (R34). -/
  lastDec : Smp := {}
deriving DecidableEq, Repr

/-- Run-time state of a chain (R169, R170, R316). -/
structure Chain where
  st : ChSt := .idle
  startPend : Bool := false
  stopPend : Bool := false
  /-- MCLK edge of the origin, and whether the chain has reached it (R125, R169). -/
  origin : Nat := 0
  live : Bool := false
  /-- First MCLK period after power-up whose modulator output is not discarded (R125). -/
  powered : Nat := 0
  /-- Latest reset, the start of effective windows (R167). -/
  resetAt : Nat := 0
  /-- Latest settle restart (R168) and whether it waits for VREF (R81). -/
  settleAt : Nat := 0
  vrefWait : Bool := false
  disAt : Option Nat := none
  /-- MCLK periods that the over-range comparator flagged, newest first; an interval without an end while it flags (R126, R127). -/
  ovrs : List (Nat × Option Nat) := []
  synNext : Bool := false
  sat : Bool := false
  ecc : Bool := false
  /-- Boundary of the last output (or the origin before the first). -/
  lastB : Nat := 0
  /-- A swap pending (R163): its earliest swap edge, one MCLK period after the accepted write, and the swap edge once it has come. -/
  swap : Bool := false
  swapFrom : Nat := 0
  swapAt : Option Nat := none
  /-- The next output is the first after a reset (R170). -/
  fresh : Bool := false
  /-- Over-range comparator now (R126). -/
  ovlNow : Bool := false
  /-- Staged SSH (R180). -/
  ssh : Option Nat := none
  filt : Filt := {}
deriving DecidableEq, Repr

/-- A finished stream record as later stages refer to it (R185, R186, R191). -/
structure Past where
  b : Nat
  val : Int
  flags : BitVec 6
  meas : Stamp
  /-- Measurement time in 1/16 TCLK periods (R186). -/
  measF : Int
  period : Nat := 0
  /-- Origin from which the boundary counts: sources share a boundary only with their origin (R185). -/
  org : Nat := 0
deriving DecidableEq, Repr

/-- Work of the engine on one output, and the tick's own overhead (R31); `wait`: a record that holds its lane until MV0 has a place
(R281). -/
inductive Stage where
  | hb1 | hb2 | fir | rank | iir | scl | ds | lin
  | det (x : Nat) | stat (ss : Nat) | loop | overhead | wait
deriving DecidableEq, Repr

/-- A stage that an output has still to pass: the inputs that wait for it, oldest first, and whether it starts from empty histories
(R31, R170). -/
structure Leg where
  st : Stage
  inp : List Smp := []
  fresh : Bool := false
deriving DecidableEq, Repr

/-- A work item that has been dispatched: its stage, its inputs, newest first (of a windowed stage the whole window); the lane on which it
runs, or none once it is done and waits for older items of its stage; its result; the MCLK edge from which its lane-cycles are not yet
charged, and those charged in earlier ticks (R31, R33). -/
structure Run where
  st : Stage
  win : List Smp := []
  lane : Option Nat := none
  out : Smp := {}
  since : Nat := 0
  spent : Nat := 0
deriving DecidableEq, Repr

/-- A record: its source, boundary and origin. -/
abbrev Ref := Nat × Nat × Nat

/-- One output in the engine: where it comes from, what is left to do, what runs, what has been computed. -/
structure Job where
  source : Nat
  tick : Nat
  /-- Boundary in MCLK periods. -/
  b : Nat
  meas : Stamp := {}
  measF : Int := 0
  flags : BitVec 6 := 0
  /-- Effective windows behind the record: chain, first period, boundary (R167). -/
  wins : List (Nat × Nat × Nat) := []
  prio : Bool := false
  bank : Nat := 0
  /-- Stages that are not finished, in data-path order. -/
  todo : List Leg
  /-- Items that have been dispatched, oldest first. -/
  runs : List Run := []
  val : Int := 0
  /-- A coefficient or table error touched this output (R21, R162). -/
  bad : Bool := false
  period : Nat := 0
  stampIt : Bool := false
  /-- A limited value went into the output (R158). -/
  lim : Bool := false
  /-- AZT for an output whose boundary lies before a zero-tracking correction (R213). -/
  azt : Option Int := none
  /-- The record has left the engine; only detector and statistics items remain. -/
  left : Bool := false
  /-- The value is computed; the value and the flags are final: the record is produced (R177, R178). -/
  ripe : Bool := false
  fin : Bool := false
  /-- Origin from which the boundary counts (R185). -/
  org : Nat := 0
  /-- Records whose flags go into this one while they are in the engine, each with the flags that pass (R178, R191, R198). -/
  refs : List (Ref × BitVec 6) := []
deriving DecidableEq, Repr

/-- The engine's accounting (R21, R26 to R35). -/
structure Eng where
  jobs : List Job := []
  used : Nat := 1024
  /-- Single-bit errors that SRAM reads have corrected (R21). -/
  corrected : Nat := 0
  tickAt : Nat := 0
  prevTickAt : Nat := 0
  prioMask : Nat := 0
  /-- New DIV waiting for the boundary (R24). -/
  divPend : Option Nat := none
  div : Nat := 6144
  /-- SYSCLK cycles per MCLK period at the lowest capacity of the tick (R74). -/
  capNow : Nat := 8
deriving DecidableEq, Repr

/-- A driver as it is in force (R98 to R105). -/
structure Driver where
  en : Bool := false
  on : Bool := false
  wire6 : Bool := false
  senseOnly : Bool := false
  ramp : Bool := false
  limit : Bool := false
  level : Nat := 2500
  hiccup : Bool := false
  /-- MCLK edge of the latest hiccup entry (R99). -/
  hicAt : Nat := 0
  hiccups : Nat := 0
  /-- HICCUP_MAX and RAMP in force (R99 to R101). -/
  hicMax : Nat := 0
  rampSel : Nat := 1
  /-- The ramp in progress: its start or latest re-aiming, the level there in mV, and its end (R101). -/
  rampAt : Nat := 0
  rampV : Rat := 0
  rampTil : Nat := 0
  lockout : Bool := false
  faultOff : Bool := false
  /-- Count of the overload timer, and the MCLK edge up to which the limit has been active (R98). -/
  overload : Nat := 0
  overAt : Option Nat := none
  restart : Bool := false
  chopEn : Bool := false
  half : Nat := 6144
  blank : Nat := 24
  chopOrg : Nat := 0
  pol : Bool := false
  /-- Chop history, newest first: from which MCLK edge, running, reversed, blanked periods (R105). -/
  chops : List (Nat × Bool × Bool × Nat) := []
  /-- MCLK edge of the latest level step, after which 64 periods are blanked (R133). -/
  stepAt : Option Nat := none
  /-- Learn: 0 none, 1 requested, 2 running, 3 running and failed (R134). -/
  learn : Nat := 0
  /-- MCLK edge at which the learn started. -/
  learnAt : Nat := 0
deriving DecidableEq, Repr

/-- A current source in force (R100, R109 to R111). -/
structure Source where
  en : Bool := false
  on : Bool := false
  port : Nat := 0
  code : Nat := 1
  restart : Bool := false
  swapped : Bool := false
  /-- SWAP_EN and GEN of its pair, in force (R100, R111). -/
  swapEn : Bool := false
  swapGen : Nat := 0
deriving DecidableEq, Repr

/-- The unit whose chains a fault affects (R141); a thermal fault without chains has none. -/
inductive FaultScope where
  | none | driver (x : Nat) | source (n : Nat) | chain (nn : Nat)
deriving DecidableEq, Repr

/-- A fault interval (R140 to R142): code, unit, first MCLK period, end, the driver that a switch-off stopped, the edge of the event
that it belongs to (VEXC_OK loss and TJ_FOLD have one interval for each driver), and the MCLK period in which its condition ended
while the clearing is not yet qualified. -/
structure FaultIv where
  code : Nat
  scope : FaultScope
  t0 : Nat
  t1 : Option Nat
  drv : Option Nat := none
  ev : Nat := 0
  gone : Option Nat := none
deriving DecidableEq, Repr

/-- Monitors and the die converter (R132 to R149). -/
structure Mon where
  faults : List FaultIv := []
  hot : Cells Nat := []
  /-- MON_CMVnn as last refreshed: number of the refresh, value (R138). -/
  cmv : Cells (Nat × Nat) := []
deriving DecidableEq, Repr

/-- A derived-stream slot (R183, R184). -/
structure DsSlot where
  en : Bool := false
  src : Nat := 0
  w : Int := 0
deriving DecidableEq, Repr

/-- A derived stream at run time (R185). -/
structure Ds where
  slots : Cells DsSlot := []
  /-- First boundary that may be served. -/
  since : Nat := 0
  /-- Boundaries under consideration: boundary, its origin, and the sources that produced an output. -/
  seen : List (Nat × Nat × List Nat) := []
deriving DecidableEq, Repr

/-- A measurement time: as stamp, and in 1/16 TCLK periods of FRC. -/
structure Moment where
  tm : Stamp := {}
  f : Int := 0
deriving DecidableEq, Repr

/-- A detector at run time (R195 to R198). -/
structure Det where
  n : Nat := 0
  lo : Int := 0
  hi : Int := 0
  sum : Int := 0
  env : Int := 0
  flags : BitVec 6 := 0
  /-- Flags of the latest 65,536 inputs, newest first, across resets, and the record while it is in the engine (R198). -/
  hist : List (BitVec 6 × Option Ref) := []
  first : Moment := {}
  tLo : Moment := {}
  tHi : Moment := {}
  tLast : Option Moment := none
  period : Nat := 0
  count : Nat := 0
  /-- Latch edges still waited for: MCLK period of each (R197). -/
  latches : List Nat := []
  /-- Resets whose latch edge has not come: the edge, and whether the routing consumer asked for it (R197, R236). -/
  pend : List (Nat × Bool) := []
  /-- Records among the inputs of the period or block that are still in the engine (R198). -/
  refs : List Ref := []
deriving DecidableEq, Repr

/-- One set of a statistics slot (R201). -/
structure StatSet where
  n : Nat := 0
  nex : Nat := 0
  ref : Int := 0
  sum : Int := 0
  sq : Int := 0
  min : Int := 0
  max : Int := 0
  trunc : Bool := false
deriving DecidableEq, Repr

/-- A latched set (R200, R201). -/
structure Latched where
  n : Nat := 0
  nex : Nat := 0
  trunc : Bool := false
  min : Int := 0
  max : Int := 0
  mean : Int := 0
  var : Int := 0
  time : Nat := 0
  seq : Nat := 0
deriving DecidableEq, Repr

/-- A period of a statistics slot that has ended (R200): its latch edge and that edge's corrected time, the edge at which its slot had
started, its SEQ, its set. -/
structure StatEnd where
  edge : Nat
  t : Nat
  start : Nat
  seq : Nat
  set : StatSet
deriving DecidableEq, Repr

/-- A statistics slot at run time (R199 to R203). -/
structure Stat where
  run : Bool := false
  startPend : Bool := false
  ticks : Nat := 0
  cur : StatSet := {}
  /-- Ended periods that are not readable yet, oldest first. -/
  ending : List StatEnd := []
  pub : Latched := {}
  seq : Nat := 0
  /-- Latches whose edge has not come: the edge, and whether the routing consumer asked for it (R200, R236). -/
  pend : List (Nat × Bool) := []
  /-- MCLK edge at which the slot started. -/
  start : Nat := 0
  /-- The latest latch edge: causes on one edge latch once. -/
  edge : Option Nat := none
deriving DecidableEq, Repr

/-- A record in a Meld unit's input buffer (R204, R223): value, flags, measurement time as stamp and in TCLK periods, boundary. -/
structure MIn where
  val : Int
  flags : BitVec 6
  tm : Stamp
  frc : Int
  b : Nat
deriving DecidableEq, Repr

/-- A decision context (R216): arm time in TCLK periods and as stamp, accumulated records, the reason once decided. -/
structure Ctx where
  ts : Int
  tm : Stamp
  n : Nat := 0
  sum : Int := 0
  flags : BitVec 6 := 0
  flagged : Bool := false
  few : Bool := false
  decided : Option Nat := none
  mean : Int := 0
  released : Bool := false
deriving DecidableEq, Repr

/-- A zero-tracking period (R213): boundaries, the time of its end, tick boundaries since, its records, what disqualifies it,
and the records whose stability is still to be looked up. -/
structure ZtPer where
  start : Nat
  til : Option Nat := none
  tE : Stamp := {}
  age : Nat := 0
  ticks : Nat := 0
  n : Nat := 0
  sum : Int := 0
  ok : Bool := true
  ask : List Nat := []
deriving DecidableEq, Repr

/-- A Meld unit at run time (R204 to R223). -/
structure Meld where
  state : Bool := false
  armed : Bool := false
  atLimit : Bool := false
  /-- Records of the run in progress, newest first. -/
  run : List MIn := []
  /-- Earlier qualifying values, newest first: the lag of a rate unit, the set of a stability unit. -/
  lag : List Int := []
  /-- States of a stability unit after its latest records, by boundary, newest first. -/
  hist : List (Nat × Bool) := []
  buf : List MIn := []
  /-- Arm events and counted OUT_A events that wait for the slot. -/
  arms : List (Int × Stamp) := []
  outs : List Stamp := []
  /-- Gate edges that wait for the slot, and the last 16 processed, newest first: time, level after the edge. -/
  gateIn : List (Int × Bool) := []
  edges : List (Int × Bool) := []
  gate : Bool := false
  ctxs : List Ctx := []
  count : Nat := 0
  /-- The passage of an axle unit: records, sum, flags, time of the last. -/
  axN : Nat := 0
  axSum : Int := 0
  axFlags : BitVec 6 := 0
  axT : Stamp := {}
  needOff : Bool := false
  /-- Periods of a zero-tracking unit, oldest first; corrections on their way: tick boundaries since E, amount. -/
  zt : List ZtPer := []
  corr : List (Nat × Int) := []
  res : Int := 0
  rcnt : Nat := 0
  rt : Nat := 0
  reason : Nat := 0
  rflg : BitVec 6 := 0
  staleS : Bool := false
  noctxS : Bool := false
  ovrS : Bool := false
  limitS : Bool := false
deriving DecidableEq, Repr

/-- The cycle in which an event reaches its channel (R229, R230): the present one; that of the latest MCLK edge; the one after the MCLK
edge whose FRC value is given. -/
inductive EvCycle where
  | now
  | edge
  | after (frc : Nat)
deriving DecidableEq, Repr

/-- An event that has reached a routing channel: the channel; its cycle; and, once that is judged, whether the Hand and the gate let it
pass, its BUDGET, and its time, all as they were at the start of the cycle (R230, R232, R234). -/
structure REvent where
  cc : Nat
  cycle : EvCycle := .now
  seen : Option (Bool × Nat × Stamp) := none
deriving DecidableEq, Repr

/-- Routing fabric at run time (R230 to R239). -/
structure Route where
  pend : List REvent := []
  /-- Frames that remote consumers have sent, oldest first, each with its consumer (R236). -/
  remotes : List (Nat × Frame) := []
  latch : BitVec 16 := 0
  gp : BitVec 8 := 0
  evtIn : BitVec 8 := 0
  evtOut : BitVec 8 := 0
  evtRun : BitVec 8 := 0
  /-- FRC before which the running pulse of a pin cannot end (R239). -/
  evtEnd : Cells Nat := []
  startBusy : BitVec 4 := 0
  stopBusy : BitVec 4 := 0
  tdCnt : Nat := 0
  /-- Channels suppressed in this tick already (R238). -/
  said : List Nat := []
  /-- What R230 asks of EC44 to EC46 at the start of the cycle of the latest MCLK edge: Hand and gate let pass, BUDGET (R229). -/
  edge : List (Bool × Nat) := []
  /-- Latch edge up to which the consumer "Stat latch" is busy (R236). -/
  statEdge : Nat := 0
deriving DecidableEq, Repr

/-- Interrupt controller at run time (R242 to R249, R254). -/
structure Irq where
  pend : BitVec 128 := 0
  mask : BitVec 128 := BitVec.allOnes 128
  insv : BitVec 128 := 0
  badEoi : BitVec 3 := 0
  lineA : Bool := false
  lineB : Bool := false
  claimedA : Bool := false
  claimedB : Bool := false
  /-- In-band interrupts requested: port, and the bytes that it carries (R254). -/
  ibis : List (Nat × List Byte) := []
  /-- FRC of the latest in-band interrupt of each port. -/
  ibiA : Nat := 0
  ibiB : Nat := 0
deriving DecidableEq, Repr

/-- An anchor within an open packet (R260): source, time, records of the source since, epoch. -/
structure Anchor where
  src : Nat
  t : Nat
  k : Nat
  ep : Nat
deriving DecidableEq, Repr

/-- The open packet of a queue (R259 to R262). -/
structure Pkt where
  slot : Nat
  count : Nat := 0
  part : List Byte := []
  ticks : Nat := 0
  ep : Nat := 0
  srcs : List Nat := []
  anchors : List Anchor := []
  /-- The first of its records that sets FAULT, and the first that sets ECC, counted from 0 (R259). -/
  fault : Option Nat := none
  ecc : Option Nat := none
  trunc : Bool := false
  flushed : Bool := false
  /-- A packet received over the link that its origin cut short (R351). -/
  aborted : Bool := false
deriving DecidableEq, Repr

/-- A queue at run time (R264 to R278). -/
structure Queue where
  w : Nat := 0
  c : Nat := 0
  r : Nat := 0
  m : Nat := 0
  f : Nat := 0
  seq : Nat := 0
  lastSeq : Nat := 0
  drop : Nat := 0
  pkt : Option Pkt := none
  /-- Closed packets not yet committed: end and SEQ. -/
  closed : List (Nat × Nat) := []
  /-- Ends of committed packets not yet released (R270). -/
  ends : List Nat := []
  markValid : Bool := false
  markOver : Bool := false
  dropS : Bool := false
  abortS : Bool := false
  underrun : Bool := false
  rhalt : Bool := false
  whalt : Bool := false
  truncNext : Bool := false
  flushNext : Bool := false
  flushPend : Bool := false
  /-- A close waits for the end of the unit in progress (R262); C advances over the packet as it closes (R265). -/
  closePend : Bool := false
  commitPend : Bool := false
  /-- A MODE 1 threshold event has fired at the latest tick boundary. -/
  fired : Bool := false
  thrHigh : Bool := false
  lastA : W64 := 0
  lastB : W64 := 0
deriving DecidableEq, Repr

/-- The window of a host port (R274): bound queue, staged words. -/
structure Window where
  q : Option Nat := none
  words : List W64 := []
deriving DecidableEq, Repr

/-- Queues' writer and readers (R274, R280). -/
structure Weir where
  /-- Units waiting at MV0, each with its queue. -/
  mv0 : List (Nat × RUnit) := []
  winA : Window := {}
  winB : Window := {}
deriving DecidableEq, Repr

/-- Corrected time (R357 to R363): OFFSET in 2^-16 ns, RATE in 2^-40, epoch number, and the RATE of each epoch. -/
structure Tim where
  ofs : Int := 0
  rate : Int := 0
  epoch : Nat := 0
  rates : Cells Int := []
  /-- Earlier epochs, oldest first: the FRC value at which each ended, its number, OFFSET and RATE (R261, R358). -/
  ended : List (Nat × Nat × Int × Int) := []
deriving DecidableEq, Repr

/-- The transfers of a host port (R319 to R321, R326): DROP, bytes in the receive buffer, the first byte of the latest transfer and
whether a reply was waiting at its start, the status byte that it showed, bytes of the first reply that have been read. -/
structure Bus where
  drop : Bool := false
  rx : Nat := 0
  /-- Bytes that came while the receive buffer was full (R319). -/
  overrun : Nat := 0
  first : Option Byte := none
  rdy : Bool := false
  shown : Option Byte := none
  pos : Nat := 0
deriving DecidableEq, Repr

/-- Host ports at run time (R318 to R330). -/
structure HostIf where
  strapA : Strap := .gnd
  strapB : Strap := .gnd
  busA : Bus := {}
  busB : Bus := {}
  mwlA : Nat := 4165
  mwlB : Nat := 4165
  mrlA : Nat := 65535
  mrlB : Nat := 65535
  /-- Receiver ignores bytes until the line has been idle (R329). -/
  resync : Bool := false
  /-- Bit rate that the UART uses; each written rate waits for the reply to its write: port, tag, rate (R328). -/
  rate : Nat := 115200
  ratePend : List (Port × Nat × Nat) := []
  /-- FRC of the last byte that came on HB_RX, and of the last stop bit of the latest reply on HB_TX (R330). -/
  rxAt : Nat := 0
  sentB : Option Nat := none
  /-- Data of the latest read CCC of each port (R327). -/
  ccc : List (Port × List Byte) := []
deriving DecidableEq, Repr

/-- A sensor-bus transaction (R333): the bus; the I2C address, or the chip select; the SPI mode; the bytes of its write phase in the order
in which they are sent; how many bytes its read phase takes. -/
structure Xfer where
  spi : Bool := false
  sel : Nat := 0
  mode : Nat := 0
  write : List Byte := []
  read : Nat := 0
deriving DecidableEq, Repr

/-- A sensor-bus entry at run time (R332 to R335). -/
structure Poll where
  due : Bool := false
  busy : Bool := false
  /-- At the latest tick boundary the transaction was unfinished; the entry had not begun. -/
  late : Bool := false
  skip : Bool := false
  good : W36 := 0
  /-- MCLK edge at which the transaction in progress began (R197). -/
  busyAt : Nat := 0
  /-- The latest transaction; whether its bus has stopped under it (R331, R333). -/
  xfer : Xfer := {}
  cut : Bool := false
deriving DecidableEq, Repr

/-- A port of the link (R338 to R346): credit counts, the FRC at its latest change of state and of rate, the highest rate that training
may still reach, the FRC since which the frame at its head lacks credits, the latest frame that left. -/
structure LinkPort where
  sent : Nat := 0
  freed : Nat := 0
  last : Nat := 0
  /-- Frames waiting: urgent, the port by which a forwarded one came, frame. -/
  tx : List (Bool × Option Nat × Frame) := []
  /-- Neighbour's address from HEL. -/
  far : Option Nat := none
  since : Nat := 0
  rateAt : Nat := 0
  cap : Nat := 2
  stuck : Option Nat := none
  out : Option Frame := none
deriving DecidableEq, Repr

/-- A packet being assembled from REC frames (R352): origin, queue, words. -/
structure RecAsm where
  origin : Nat
  queue : Nat
  words : List W64
deriving DecidableEq, Repr

/-- A packet sent whose ACK has not come (R353): queue, SEQ, end, and the FRC at which its END left. -/
structure SentPkt where
  q : Nat
  seq : Nat
  till : Nat
  at_ : Option Nat := none
deriving DecidableEq, Repr

/-- The link at run time (R338 to R355). -/
structure Link where
  up : LinkPort := {}
  dn : LinkPort := {}
  asm : List (Nat × Bool × Bool × List Byte) := []
  recs : List RecAsm := []
  /-- Last SEQ accepted by origin and queue (R352). -/
  acc : List (Nat × Nat × Nat) := []
  /-- Sent packets awaiting their ACK. -/
  unacked : List SentPkt := []
  /-- FRC at which the enumeration in progress began (R348). -/
  enumAt : Nat := 0
  lastQ : Nat := 15
  /-- Group syncs waiting for their corrected time: mask, T_s (R355). -/
  syns : List (Nat × Nat) := []
deriving DecidableEq, Repr

/-- The time servo at run time (R364 to R366): integrator, errors of the block, port that faces the master, the master's PRI and
node, FORCED with a new STEPSEQ, FRC of the latest accepted TIM or state entry, FORCED of the STEPSEQ in force, FRC of the latest TIM
that it sent as MASTER. -/
structure Servo where
  i : Int := 0
  es : List Int := []
  masterPort : Option Nat := none
  best : Option (Nat × Nat) := none
  forced : Bool := false
  since : Nat := 0
  flag : Bool := false
  sent : Option Nat := none
  /-- TIME_SRV_CFG and TIME_SRV_PRI that the block in progress goes by, where they have been written since it began. -/
  held : Option (W32 × W32) := none
deriving DecidableEq, Repr

/-- Power states and entries (R369 to R379): commands are held from the acceptance of a WAIT until its entry has ended (R296); the
source and tag of the ACCEPTED reply until it has left (R371); the target of the entry; AO_LFCOUNT at the commit and at the stop of TCLK;
the source of the wake in progress; the FRC at the acceptance of the WAIT. -/
structure Pwr where
  st : PwrState := .run
  entering : Bool := false
  waitReply : Option (Src × Nat) := none
  target : Nat := 0
  commitLf : Nat := 0
  lfAt : Nat := 0
  waking : Option Nat := none
  waitAt : Nat := 0
deriving DecidableEq, Repr

/-- Ebb mode (R381, R382): armed chains, AO_LFCOUNT at which the next cycle starts, a cycle in progress and the MCLK edge at which its
conversions started, drivers (bits 0 to 3) and sources (bits 4 to 11) that are pulsed, a wake that waits for the end of the cycle,
clearing records of faults for the packet of the cycle (R143, R146). -/
structure EbbS where
  mask : Nat := 0
  next : Nat := 0
  cycling : Bool := false
  convAt : Option Nat := none
  pulsed : Nat := 0
  wakeAfter : Option Nat := none
  notes : List RUnit := []
deriving DecidableEq, Repr

/-- Seal, audit and patch (R384 to R397). -/
structure SealS where
  sealed : Bool := false
  refValid : Bool := false
  prior : Bool := false
  jmpS : Bool := false
  mismatch : Bool := false
  jumper : Bool := true
  calcPend : Bool := false
  cntErr : Bool := false
  recBad : Bool := false
  active : Bool := false
  patchId : Nat := 0
  codeCrc : W32 := 0
  fail : Nat := 0
deriving DecidableEq, Repr

/-- An emulator output (R401 to R403): driven, CODE, event and flag hold, tick boundaries since the latest hold event, sticky bits;
the settings in force (R402); high impedance at the next tick boundary (R406); driven when a HOLD began (R375). -/
structure Beo where
  on : Bool := false
  code : Int := 0
  evHold : Bool := false
  fHold : Bool := false
  ticks : Nat := 0
  offFault : Bool := false
  holdS : Bool := false
  src : Nat := 0
  scale : Int := 0x10000000
  ofs : Int := 0
  hval : Int := 0
  offNext : Bool := false
  slept : Bool := false
deriving DecidableEq, Repr

/-- The balance loop (R405 to R407): state, integrator with 70 fractional bits, previous e and whether it is to be reloaded, sign of
the last saturation of u, clamp, iterations, clean iterations, event hold, and the scaled values that wait for their partner:
boundary, chain, value, flags. -/
structure Loop where
  st : Nat := 0
  i70 : Int := 0
  ePrev : Int := 0
  reload : Bool := false
  uSat : Int := 0
  clamp : Bool := false
  clampS : Bool := false
  iter : Nat := 0
  clean : Nat := 0
  evHold : Bool := false
  inp : List (Nat × Nat × Int × BitVec 6) := []
deriving DecidableEq, Repr

/-- The machine: every register by address, the memories, the blocks' run-time state, and the queue of waiting commands. -/
structure State where
  pending : List Instr := []
  regs : Cells W32 := []
  sram : List Host.Cell := []
  otp : List Host.Cell := []
  coef : Cells W36 := []
  proto : Proto := {}
  clk : Clk := {}
  eng : Eng := {}
  chains : Cells Chain := []
  past : Cells (List Past) := []
  drivers : Cells Driver := []
  sources : Cells Source := []
  mon : Mon := {}
  ds : Cells Ds := []
  dsStage : Option DsSlot := none
  dets : Cells Det := []
  stats : Cells Stat := []
  melds : Cells Meld := []
  route : Route := {}
  irq : Irq := {}
  queues : Cells Queue := []
  weir : Weir := {}
  /-- Syncs requested: the group, whether the routing consumer asked, the sync edge (R171). -/
  syncs : List (Nat × Bool × Nat) := []
  /-- MCLK edge of the latest sync of each group (R171). -/
  syncLast : Cells Nat := []
  syncPin : Bool := false
  /-- The MCLK period, and the TCLK period within it, in which the SYNC input falls after its latest rise (R172). -/
  syncFall : Nat × Nat := (0, 0)
  tim : Tim := {}
  /-- Per-port captured sets of R203, R226, R359: port, register address, value. -/
  caps : List (Src × Nat × W32) := []
  hostIf : HostIf := {}
  polls : Cells Poll := []
  sbusTicks : Nat := 0
  link : Link := {}
  servo : Servo := {}
  pwr : Pwr := {}
  ebb : EbbS := {}
  sl : SealS := {}
  beo0 : Beo := {}
  beo1 : Beo := {}
  loop : Loop := {}
  /-- The model's own counter: each draw of a free value reads and advances it. -/
  freeCtr : Nat := 0
deriving DecidableEq, Repr

/-- The machine right after power-on reset, before its boot has run (R66, R77, R426). -/
def State.reset : State := {}

end Sys2Proof.Machine
end

