-- ==== Sys2Proof/Machine/Ops.lean ====
section
/-! DEFINITION. Named operations over registers, run-time records, time, records, interrupts, the routing fabric and replies: what
every family of commands shares. -/

namespace Sys2Proof.Machine

/-- Bits `hi` down to `lo` of a number (R3). -/
def bits (v hi lo : Nat) : Nat := v / 2 ^ lo % 2 ^ (hi + 1 - lo)

/-- A 32-bit word whose bits `hi` to `lo` are 1. -/
def fieldMask (hi lo : Nat) : W32 := BitVec.ofNat 32 ((2 ^ (hi + 1 - lo) - 1) * 2 ^ lo)

/-- A word with bits `hi` to `lo` replaced by the low bits of `v`. -/
def putBits (old : W32) (hi lo v : Nat) : W32 :=
  (old &&& ~~~ fieldMask hi lo) ||| (BitVec.ofNat 32 (v * 2 ^ lo) &&& fieldMask hi lo)

/-- A register as stored. -/
def State.reg (s : State) (r : Reg) : W32 := cellGet s.regs r.addr r.reset
/-- Store a register. -/
def State.setReg (s : State) (r : Reg) (v : W32) : State := { s with regs := cellSet s.regs r.addr v }
/-- A field of a register. -/
def State.fld (s : State) (r : Reg) (hi lo : Nat) : Nat := bits (s.reg r).toNat hi lo
/-- Store a field of a register. -/
def State.setFld (s : State) (r : Reg) (hi lo v : Nat) : State := s.setReg r (putBits (s.reg r) hi lo v)
/-- One bit of a register. -/
def State.bit (s : State) (r : Reg) (i : Nat) : Bool := (s.reg r).getLsbD i
/-- Store one bit of a register. -/
def State.setBit (s : State) (r : Reg) (i : Nat) (b : Bool) : State := s.setFld r i i b.toNat
/-- Add to a counter field that saturates (R317). -/
def State.satAdd (s : State) (r : Reg) (hi lo k : Nat) : State :=
  s.setFld r hi lo (min (2 ^ (hi + 1 - lo) - 1) (s.fld r hi lo + k))

/-- A 36-bit quantity from the two registers of a pair (R8). -/
def pairVal (lo hi : W32) : Int := (BitVec.ofNat 36 (hi.toNat % 16 * 2 ^ 32 + lo.toNat)).toInt
/-- The quantity that a register pair holds. -/
def State.pair (s : State) (lo hi : Reg) : Int := pairVal (s.reg lo) (s.reg hi)
/-- Low word of a 36-bit quantity. -/
def loWord (v : Int) : W32 := BitVec.ofInt 32 v
/-- High word of a 36-bit quantity: bits [3:0] and the sign extension of bit 35 (R8). -/
def hiWord (v : Int) : W32 := BitVec.ofInt 32 (v / 2 ^ 32)
/-- Store a quantity in a register pair; the HI register keeps bits [35:32]. -/
def State.setPair (s : State) (lo hi : Reg) (v : Int) : State :=
  (s.setReg lo (loWord v)).setReg hi (hiWord v &&& 0xf)

/-- Limit to 36 bits and say whether limiting acted (R158). -/
def sat36 (v : Int) : Int × Bool :=
  if v > 2 ^ 35 - 1 then (2 ^ 35 - 1, true) else if v < -(2 ^ 35) then (-(2 ^ 35), true) else (v, false)

/-- Shift down with rounding: no rounding term when the shift is 0 (R158, R179). -/
def rshift (acc : Int) (sh : Nat) : Int := if sh = 0 then acc else (acc + 2 ^ (sh - 1)) / 2 ^ sh

/-- Quotient rounded to nearest, halves upwards (R152). -/
def divRound (a : Int) (d : Nat) : Int := (2 * a + d) / (2 * d)

/-- Quotient rounded to a whole number where the spec does not say which way (log entry 30). -/
def looseDiv (n : Int) (d : Nat) : Int := if n % d = 0 then n / d else n / d + (Sys2Proof.roundsUp n d).toNat

/-- Least multiple at or above: a ceiling quotient. -/
def ceilDiv (a d : Nat) : Nat := (a + d - 1) / d

/-- Run-time record of one chain (its initial record until something changes it). -/
def State.ch (s : State) (n : Nat) : Chain := cellGet s.chains n {}
/-- Replace the run-time record of one chain. -/
def State.setCh (s : State) (n : Nat) (x : Chain) : State := { s with chains := cellSet s.chains n x }
/-- Change the run-time record of one chain. -/
def State.modCh (s : State) (n : Nat) (g : Chain → Chain) : State := s.setCh n (g (s.ch n))

/-- Run-time record of one driver (its initial record until something changes it). -/
def State.drv (s : State) (n : Nat) : Driver := cellGet s.drivers n {}
/-- Replace the run-time record of one driver. -/
def State.setDrv (s : State) (n : Nat) (x : Driver) : State := { s with drivers := cellSet s.drivers n x }
/-- Change the run-time record of one driver. -/
def State.modDrv (s : State) (n : Nat) (g : Driver → Driver) : State := s.setDrv n (g (s.drv n))

/-- Run-time record of one source (its initial record until something changes it). -/
def State.isrc (s : State) (n : Nat) : Source := cellGet s.sources n {}
/-- Replace the run-time record of one source. -/
def State.setIsrc (s : State) (n : Nat) (x : Source) : State := { s with sources := cellSet s.sources n x }
/-- Change the run-time record of one source. -/
def State.modIsrc (s : State) (n : Nat) (g : Source → Source) : State := s.setIsrc n (g (s.isrc n))

/-- Run-time record of one ds (its initial record until something changes it). -/
def State.dsr (s : State) (n : Nat) : Ds := cellGet s.ds n {}
/-- Replace the run-time record of one ds. -/
def State.setDsr (s : State) (n : Nat) (x : Ds) : State := { s with ds := cellSet s.ds n x }
/-- Change the run-time record of one ds. -/
def State.modDsr (s : State) (n : Nat) (g : Ds → Ds) : State := s.setDsr n (g (s.dsr n))

/-- Run-time record of one det (its initial record until something changes it). -/
def State.det (s : State) (n : Nat) : Det := cellGet s.dets n {}
/-- Replace the run-time record of one det. -/
def State.setDet (s : State) (n : Nat) (x : Det) : State := { s with dets := cellSet s.dets n x }
/-- Change the run-time record of one det. -/
def State.modDet (s : State) (n : Nat) (g : Det → Det) : State := s.setDet n (g (s.det n))

/-- Run-time record of one stat (its initial record until something changes it). -/
def State.stat (s : State) (n : Nat) : Stat := cellGet s.stats n {}
/-- Replace the run-time record of one stat. -/
def State.setStat (s : State) (n : Nat) (x : Stat) : State := { s with stats := cellSet s.stats n x }
/-- Change the run-time record of one stat. -/
def State.modStat (s : State) (n : Nat) (g : Stat → Stat) : State := s.setStat n (g (s.stat n))

/-- Run-time record of one meld (its initial record until something changes it). -/
def State.meld (s : State) (n : Nat) : Meld := cellGet s.melds n {}
/-- Replace the run-time record of one meld. -/
def State.setMeld (s : State) (n : Nat) (x : Meld) : State := { s with melds := cellSet s.melds n x }
/-- Change the run-time record of one meld. -/
def State.modMeld (s : State) (n : Nat) (g : Meld → Meld) : State := s.setMeld n (g (s.meld n))

/-- Run-time record of one queue (its initial record until something changes it). -/
def State.queue (s : State) (n : Nat) : Queue := cellGet s.queues n {}
/-- Replace the run-time record of one queue. -/
def State.setQueue (s : State) (n : Nat) (x : Queue) : State := { s with queues := cellSet s.queues n x }
/-- Change the run-time record of one queue. -/
def State.modQueue (s : State) (n : Nat) (g : Queue → Queue) : State := s.setQueue n (g (s.queue n))

/-- Run-time record of one poll (its initial record until something changes it). -/
def State.poll (s : State) (n : Nat) : Poll := cellGet s.polls n {}
/-- Replace the run-time record of one poll. -/
def State.setPoll (s : State) (n : Nat) (x : Poll) : State := { s with polls := cellSet s.polls n x }
/-- Change the run-time record of one poll. -/
def State.modPoll (s : State) (n : Nat) (g : Poll → Poll) : State := s.setPoll n (g (s.poll n))

/-! ### Clocks and time -/

/-- SYSCLK comes from the locked PLL (R69). -/
def State.onPll (s : State) : Bool := s.bit .clkStatus 0
/-- MCLK_SEL in use (R69). -/
def State.mclkSel (s : State) : Nat := s.fld .clkCtrl 5 4
/-- TCLK periods per MCLK period (R166). -/
def State.tPerM (s : State) : Nat := 4 * 2 ^ s.mclkSel
/-- SYSCLK cycles per MCLK period: 32, 64, 128 or 256 on the PLL, 8, 16, 32 or 64 on HFRC (R69). -/
def State.sPerM (s : State) : Nat := (if s.onPll then 32 else 8) * 2 ^ s.mclkSel
/-- Engine capacity per tick in lane-cycles for a ratio of SYSCLK to MCLK (R27). -/
def capacityOf (ratio div : Nat) : Nat := 4 * ratio * div

/-- Corrected time of an FRC value, in ns: OFFSET + F × T0 × (1 + RATE × 2^−40) with T0 = 15,625 ÷ 384 ns, truncated and taken
modulo 2^64 (R357). OFFSET is in units of 2^−16 ns. -/
def corrected (ofs rate f : Int) : Nat :=
  ((ofs * (2 ^ 24 * 384) + f * 15625 * (2 ^ 40 + rate)) / (384 * 2 ^ 40) % 2 ^ 64).toNat
/-- Corrected time of an FRC value with the latest parameters, those of the TCLK periods from here on (R358). -/
def State.timeOf (s : State) (f : Int) : Nat := corrected s.tim.ofs s.tim.rate f
/-- Number, OFFSET and RATE of the epoch in force at an FRC capture (R261, R358). -/
def State.epochAt (s : State) (f : Int) : Nat × Int × Int :=
  ((s.tim.ended.find? fun e => decide (f < e.1)).map (·.2)).getD (s.tim.epoch, s.tim.ofs, s.tim.rate)
/-- The stamp of corrected time `f` that rests on the FRC capture `c` (R261, R358). -/
def State.stampAt (s : State) (c f : Int) (clk : Bool) : Stamp :=
  let e := s.epochAt c
  { t := corrected e.2.1 e.2.2 f, clk := clk, ep := e.1 }
/-- The stamp of the present TCLK period (R75, R261, R358). -/
def State.now (s : State) : Stamp := s.stampAt s.clk.frc s.clk.frc (!s.onPll)

/-- A half-open interval meets the window from `a` up to `b`. -/
def ivHit (iv : Nat × Option Nat) (a b : Nat) : Bool :=
  decide (iv.1 < b) && (match iv.2 with | none => true | some e => decide (a < e))

/-! ### Records, units and events -/

/-- The two records of a stamp pair (R13). -/
def stampPair (tm : Stamp) : List Rec :=
  [{ source := 63, flags := flagIf tm.clk flagCLK, value := BitVec.ofNat 36 (2 ^ 32 + tm.t / 2 ^ 32 % 2 ^ 32) },
   { source := 63, flags := flagIf tm.clk flagCLK, value := BitVec.ofNat 36 (2 * 2 ^ 32 + tm.t % 2 ^ 32) }]

/-- An event record with its stamp pair as one unit (R12, R75). -/
def eventUnit (code : Nat) (tm : Stamp) : RUnit :=
  { src := 62, recs := { source := 62, flags := flagIf tm.clk flagCLK, value := BitVec.ofNat 36 code } :: stampPair tm,
    tm := tm, stamped := true }

/-- Queue n is enabled (R278). -/
def State.qOn (s : State) (n : Nat) : Bool := s.bit (.weirCfg n) 31
/-- Queue n receives records of a source (R257). -/
def State.qTakes (s : State) (n src : Nat) : Bool :=
  if src < 32 then s.bit (.weirSrcLo n) src else s.bit (.weirSrcHi n) (src - 32)
/-- Every enabled queue. -/
def State.queuesAll (s : State) : List Nat := (List.range 16).filter s.qOn
/-- The enabled queues that receive records of any of the sources. -/
def State.queuesFor (s : State) (srcs : List Nat) : List Nat :=
  (List.range 16).filter fun n => s.qOn n && srcs.any (s.qTakes n)
/-- Hand a unit to MV0 for each of the queues, in the order of production (R257). -/
def State.emit (s : State) (u : RUnit) (qs : List Nat) : State :=
  { s with weir := { s.weir with mv0 := s.weir.mv0 ++ qs.map fun q => (q, u) } }
/-- Write an event record and its stamp pair to queues. -/
def State.event (s : State) (code : Nat) (tm : Stamp) (qs : List Nat) : State := s.emit (eventUnit code tm) qs

/-! ### Interrupts and the routing fabric -/

/-- Target of an interrupt source (R242). -/
def State.tgt (s : State) (n : Nat) : Nat := s.fld (.irqCfg n) 9 8
/-- Priority of an interrupt source (R242). -/
def State.prio (s : State) (n : Nat) : Nat := s.fld (.irqCfg n) 2 0
/-- A source fires: it becomes pending, or the event is lost to IRQ_LOST of its target (R244). -/
def State.irqFire (s : State) (n : Nat) : State :=
  if s.irq.pend.getLsbD n || s.irq.insv.getLsbD n then
    (if s.tgt n = 0 then s else s.setBit (.irqLost (s.tgt n - 1) (n / 32)) (n % 32) true)
  else { s with irq := { s.irq with pend := s.irq.pend ||| BitVec.ofNat 128 (2 ^ n) } }
/-- Priorities of the sources in service at a target: none where no source is (ACTIVE 0). -/
def State.level (s : State) (t : Nat) : Option Nat :=
  (List.range 128).foldl (fun m n =>
    if s.irq.insv.getLsbD n && s.tgt n == t + 1 then some (max (s.prio n) (m.getD 0)) else m) none
/-- A source is deliverable to a target (R247). -/
def State.deliverable (s : State) (t n : Nat) : Bool :=
  s.irq.pend.getLsbD n && !s.irq.mask.getLsbD n && !s.irq.insv.getLsbD n && s.tgt n == t + 1 &&
  (match s.level t with | none => true | some l => decide (l < s.prio n))
/-- The source that a claim takes: of the deliverable ones the highest priority, of those the lowest number (R248). -/
def State.peek (s : State) (t : Nat) : Option Nat :=
  ((List.range 128).filter (s.deliverable t)).foldl (fun b n =>
    match b with
    | none => some n
    | some k => if s.prio k < s.prio n then some n else b) none
/-- The line request of a target (R247). -/
def State.line (s : State) (t : Nat) : Bool := (s.peek t).isSome
/-- VIO_S is present; while it is absent the pads of its domain are isolated (R44, R241). -/
def State.vioS (s : State) : Bool := s.bit .supStatus 2
/-- The fabric's clock runs (R240). -/
def State.fabricOn (s : State) : Bool := decide (s.pwr.st = .run ∨ s.pwr.st = .doze)
/-- A producer event of a routing channel waits for its fabric cycle (R230); in EBB and HOLD it is lost (R240). -/
def State.produceAt (s : State) (cc : Nat) (cycle : EvCycle) : State :=
  if s.fabricOn then { s with route := { s.route with pend := s.route.pend ++ [{ cc := cc, cycle := cycle }] } } else s
/-- A producer event in the present cycle (R230). -/
def State.produce (s : State) (cc : Nat) : State := s.produceAt cc .now
/-- A milestone of a chain fires every milestone selector that names it; swap done and sync done (2 and 3) come in the cycle after their
edge (R229). -/
def State.milestone (s : State) (nn kind : Nat) : State :=
  (List.range 4).foldl (fun s k =>
    if s.fld (.routeCm k) 4 0 = nn ∧ s.fld (.routeCm k) 10 8 = kind then
      s.produceAt (40 + k) (if kind = 2 ∨ kind = 3 then .after s.clk.frc else .now)
    else s) s

/-! ### Device state, replies -/

/-- Device state code (R297). -/
def devCode : DevState → Nat
  | .boot => 0 | .config => 1 | .run => 2 | .ebb => 3 | .fault => 4
/-- Chain state code (R169). -/
def chCode : ChSt → Nat
  | .idle => 0 | .settling => 1 | .running => 2 | .faulted => 3
/-- Power state code (PWR_STATUS.STATE). -/
def pwrCode : PwrState → Nat
  | .run => 0 | .doze => 1 | .ebb => 2 | .hold => 3 | .off => 4
/-- Status codes (R303). -/
def statusCode : Status → Nat
  | .ok => 0x00 | .accepted => 0x01 | .badOpcode => 0x10 | .badLen => 0x11 | .badTag => 0x12 | .tagInUse => 0x13
  | .badNode => 0x14 | .badAddr => 0x15 | .badParam => 0x16 | .stateConflict => 0x20 | .notOwner => 0x21
  | .semHeld => 0x22 | .sealed => 0x23 | .budget => 0x24 | .markStale => 0x25 | .auditFull => 0x26
  | .clockFail => 0x30 | .memEcc => 0x31 | .regionFault => 0x32 | .authFail => 0x33 | .jumpRefused => 0x34
  | .linkTimeout => 0x40 | .linkDown => 0x41

/-- A refusal: status and reply data (R303). -/
abbrev Rej := Status × List Byte

/-- Little-endian bytes of a number (R287). -/
def leBytes : Nat → Nat → List Byte
  | 0, _ => []
  | k + 1, v => BitVec.ofNat 8 v :: leBytes k (v / 256)
/-- The number that little-endian bytes spell. -/
def ofLe : List Byte → Nat
  | [] => 0
  | b :: bs => b.toNat + 256 * ofLe bs

/-- STATE_CONFLICT with its three data bytes (R304). -/
def State.conflict (s : State) (obj st : Nat) : Rej :=
  (.stateConflict, [BitVec.ofNat 8 (devCode s.proto.dev), BitVec.ofNat 8 obj, BitVec.ofNat 8 st])

/-- Own node address; `none` while unassigned (LINK_NODE.ADDR). -/
def State.nodeAddr (s : State) : Option Nat :=
  if s.fld .linkNode 7 0 = 0xff then none else some (s.fld .linkNode 7 0)
/-- A link port is UP (R338). -/
def State.portUp (s : State) (p : Nat) : Bool := s.fld (.linkPStat p) 1 0 == 2

/-- CRC-16/CCITT-FALSE over bytes (R288). -/
def crc16 (bs : List Byte) : BitVec 16 :=
  bs.foldl (fun (c : BitVec 16) (b : Byte) =>
    (List.range 8).foldl (fun (c : BitVec 16) _ => if c.getLsbD 15 then (c <<< 1) ^^^ 0x1021 else c <<< 1)
      (c ^^^ (b.setWidth 16 <<< 8))) 0xffff
/-- CRC-32 of IEEE 802.3, continued from a running remainder. -/
def crc32Run (c : W32) (bs : List Byte) : W32 :=
  bs.foldl (fun (c : W32) (b : Byte) =>
    (List.range 8).foldl (fun (c : W32) _ => if c.getLsbD 0 then (c >>> 1) ^^^ 0xedb88320 else c >>> 1)
      (c ^^^ b.setWidth 32)) c
/-- CRC-32 of IEEE 802.3 (R85, R192, R388). -/
def crc32 (bs : List Byte) : W32 := ~~~ crc32Run (BitVec.allOnes 32) bs
/-- CRC-8 with polynomial 0x31 and initial value 0xFF (R333, R340). -/
def crc8 (bs : List Byte) : Byte :=
  bs.foldl (fun c b =>
    (List.range 8).foldl (fun (c : Byte) _ => if c.getLsbD 7 then (c <<< 1) ^^^ 0x31 else c <<< 1) (c ^^^ b)) 0xff

/-- Bytes of a reply (R286 to R288). -/
def replyBytes (r : Reply) : List Byte :=
  let body := (0x5a : Byte) :: leBytes 2 (3 + r.data.length) ++
    [BitVec.ofNat 8 r.node, BitVec.ofNat 8 r.tag, BitVec.ofNat 8 (statusCode r.status)] ++ r.data
  body ++ [BitVec.ofNat 8 ((crc16 body).toNat / 256), BitVec.ofNat 8 (crc16 body).toNat]

/-- Cut bytes into pieces of at most 206 (R341). -/
def fragments : Nat → List Byte → List (List Byte)
  | 0, _ => []
  | k + 1, bs => if bs.length ≤ 206 then [bs] else bs.take 206 :: fragments k (bs.drop 206)

/-- Port number (0 A, 1 B). -/
def portIx : Port → Nat
  | .a => 0 | .b => 1

/-- A frame waits at a link port: urgent, and the port by which it came, if it is forwarded (R343, R344). -/
def State.linkTx (s : State) (p : Nat) (urgent : Bool) (via : Option Nat) (f : Frame) : State :=
  if p = 0 then { s with link := { s.link with up := { s.link.up with tx := s.link.up.tx ++ [(urgent, via, f)] } } }
  else { s with link := { s.link with dn := { s.link.dn with tx := s.link.dn.tx ++ [(urgent, via, f)] } } }
/-- The port through which a frame for another node leaves: downstream above the own address, upstream below (R343). -/
def State.portTo (s : State) (dest : Nat) : Nat := if dest > s.nodeAddr.getD 0xff then 1 else 0
/-- Send a frame of this node towards its destination: downstream above the own address, upstream below, both ways for broadcast; a frame
that must leave through a port that is not UP is counted there (R343). -/
def State.linkSend (s : State) (urgent : Bool) (f : Frame) : State :=
  let out (s : State) (p : Nat) : State :=
    if s.portUp p then s.linkTx p urgent none f else s.satAdd (.linkPErr p) 7 0 1
  if f.dest = 0x7f then
    let s := if s.portUp 0 then s.linkTx 0 urgent none f else s
    if s.portUp 1 then s.linkTx 1 urgent none f else s
  else out s (s.portTo f.dest)

/-- Frames of type CMD or RPL that carry a packet or a reply in fragments (R341). -/
def cmdFrames (type dest src : Nat) (p : Port) (bs : List Byte) : List Frame :=
  let fs := fragments 21 bs
  fs.zipIdx.map fun (b, i) =>
    { type := type, dest := dest, src := src,
      payload := BitVec.ofNat 8 i :: BitVec.ofNat 8 ((if i + 1 = fs.length then 1 else 0) + 2 * portIx p) :: b }

/-- A reply joins its port's reply queue, or leaves over the link to the originating node (R290, R293, R294). An empty queue that
takes a reply fires source 64 or 65. -/
def State.reply (s : State) (r : Reply) : State :=
  match r.src with
  | .port p =>
    let empty := !(s.proto.replies.any fun x => decide (x.src = .port p))
    let s := { s with proto := { s.proto with replies := s.proto.replies ++ [{ r with ready := s.clk.frc }] } }
    if empty then s.irqFire (64 + portIx p) else s
  | .link node p =>
    (cmdFrames 0x02 node (s.nodeAddr.getD 0xff) p (replyBytes r)).foldl (fun s f => s.linkSend false f) s

/-- The reply to a command; each STATE_CONFLICT counts in CMD_STATE_REJECTS (R304). -/
def State.answer (s : State) (h : Hdr) (st : Status) (data : List Byte) (frees : Bool := true)
    (q : Option (Nat × Nat × W64) := none) : State :=
  let s := if st = .stateConflict then s.satAdd .cmdStateRejects 31 0 1 else s
  s.reply { src := h.src, tag := h.tag, node := s.nodeAddr.getD 0x40, status := st, data := data, frees := frees, q := q }

/-- Draw a free value: the next value of an unconstrained sequence; the model's counter advances. -/
def State.draw (s : State) (w : Nat) : State × BitVec w :=
  ({ s with freeCtr := s.freeCtr + 1 }, Sys2Proof.freeValue s.freeCtr w)

/-- Single-bit errors that reads of SRAM words corrected are counted (R21). -/
def State.sramFixed (s : State) (n : Nat) : State := { s with eng := { s.eng with corrected := s.eng.corrected + n } }

/-! ### Streams and chains that blocks share -/

/-- Chain nn counts as not IDLE for every rule that allows a write only while it is IDLE (R316). -/
def State.chBusy (s : State) (nn : Nat) : Bool := decide ((s.ch nn).st ≠ .idle) || (s.ch nn).startPend
/-- Some chain is not IDLE or start-pending. -/
def State.anyBusy (s : State) : Bool := (List.range 24).any s.chBusy
/-- Conflict of the lowest-numbered of some chains (R304). -/
def State.chConflict (s : State) (ns : List Nat) : Rej :=
  match ns with
  | [] => s.conflict 0xff 0
  | n :: _ => s.conflict n (chCode (s.ch n).st)
/-- Chain nn is marked metrological (R386). -/
def State.metro (s : State) (nn : Nat) : Bool := s.bit .sealMetro nn
/-- Stream s is metrological: a marked chain, or a derived stream with METRO (R386). -/
def State.metroStream (s : State) (n : Nat) : Bool :=
  if n < 24 then s.metro n else s.bit (.dsCfg (n - 24)) 30
/-- Driver that a chain's reference names (R113): `none` for VREF. -/
def State.refDriver (s : State) (nn : Nat) : Option Nat :=
  let r := s.fld (.afeCfg nn) 10 8
  if 1 ≤ r ∧ r ≤ 4 then some (r - 1) else none
/-- Driver that a chain's chop generator names, while CHOP is non-zero (R97, R105). -/
def State.genDriver (s : State) (nn : Nat) : Option Nat :=
  if s.fld (.apChsel nn) 19 18 = 0 then none else some (s.fld (.apChsel nn) 17 16)
/-- Chain nn belongs to the group of driver x (R97, R141). -/
def State.inGroup (s : State) (nn x : Nat) : Bool :=
  decide (s.refDriver nn = some x) || decide (s.genDriver nn = some x)
/-- Ports of a channel: INP and INN (R89). -/
def State.inp (s : State) (nn : Nat) : Nat := s.fld (.apChsel nn) 5 0
/-- INN of a channel (R89). -/
def State.inn (s : State) (nn : Nat) : Nat := s.fld (.apChsel nn) 13 8
/-- Mask of the chains that satisfy a test. -/
def chainMask (p : Nat → Bool) : Nat := (List.range 24).foldl (fun m n => if p n then m + 2 ^ n else m) 0
/-- Chains named by a mask, ascending. -/
def maskChains (m : Nat) : List Nat := (List.range 24).filter fun n => decide (m / 2 ^ n % 2 = 1)

/-- Settle restart of a chain at an MCLK edge (R168): its state falls back to SETTLING when it was RUNNING (R169). -/
def State.restartAt (s : State) (nn e : Nat) : State :=
  if (s.ch nn).st = .idle then s
  else s.modCh nn fun c =>
    { c with settleAt := max c.settleAt e, st := if c.st = .running then .settling else c.st }
/-- Settle restart of a chain at the present MCLK edge. -/
def State.restartSettle (s : State) (nn : Nat) : State := s.restartAt nn s.clk.mclk
/-- An excitation change or chop transition at the present MCLK edge: DIS and a settle restart for each chain (R102, R168). -/
def State.disturb (s : State) (ns : List Nat) : State :=
  ns.foldl (fun s n =>
    if (s.ch n).st = .idle then s
    else (s.modCh n fun c => { c with disAt := some s.clk.mclk }).restartSettle n) s
/-- Undecided contexts of the decision units of a source note that it entered FAULTED or IDLE (R216). -/
def State.markCtx (s : State) (src : Nat) (faulted : Bool) : State :=
  (List.range 16).foldl (fun s u =>
    if s.bit (.meldCfg u) 31 ∧ s.fld (.meldCfg u) 11 8 = 7 ∧ s.fld (.meldCfg u) 5 0 = src then
      s.modMeld u fun m =>
        { m with ctxs := m.ctxs.map fun c =>
            if c.decided.isSome then c else if faulted then { c with flagged := true } else { c with few := true } }
    else s) s
/-- A chain enters FAULTED (R169) and the milestone fires. -/
def State.chFault (s : State) (nn : Nat) : State :=
  if (s.ch nn).st = .settling ∨ (s.ch nn).st = .running then
    ((s.modCh nn fun c => { c with st := .faulted }).milestone nn 4).markCtx nn true
  else s

/-! ### Memory errors -/

/-- A coefficient read that corrected a single-bit error shows in SLU_ECC.CORR (R162). -/
def State.coefFixed (s : State) (b : Bool) : State := if b then s.setBit .sluEcc 0 true else s
/-- An uncorrectable coefficient read for chain n; the event and the interrupt source tell it once until the chain returns to IDLE
(R162). -/
def State.coefError (s : State) (n bank i : Nat) : State :=
  let told := (s.ch n).ecc
  let s := (s.setBit .sluEcc 1 true).setFld .sluEcc 28 16 (bank * 4096 + i)
  let s := (s.modCh n fun c => { c with ecc := s.chBusy n }).chFault n
  if told then s else (s.event (0x1540 + n) s.now (s.queuesFor [n])).irqFire 2
/-- What the checks and recomputations of a command met in memory (R21, R162; what they computed from a damaged coefficient is its stored
word, log entry 154). -/
def State.memErr (s : State) (e : MemErr) : State :=
  e.bad.foldl (fun s x => if x.1 < 24 then s.coefError x.1 x.2.1 x.2.2 else s) ((s.coefFixed e.coef).sramFixed e.sram)
/-- The memory errors of word `k` of a command. -/
def hdrErr (h : Hdr) (k : Nat) : MemErr := (h.errs.find? fun e => e.1 == k).elim {} (·.2)

end Sys2Proof.Machine
end

