-- ==== Sys2Proof/Machine/Protocol.lean ====
section
/-! DEFINITION. The command interface: the order of checks on a packet (R300), tags (R292, R293), nodes (R290, R291), device
states (R297 to R299), long commands (R295), the hold after WAIT (R296), the semaphore (R302, R305 to R308) and replies. -/

namespace Sys2Proof.Machine

/-- TCLK periods of one millisecond (R307). -/
def msT : Nat := 24576

/-! ### Opcodes -/

/-- Opcode of a command (R314). -/
def opcodeOf : HostCmd → Nat
  | .nop => 0x00 | .devStatus => 0x01 | .swidRead => 0x02 | .semTake _ => 0x08 | .semGive => 0x09 | .semStatus => 0x0a
  | .regRead _ => 0x10 | .regWrite _ _ => 0x11 | .regReadBlock _ _ _ => 0x12 | .regWriteBlock _ _ _ _ => 0x13
  | .tableLoad _ _ => 0x18 | .chanStart _ => 0x20 | .chanStop _ => 0x21 | .chanSync _ => 0x22 | .queueRead _ _ _ _ => 0x28
  | .clockSet _ _ _ _ => 0x30 | .wait => 0x38 | .ebbArm _ => 0x39 | .ebbDisarm => 0x3a | .timeRead => 0x40
  | .timeSet _ _ _ => 0x41 | .timeAdjust _ _ _ _ => 0x42 | .linkEnum => 0x48 | .seal => 0x50 | .unseal => 0x51
  | .patchLoad _ _ => 0x58 | .patchActivate => 0x59

/-- Parameter bytes of a command (R287, R314). -/
def paramsOf : HostCmd → List Byte
  | .semTake l => leBytes 2 l
  | .regRead a => leBytes 4 a
  | .regWrite a v => leBytes 4 a ++ leBytes 4 v.toNat
  | .regReadBlock a n s => leBytes 4 a ++ leBytes 2 n ++ leBytes 1 s
  | .regWriteBlock a n s vs => leBytes 4 a ++ leBytes 2 n ++ leBytes 1 s ++ vs.flatMap fun v => leBytes 4 v.toNat
  | .tableLoad o ws => leBytes 4 o ++ leBytes 2 ws.length ++ ws.flatMap fun w => leBytes 8 w.toNat
  | .chanStart m => leBytes 3 m
  | .chanStop m => leBytes 3 m
  | .chanSync m => leBytes 1 m
  | .queueRead q n _ _ => leBytes 1 q ++ leBytes 2 n
  | .clockSet a b c d => [BitVec.ofNat 8 a, BitVec.ofNat 8 b, BitVec.ofNat 8 c, BitVec.ofNat 8 d]
  | .ebbArm p => leBytes 3 p.mask
  | .timeSet t f force => leBytes 8 t ++ leBytes 2 f ++ [if force then 1 else 0]
  | .timeAdjust st f r sel =>
    leBytes 8 (BitVec.ofInt 64 st).toNat ++ leBytes 2 f ++ leBytes 4 (BitVec.ofInt 32 r).toNat ++ leBytes 1 sel
  | .patchLoad o bs => leBytes 4 o ++ bs
  | .nop | .devStatus | .swidRead | .semGive | .semStatus | .wait | .ebbDisarm | .timeRead | .linkEnum | .seal | .unseal
  | .patchActivate => []

/-- Bytes of a packet (R286 to R288). -/
def packetBytes (h : Hdr) (c : HostCmd) : List Byte :=
  let body := (0xa5 : Byte) :: leBytes 2 (3 + (paramsOf c).length) ++
    [BitVec.ofNat 8 h.node, BitVec.ofNat 8 h.tag, BitVec.ofNat 8 (opcodeOf c)] ++ paramsOf c
  body ++ [BitVec.ofNat 8 ((crc16 body).toNat / 256), BitVec.ofNat 8 (crc16 body).toNat]

/-- A register of the IRQ block (R298, R299). -/
def inIrqBlock (a : Nat) : Bool := decide (0x90000 ≤ a ∧ a < 0xa0000)
/-- An address of the SRAM window (R19, R313). -/
def inSramWindow (a : Nat) : Bool := decide (0x10000000 ≤ a ∧ a < 0x10400000)

/-- Address of word k of a block command (R312). -/
def blockAddr (a s k : Nat) : Nat := a + 4 * (if s = 0 then k else k % s)

/-- Addresses that a command writes as registers or window words. -/
def writtenAddrs : HostCmd → List Nat
  | .regWrite a _ => [a]
  | .regWriteBlock a n s _ => (List.range n).map (blockAddr a s)
  | _ => []

/-! ### Semaphore -/

/-- Owner code of SEM_STATUS (R317). -/
def ownerCode : Option Src → Nat
  | none => 0
  | some (.port .a) => 1
  | some (.port .b) => 2
  | some (.link _ _) => 3

/-- SEM_STATUS as it reads (register table of SEM_STATUS). -/
def State.semStatusWord (s : State) : W32 :=
  let who := match s.proto.owner with
    | some (.link n p) => (if p = .b then 0x200 else 0) + n % 64
    | _ => 0
  BitVec.ofNat 32 (s.proto.gen % 65536 * 65536 + s.proto.expB.toNat * 0x8000 + s.proto.expA.toNat * 0x4000
    + ownerCode s.proto.owner * 0x400 + who)

/-- Lease left in ms; 0 while free or past the deadline (SEM_CFG.LEFT; the rounding is free, log entry 30). -/
def State.leaseLeft (s : State) : Nat :=
  if s.proto.owner.isSome then (looseDiv (s.proto.deadline - s.clk.frc : Nat) msT).toNat else 0

/-- Ownership ends: the former owner's staging slot is emptied (R308). -/
def State.freeSem (s : State) : State :=
  { s with proto := { s.proto with owner := none
                                   staging := s.proto.staging.filter fun x => some x.1 ≠ s.proto.owner } }

/-- Ownership ends with the effects of R307: EXP bit and interrupt for a local owner. Commands of the former owner that came before the
deadline, and before this end, and have not run pass the check still (R306, R308). -/
def State.expireSem (s : State) : State :=
  let s := { s with proto := { s.proto with lapsed := s.proto.owner.map fun o => (o, min s.proto.deadline s.clk.frc) } }
  match s.proto.owner with
  | some (.port .a) => ({ s.freeSem with proto := { s.freeSem.proto with expA := true } }).irqFire 66
  | some (.port .b) => ({ s.freeSem with proto := { s.freeSem.proto with expB := true } }).irqFire 67
  | _ => s.freeSem

/-- A packet from the owner renews the lease, unless it came at or after the deadline (R306; log entry 20). -/
def State.renew (s : State) (h : Hdr) : State :=
  if s.proto.owner = some h.src ∧ h.rx < s.proto.deadline then
    { s with proto := { s.proto with deadline := h.rx + s.proto.lease * msT } }
  else s

/-- Whether a write to an address needs no semaphore from a source (R246, R273, R302). -/
def State.freeWrite (s : State) (src : Src) (a : Nat) : Bool :=
  match src, decodeAddr a with
  | .port p, some r =>
    match r with
    | .irqPend t _ | .irqMask t _ | .irqLostclr t _ | .irqEoi t | .irqCtrl t => t == portIx p
    | .weirCtrl n | .weirRel n => s.fld (.weirCfg n) 30 29 == 1 + portIx p
    | _ => false
  | _, _ => false

/-- Whether a command needs the semaphore (R302, R314). SEM_TAKE is checked apart. -/
def State.needsSem (s : State) (src : Src) : HostCmd → Bool
  | .nop | .devStatus | .swidRead | .semTake _ | .semStatus | .regRead _ | .regReadBlock _ _ _ | .timeRead => false
  | .regWrite a _ => !s.freeWrite src a
  | .regWriteBlock a n sp _ => !((List.range n).all fun k => s.freeWrite src (blockAddr a sp k))
  | .queueRead q _ _ _ =>
    match src with
    | .port p => !(s.fld (.weirCfg q) 30 29 == 1 + portIx p)
    | _ => true
  | _ => true

/-! ### Legality and long commands -/

/-- Addresses writable in EBB_ACTIVE (R299). -/
def State.ebbWritable (s : State) (src : Src) (a : Nat) : Bool :=
  inIrqBlock a ||
  match decodeAddr a with
  | some .pwrMode | some .semCfg => true
  | some (.weirCtrl n) | some (.weirRel n) =>
    (match src with | .port p => s.fld (.weirCfg n) 30 29 == 1 + portIx p | _ => false)
  | _ => false

/-- Whether a command is legal in the device state (R298, R299, R314). -/
def State.legal (s : State) (src : Src) (c : HostCmd) : Bool :=
  match s.proto.dev with
  | .boot => false
  | .config => match c with | .ebbDisarm => false | _ => true
  | .run => match c with | .ebbArm _ | .ebbDisarm | .patchLoad _ _ | .patchActivate => false | _ => true
  | .ebb =>
    match c with
    | .nop | .devStatus | .swidRead | .semTake _ | .semGive | .semStatus | .regRead _ | .regReadBlock _ _ _ | .queueRead _ _ _ _
    | .wait | .ebbDisarm | .timeRead => true
    | .regWrite _ _ | .regWriteBlock _ _ _ _ => (writtenAddrs c).all (s.ebbWritable src)
    | _ => false
  | .fault =>
    match c with
    | .nop | .devStatus | .swidRead | .semTake _ | .semGive | .semStatus | .regRead _ | .regReadBlock _ _ _ | .timeRead => true
    | .regWrite _ _ | .regWriteBlock _ _ _ _ => (writtenAddrs c).all inIrqBlock
    | _ => false

/-- Opcode of a long command in progress (R304). -/
def longCode : LongOp → Nat
  | .tableLoad _ _ => 0x18 | .clockSet => 0x30 | .linkEnum => 0x48 | .seal => 0x50 | .unseal => 0x51
  | .patchActivate => 0x59 | .forward _ op _ => op

/-- Whether a long command in progress refuses a command (R295). -/
def State.blockedBy (s : State) (src : Src) (c : HostCmd) (op : LongOp) : Bool :=
  match op with
  | .clockSet => (match c with | .clockSet _ _ _ _ | .chanStart _ | .wait | .ebbArm _ => true | _ => false)
  | .tableLoad _ _ =>
    (match c with
     | .tableLoad _ _ => true
     | .regWrite _ _ | .regWriteBlock _ _ _ _ => (writtenAddrs c).any inSramWindow
     | _ => false)
  | .seal | .unseal | .patchActivate => (match c with | .semTake _ => false | _ => s.needsSem src c)
  | .linkEnum => (match c with | .linkEnum => true | _ => false)
  | .forward _ _ _ => false

/-- A LINK_ENUM is in progress (R295). -/
def State.enumRuns (s : State) : Bool := s.proto.longs.any fun x => decide (x.2 = .linkEnum)

/-! ### Wake latches -/

/-- Wake source 0x10 + i acts in a power state (R376). -/
def wakeActs (st : PwrState) (i : Nat) : Bool :=
  match st with
  | .doze => decide (i = 0 ∨ i = 2 ∨ i = 3 ∨ i = 4 ∨ i = 5 ∨ i = 8)
  | .ebb => decide (i ≤ 4 ∨ i = 6 ∨ i = 7 ∨ i = 8)
  | .hold => decide (i ≤ 5 ∨ i = 8)
  | .run | .off => false
/-- The pads of wake source 0x10 + i are not isolated: port B needs VIO_B (R44). -/
def State.wakePad (s : State) (i : Nat) : Bool := i != 3 || s.bit .supStatus 1
/-- Wake source 0x10 + i can wake the hub now: it acts in the power state, and it is enabled, or it is a host port in DOZE. -/
def State.wakeable (s : State) (i : Nat) : Bool :=
  wakeActs s.pwr.st i && s.wakePad i && (s.bit .pwrWakeEn i || (decide (s.pwr.st = .doze) && decide (i = 2 ∨ i = 3)))
/-- A wake source fires: latched where it can wake the hub (R374). -/
def State.wakeLatch (s : State) (i : Nat) : State := if s.wakeable i then s.setBit .pwrWakePend i true else s

/-! ### Host ports -/

/-- Port x is strapped for I3C (R46). -/
def State.onI3c (s : State) (p : Port) : Bool :=
  match p with
  | .a => decide (s.hostIf.strapA = .high)
  | .b => decide (s.hostIf.strapB = .high)
/-- Port B is strapped for UART (R46). -/
def State.uartB (s : State) : Bool := decide (s.hostIf.strapB = .gnd)
/-- The first reply waiting at a port. -/
def State.firstReply (s : State) (p : Port) : Option Reply := s.proto.replies.find? fun r => decide (r.src = .port p)
/-- TCLK periods of `n` bit times of the UART (R328). -/
def State.uartBits (s : State) (n : Nat) : Nat := ceilDiv (n * 24576000) s.hostIf.rate
/-- Port B drives a half-duplex transceiver (R330). -/
def State.half (s : State) : Bool := s.uartB && s.bit .hostBUart 0
/-- FRC at which HB_DE rises for a reply: it is ready, the reply before it has gone, and HB_RX has been idle for TURN bit times
(R330; DESIGN CHOICE, log entry 174). -/
def State.deAt (s : State) (r : Reply) : Nat :=
  max (max r.ready (s.hostIf.sentB.getD 0)) (s.hostIf.rxAt + s.uartBits (s.fld .hostBUart 31 24))
/-- FRC at which the start bit of a reply leaves port B: at once in full duplex, DE_LEAD bit times after HB_DE in half duplex (R330). -/
def State.txAt (s : State) (r : Reply) : Nat := if s.half then s.deAt r + s.uartBits (s.fld .hostBUart 19 16) else r.ready
/-- HB_DE is high: from DE_LEAD bit times before a reply's start bit to DE_LAG bit times after its last stop bit (R330). -/
def State.deHigh (s : State) : Bool :=
  s.half && ((s.firstReply .b).any (fun r => decide (s.deAt r ≤ s.clk.frc)) ||
    s.hostIf.sentB.any fun t => decide (s.clk.frc < t + s.uartBits (s.fld .hostBUart 23 20)))
/-- A host port takes packets: port B while VIO_B is present (R44, R318), an I3C port once it has its dynamic address (R327), the
UART receiver while it does not wait for an idle line (R329) and HB_DE is low (R330). -/
def State.portOpen (s : State) (p : Port) : Bool :=
  (p == .a || s.bit .supStatus 1) && !(s.onI3c p && s.fld (.hostAddr (portIx p)) 14 8 == 0) &&
    !(p == .b && s.uartB && (s.hostIf.resync || s.deHigh))
/-- Wake source of a command's origin (R376). -/
def wakeOf : Src → Nat
  | .port .a => 2
  | .port .b => 3
  | .link _ _ => 4
/-- The host ports run: not in EBB, HOLD and OFF (R377), nor in factory test (R49). -/
def State.portsOn (s : State) : Bool := s.fabricOn && !s.proto.factory
/-- A host port runs: port B while VIO_B is present (R44, R318). -/
def State.portLive (s : State) (p : Port) : Bool := s.portsOn && (p == .a || s.bit .supStatus 1)
/-- Replace the interrupt controller's record. -/
def State.modIrq (s : State) (g : Irq → Irq) : State := { s with irq := g s.irq }
/-- An in-band interrupt is requested at an I3C port that runs: it carries 0x1F and PEEK (R44, R254). -/
def State.ibi (s : State) (p : Port) : State :=
  if s.portLive p && s.onI3c p && s.bit (.irqCtrl (portIx p)) 0 then
    s.modIrq fun r =>
      { r with ibis := r.ibis ++ [(portIx p, [0x1f, BitVec.ofNat 8 ((s.peek (portIx p)).getD 0x7f)])]
               claimedA := r.claimedA && p == .b, claimedB := r.claimedB && p == .a
               ibiA := if p = .a then s.clk.frc else r.ibiA, ibiB := if p = .b then s.clk.frc else r.ibiB }
  else s
/-- The line requests are evaluated: after a command, before its reply, and where it may let a line fall before that; a rise requests an
in-band interrupt (R247, R249, R254). -/
def State.irqSettle (s : State) : State :=
  let a := s.line 0
  let b := s.line 1
  let s := if a && !s.irq.lineA then s.ibi .a else s
  let s := if b && !s.irq.lineB then s.ibi .b else s
  s.modIrq fun r => { r with lineA := a, lineB := b }
/-- The transfers of a port. -/
def State.bus (s : State) (p : Port) : Bus := match p with | .a => s.hostIf.busA | .b => s.hostIf.busB
/-- Change the transfers of a port. -/
def State.modBus (s : State) (p : Port) (g : Bus → Bus) : State :=
  match p with
  | .a => { s with hostIf := { s.hostIf with busA := g s.hostIf.busA } }
  | .b => { s with hostIf := { s.hostIf with busB := g s.hostIf.busB } }
/-- Bytes of a receive buffer (R319). -/
def rxSize : Nat := 8448
/-- Port A is strapped for SPI (R46). -/
def State.spi (s : State) (p : Port) : Bool := p == .a && decide (s.hostIf.strapA = .gnd)
/-- Hardware status byte of a port (R320). -/
def State.statusByte (s : State) (p : Port) : Byte :=
  BitVec.ofNat 8 (32 * devCode s.proto.dev + 16 * (s.firstReply p).isSome.toNat + 8 * (decide ((s.bus p).rx + 4165 ≤ rxSize)).toNat
    + 4 * (s.line (portIx p)).toNat + 2 * (decide (s.proto.owner = some (.port p))).toNat + (s.bus p).drop.toNat)
/-- `n` bytes of packets come into the receive buffer; those that it has no room for are counted apart (R319). -/
def Bus.fill (b : Bus) (n : Nat) : Bus := { b with rx := min rxSize (b.rx + n), overrun := b.overrun + (b.rx + n - rxSize) }
/-- `n` bytes of a packet that is lost leave the buffer: those of them that found no room never were in it (R319). -/
def Bus.lose (b : Bus) (n : Nat) : Bus := { b with rx := b.rx - (n - b.overrun), overrun := b.overrun - n }
/-- A transfer begins: it shows the status byte, which clears DROP, and the state of RDY at its start decides what an SPI read frame
sends; the bytes of a write fill the receive buffer, and those of a reply that are read move its place. UART has no status byte, and in a
write transfer of I2C or I3C the host receives no byte. A transfer that goes on shows none (R319 to R321, R326). -/
def State.lead (s : State) (p : Port) (l : Lead) : State :=
  let uart := p == .b && s.uartB
  let ready := (s.firstReply p).isSome
  let shown := s.statusByte p
  s.modBus p fun b =>
    let first := if l.cont then b.first else some l.first
    let b := { b with first := first }
    if uart then b.fill l.got
    else
      let b := if l.cont ∨ (!s.spi p ∧ l.first = 0xa5) then b
        else { b with drop := false, rdy := ready, shown := some shown, pos := if s.spi p then 0 else b.pos }
      if first = some 0xa5 then b.fill l.got
      else if first = some 0 ∧ (if s.spi p then b.rdy else ready) then { b with pos := b.pos + l.got }
      else b
/-- The transfers at a port since its last event. -/
def State.transfers (s : State) (p : Port) (ls : List Lead) : State := ls.foldl (fun s l => s.lead p l) s
/-- `n` bytes leave the receive buffer: the CRC of their packet has been checked (R319). -/
def State.taken (s : State) (p : Port) (n : Nat) : State := s.modBus p fun b => { b with rx := b.rx - n }
/-- `n` bytes of a packet that did not come whole are discarded (R319). -/
def State.lost (s : State) (p : Port) (n : Nat) : State := s.modBus p fun b => b.lose n
/-- A byte has come on HB_RX by the FRC `t` (R330). -/
def State.heard (s : State) (p : Port) (t : Nat) : State :=
  if p == .b && s.uartB then { s with hostIf := { s.hostIf with rxAt := max s.hostIf.rxAt t } } else s
/-- Frames at port A while the hub sleeps in EBB or HOLD: SPI MISO shifts 0x00 (R377). -/
def State.unheard (s : State) (p : Port) (ls : List Lead) : State :=
  if s.spi p && decide (s.pwr.st = .ebb ∨ s.pwr.st = .hold) && !ls.isEmpty then s.modBus p fun b => { b with shown := some 0 } else s
/-- The latest transfer at a port carries packets: every one but an SPI read or status frame (R321). -/
def State.writing (s : State) (p : Port) : Bool :=
  !s.spi p || (match (s.bus p).first with | none => true | some x => x == 0xa5)
/-- The latest transfer at a port carries a reply: on SPI a read frame at whose start one was waiting (R321). -/
def State.sending (s : State) (p : Port) : Bool := !s.spi p || (decide ((s.bus p).first = some 0) && (s.bus p).rdy)

/-! ### Running a command -/

/-- What the body of a command answers once steps 1 to 7 of R300 have passed. -/
inductive Res where
  /-- OK with its reply data. -/
  | ok (s : State) (data : List Byte)
  /-- ACCEPTED (WAIT). -/
  | accepted (s : State)
  /-- The reply comes at the completion of a long command. -/
  | later (s : State)
  /-- OK of a QUEUE_READ: the queue and the words that R advances by as the reply leaves (R275). -/
  | okQ (s : State) (data : List Byte) (q : Option (Nat × Nat × W64))
  /-- Refused with no effect. -/
  | no (r : Rej)
  /-- Refused after a part took effect (R312). -/
  | part (s : State) (r : Rej)

/-- A body that only changes state or refuses. -/
def Res.of : Except Rej State → Res
  | .ok s => .ok s []
  | .error r => .no r

/-- The source of a packet owned the semaphore when the packet came: it owns it, or its lease has ended since, by the check of R307
(R306). -/
def State.ownsAt (s : State) (h : Hdr) : Bool :=
  (decide (s.proto.owner = some h.src) && decide (h.rx < s.proto.deadline)) ||
  (match s.proto.lapsed with | some (o, d) => decide (o = h.src ∧ h.rx < d) | none => false)
/-- Steps 5 to 7 of R300: the first failure, if any. -/
def State.gate (s : State) (h : Hdr) (c : HostCmd) : Option Rej :=
  if !s.legal h.src c then some (s.conflict 0xff 0)
  else match s.proto.longs.find? fun x => s.blockedBy h.src c x.2 with
    | some x => some (s.conflict 0x32 (longCode x.2))
    | none =>
      if s.needsSem h.src c && !s.ownsAt h then
        some (.notOwner, [])
      else none

/-- A broadcast over the link is executed without a reply of its own (R291). -/
def quiet (h : Hdr) : Bool :=
  match h.src with | .link _ _ => h.node == 0x7f | .port _ => false

/-- A reply that is sent unless the command was a broadcast received over the link; the interrupt lines have seen what the command did
(R254, R291). -/
def State.respond (s : State) (h : Hdr) (st : Status) (data : List Byte) (frees : Bool) (q : Option (Nat × Nat × W64) := none) : State :=
  let s := s.irqSettle
  if quiet h then (if st = .stateConflict then s.satAdd .cmdStateRejects 31 0 1 else s) else s.answer h st data frees q

/-- Steps 5 to 10 of R300 on this node, and the reply. -/
def State.execute (s : State) (h : Hdr) (c : HostCmd) (body : State → Res) : State :=
  match s.gate h c with
  | some r => s.respond h r.1 r.2 true
  | none =>
    match body s with
    | .ok s' d => s'.respond h .ok d true
    | .accepted s' => s'.respond h .accepted [] true
    | .later s' => s'
    | .okQ s' d q => s'.respond h .ok d true q
    | .no r => s.respond h r.1 r.2 true
    | .part s' r => s'.respond h r.1 r.2 true

/-- Commands that may be broadcast (R291). -/
def broadcastable : HostCmd → Bool
  | .chanStart _ | .chanStop _ | .chanSync _ => true
  | _ => false

/-- The source of a packet as the executing node sees it (R290). -/
def srcPort : Src → Port
  | .port p => p
  | .link _ p => p

/-- Step 4 of R300 (R290, R291): run here, forward, broadcast or refuse; a command that would leave through a port that is not UP is
answered at once (R343). -/
def State.perform (s : State) (h : Hdr) (c : HostCmd) (body : State → Res) : State :=
  match h.src with
  | .link _ _ => s.execute h c body
  | .port p =>
    if h.node = 0x40 ∨ s.nodeAddr = some h.node then s.execute h c body
    else if h.node = 0x7f then
      if !broadcastable c then s.answer h .badNode []
      else if s.enumRuns then
        let r := s.conflict 0x32 0x48
        s.answer h r.1 r.2
      else
        ((cmdFrames 0x01 0x7f (s.nodeAddr.getD 0xff) p (packetBytes h c)).foldl (fun s f => s.linkSend false f) s).execute h c body
    else if h.node < 64 then
      if !(s.portUp 0 || s.portUp 1) then s.answer h .linkDown []
      else if s.enumRuns then
        let r := s.conflict 0x32 0x48
        s.answer h r.1 r.2
      else if !s.portUp (s.portTo h.node) then s.answer h .linkTimeout []
      else
        let s := (cmdFrames 0x01 h.node (s.nodeAddr.getD 0xff) p (packetBytes h c)).foldl (fun s f => s.linkSend false f) s
        { s with proto := { s.proto with
            longs := s.proto.longs ++ [(h, .forward h.node (opcodeOf c) (s.clk.frc + s.fld .cmdLink 15 0 * msT))] } }
    else s.answer h .badNode []

/-- A tag is in flight (R292). -/
def State.tagBusy (s : State) (t : Nat) : Bool := s.proto.tags.any fun x => x.1 == t
/-- A tag enters flight for a local source (R293). -/
def State.takeTag (s : State) (h : Hdr) : State :=
  match h.src with
  | .port _ => if h.tag < 96 ∧ !s.tagBusy h.tag then { s with proto := { s.proto with tags := s.proto.tags ++ [(h.tag, h.src)] } } else s
  | .link _ _ => s

/-- Whether a packet of a local source takes its tag: not where the tag is out of range or in flight already (R292). -/
def State.tagFree (s : State) (h : Hdr) : Bool :=
  match h.src with
  | .port _ => decide (h.tag < 96) && !s.tagBusy h.tag
  | .link _ _ => false

/-- Step 1 to 3 of R300, made on arrival (log entry 21): the status of the first failure. -/
def State.arrive (s : State) (h : Hdr) : Option Status :=
  if !h.known then some .badOpcode
  else if !h.fit then some .badLen
  else match h.src with
    | .link _ _ => none
    | .port _ => if 96 ≤ h.tag then some .badTag else if s.tagBusy h.tag then some .tagInUse else none

/-- The receive-side error counter of a port: field and saturating count (R289, R317). -/
def State.cmdErrAdd (s : State) (p : Port) (hi lo : Nat) : State := s.satAdd (.cmdErr (portIx p)) hi lo 1

/-- A packet is dropped without reply (R289): counted, shown in DROP (R320); the UART receiver then waits for an idle line (R329). -/
def State.dropPacket (s : State) (p : Port) (hi lo : Nat) : State :=
  let s := (s.cmdErrAdd p hi lo).modBus p fun b => { b with drop := true }
  if p == .b && s.uartB then { s with hostIf := { s.hostIf with resync := true } } else s

/-- The transfers that bring a packet from a local port, and those at the other port: their status bytes are sent, and the packet, whose CRC
has been checked, leaves the receive buffer (R319, R320, R326, R330). -/
def State.portSent (s : State) (h : Hdr) (c : HostCmd) : State :=
  let s := h.peer.foldl (fun s x => s.lead x.1 x.2) s
  match h.src with
  | .port p => ((s.transfers p h.leads).taken p (packetBytes h c).length).heard p h.rx
  | .link _ _ => s
/-- A packet that has passed its CRC check. It is dropped in BOOT (R289), is lost while the ports are off or not ready (R318, R377),
or meets steps 1 to 3, the hold of R296 and the command. In DOZE, EBB and HOLD its arrival is a wake source (R376). -/
def State.submit (s : State) (h : Hdr) (c : HostCmd) (body : State → Res) : State :=
  let u := s.portSent h c
  let open_ := match h.src with | .port p => s.portOpen p && u.writing p | .link _ _ => true
  if s.pwr.st = .off ∨ s.proto.factory = true ∨ open_ = false then s
  else if s.pwr.st = .ebb ∨ s.pwr.st = .hold then (match h.src with | .port p => s.unheard p h.leads | .link _ _ => s).wakeLatch (wakeOf h.src)
  else if s.proto.dev = .boot then
    (match h.src with | .port p => u.dropPacket p 23 16 | .link _ _ => u)
  else
    let t := (u.wakeLatch (wakeOf h.src)).renew h
    match t.arrive h with
    | some st => (t.takeTag h).respond h st [] (t.tagFree h)
    | none =>
      let u := t.takeTag h
      if u.pwr.entering then { u with proto := { u.proto with held := u.proto.held ++ [(h, c)] } }
      else u.perform h c body

/-! ### The commands of the interface itself -/

/-- NOP (R314). -/
def nopBody (s : State) : Res := .ok s []

/-- DEV_STATUS (R314). -/
def devStatusBody (s : State) : Res :=
  .ok s ([BitVec.ofNat 8 (devCode s.proto.dev), BitVec.ofNat 8 s.proto.faultCause, BitVec.ofNat 8 s.sl.sealed.toNat,
    BitVec.ofNat 8 (ownerCode s.proto.owner), BitVec.ofNat 8 (s.nodeAddr.getD 0xff), BitVec.ofNat 8 (s.fld .rstCause 2 0)] ++
    (List.range 6).map fun b =>
      BitVec.ofNat 8 ((List.range 4).foldl (fun m j => m + chCode (s.ch (4 * b + j)).st * 2 ^ (2 * j)) 0))

/-- SEM_TAKE (R305). A refusal with SEM_HELD carries the data of SEM_STATUS. -/
def semTakeBody (h : Hdr) (lease : Nat) (s : State) : Res :=
  if s.proto.owner.isSome ∧ s.proto.owner ≠ some h.src then
    .no (.semHeld, leBytes 4 s.semStatusWord.toNat ++ leBytes 2 s.leaseLeft)
  else if ¬ (lease = 0 ∨ (10 ≤ lease ∧ lease ≤ 60000)) then .no (.badParam, [])
  else
    let l := if lease = 0 then s.fld .semCfg 15 0 else lease
    let fresh := s.proto.owner.isNone
    let g := if fresh then (s.proto.gen + 1) % 65536 else s.proto.gen
    .ok { s with proto := { s.proto with
            lapsed := if fresh then none else s.proto.lapsed
            owner := some h.src, lease := l, deadline := h.rx + l * msT, gen := g
            expA := if fresh ∧ h.src = .port .a then false else s.proto.expA
            expB := if fresh ∧ h.src = .port .b then false else s.proto.expB } }
      (leBytes 2 g ++ leBytes 2 l)

/-- SEM_GIVE (R305). -/
def semGiveBody (s : State) : Res :=
  let t := s.freeSem
  .ok { t with proto := { t.proto with lapsed := none } } (leBytes 2 s.proto.gen)

/-- SEM_STATUS (R314). -/
def semStatusBody (s : State) : Res := .ok s (leBytes 4 s.semStatusWord.toNat ++ leBytes 2 s.leaseLeft)

/-! ### Events of the interface -/

/-- PACKET_DISCARD: a packet of `n` bytes that its receiver drops is counted; to a full receive buffer are lost the packets of which a byte
found no room (R289, R317, R319). -/
def packetDiscard (p : Port) (k : Discard) (ls : List Lead) (n : Nat) (s : State) : State :=
  if !s.portLive p then s.unheard p ls
  else if !s.portOpen p then s
  else if !(s.transfers p ls).writing p then s.transfers p ls
  else
    let u := (s.transfers p ls).heard p s.clk.frc
    let s := u.taken p n
    match k with
    | .badStart | .badLength => s.dropPacket p 15 8
    | .badCrc => s.dropPacket p 7 0
    | .bufferFull => if 0 < (u.bus p).overrun then (u.lost p n).dropPacket p 31 24 else s
    | .inBoot => if s.proto.dev = .boot then s.dropPacket p 23 16 else s

/-- Remove the first reply of a port and free its tag (R293). -/
def State.dropReply (s : State) (p : Port) : State :=
  match s.firstReply p with
  | none => s
  | some r =>
    { s with proto := { s.proto with
        replies := s.proto.replies.eraseP fun x => decide (x.src = .port p)
        tags := if r.frees then s.proto.tags.filter fun x => x.1 ≠ r.tag else s.proto.tags } }

/-- LEASE_EXPIRY: the first check at or after the deadline frees the semaphore (R307); the lease is paused while the
sequencer is off, and it starts in full at the entry to CONFIG, so no check acts in BOOT (R86). -/
def leaseExpiry (s : State) : State :=
  if s.proto.owner.isSome ∧ s.proto.deadline ≤ s.clk.frc ∧ (s.pwr.st = .run ∨ s.pwr.st = .doze) ∧ s.proto.dev ≠ .boot then s.expireSem
  else s

/-- FORWARD_TIMEOUT: the receiving hub answers LINK_TIMEOUT for a forwarded command (R290). -/
def forwardTimeout (tag : Nat) (s : State) : State :=
  match s.proto.longs.find? fun x => x.1.tag == tag && (match x.2 with | .forward _ _ due => decide (due ≤ s.clk.frc) | _ => false) with
  | none => s
  | some (h, op) =>
    let s := { s with proto := { s.proto with longs := s.proto.longs.filter fun x => decide (x ≠ (h, op))
                                              late := s.proto.late ++ [(h.node, h.tag, srcPort h.src)] } }
    s.answer h .linkTimeout []

/-! ### Registers of the interface -/

/-- Writes of SEM_CFG, CMD_LINK and CMD_CTRL (R309, R317). -/
def cmdRegWrite (r : Reg) (v : W32) (s : State) : Except Rej State :=
  match r with
  | .semCfg =>
    let l := bits v.toNat 15 0
    if 10 ≤ l ∧ l ≤ 60000 then .ok (s.setFld .semCfg 15 0 l) else .error (.badParam, [])
  | .cmdLink =>
    let t := bits v.toNat 15 0
    if t = 0 then .error (.badParam, []) else .ok (s.setFld .cmdLink 15 0 t)
  | .cmdCtrl =>
    let s := if v.getLsbD 0 then s.setReg .cmdStateRejects 0 else s
    let s := if v.getLsbD 1 then (s.setReg (.cmdErr 0) 0).setReg (.cmdErr 1) 0 else s
    .ok (if v.getLsbD 2 then s.setFld .cmdLink 31 16 0 else s)
  | _ => .error (.badAddr, [])

/-- Tags in flight of one kind of source (CMD_INFLIGHT). -/
def State.inFlight (s : State) (f : Src → Bool) : Nat := (s.proto.tags.filter fun x => f x.2).length

/-- Reads of the registers that the interface computes. -/
def cmdRegRead (r : Reg) (s : State) : W32 :=
  match r with
  | .semStatus => s.semStatusWord
  | .semCfg => putBits (s.reg .semCfg) 31 16 s.leaseLeft
  | .devState => BitVec.ofNat 32 (s.proto.faultCause % 8 * 256 + devCode s.proto.dev)
  | .cmdInflight =>
    BitVec.ofNat 32 (s.inFlight (fun x => decide (x = .port .a)) + 256 * s.inFlight (fun x => decide (x = .port .b)))
  | r => s.reg r

end Sys2Proof.Machine
end

