-- ==== Sys2Proof/Machine/ChainCfg.lean ====
section
/-! DEFINITION. A chain's configuration and what follows from it: decimation (R25, R151), window (R167), settle count (R168),
group delay (R165), the IIR check (R156), noise bandwidth (R175), the coefficient block (R160). -/

namespace Sys2Proof.Machine

/-- SYS_TICK_DIV.DIV. -/
def State.div (s : State) : Nat := s.fld .sysTickDiv 22 0
/-- CIC decimation R (R150). -/
def State.cicR (s : State) (n : Nat) : Nat := s.fld (.sluCic n) 10 0
/-- CIC order N. -/
def State.cicN (s : State) (n : Nat) : Nat := s.fld (.sluCic n) 18 16
/-- Half-band stages. -/
def State.hbN (s : State) (n : Nat) : Nat := s.fld (.sluCic n) 21 20
/-- FIR on. -/
def State.firOn (s : State) (n : Nat) : Bool := s.bit (.sluFir n) 31
/-- FIR decimation F; 1 while the FIR is off. -/
def State.firF (s : State) (n : Nat) : Nat := if s.firOn n then s.fld (.sluFir n) 27 24 + 1 else 1
/-- T as R156 and R160 take it: 0 while the FIR is off. -/
def State.firT (s : State) (n : Nat) : Nat := if s.firOn n then s.fld (.sluFir n) 20 12 else 0
/-- BASE. -/
def State.coefBase (s : State) (n : Nat) : Nat := s.fld (.sluFir n) 11 0
/-- Median or rank stage on. -/
def State.rankOn (s : State) (n : Nat) : Bool := s.bit (.sluRank n) 31
/-- Median or rank length L. -/
def State.rankL (s : State) (n : Nat) : Nat := s.fld (.sluRank n) 11 8
/-- RANK. -/
def State.rankK (s : State) (n : Nat) : Nat := s.fld (.sluRank n) 3 0
/-- IIR mode: 0 off, 1 first order, 2 second order. -/
def State.iirMode (s : State) (n : Nat) : Nat := s.fld (.sluIir n) 29 28
/-- Output decimator order P. -/
def State.decP (s : State) (n : Nat) : Nat := s.fld (.sluIir n) 25 24
/-- Output decimation Q. -/
def State.decQ (s : State) (n : Nat) : Nat := s.fld (.sluIir n) 11 0 + 1
/-- Bank in force: 0 A, 1 B. -/
def State.bank (s : State) (n : Nat) : Nat := s.fld (.sluBank n) 0 0
/-- Sync group of a chain, where it has one (R170). -/
def State.syncGroup (s : State) (n : Nat) : Option Nat :=
  if s.bit (.sluRate n) 19 then some (s.fld (.sluRate n) 18 16) else none

/-- Input period of the engine parts, in MCLK periods (R165): half-band 1 and 2, FIR, and the parts behind it. -/
def State.pHb1 (s : State) (n : Nat) : Nat := s.cicR n
/-- Input period of half-band 2. -/
def State.pHb2 (s : State) (n : Nat) : Nat := 2 * s.cicR n
/-- Input period of the FIR. -/
def State.pFir (s : State) (n : Nat) : Nat := s.cicR n * 2 ^ s.hbN n
/-- Input period of the rank stage, the IIR section and the output decimator. -/
def State.pIir (s : State) (n : Nat) : Nat := s.pFir n * s.firF n
/-- Decimation D (R151). -/
def State.decimD (s : State) (n : Nat) : Nat := s.pIir n * s.decQ n

/-- Decimation that the rate field gives (R25); none where the tick does not divide. -/
def State.rateD (s : State) (n : Nat) : Option Nat :=
  let k := s.fld (.sluRate n) 3 0
  if s.bit (.sluRate n) 8 then (if k ≤ 10 then some (s.div * 2 ^ k) else none)
  else if k ≤ 6 ∧ s.div % 2 ^ k = 0 then some (s.div / 2 ^ k) else none
/-- Nominal MCLK frequency in Hz (R69). -/
def State.mclkHz (s : State) : Nat := (if s.onPll then 6144000 else 6000000) / 2 ^ s.mclkSel
/-- The output rate meets R25. -/
def State.rateOk (s : State) (n : Nat) : Bool :=
  match s.rateD n with
  | none => false
  | some d => decide (d = s.decimD n) && decide (96 ≤ d) && decide (d ≤ 2 * s.mclkHz) && decide (s.mclkHz ≤ 64000 * d)

/-! ### The half-band words -/

/-- Eleven pair words for offsets ±1 to ±21 give unity gain at DC: with the centre tap they add up to 2^35 (R153). -/
def unityGain (cs : List Int) : Bool := decide (2 * cs.sum + 2 ^ 34 = 2 ^ 35)
/-- 128^n T_n(m ÷ 128) for n = 2 k + 1 from the two before, and Σ 2 c_k T_(2k+1)(m ÷ 128) in units of 128^−21. -/
def cosineSum (m : Int) : List Int → Nat → Int → Int → Int → Int
  | [], _, _, _, acc => acc
  | c :: cs, k, a, b, acc =>
    let e := 2 * m * b - 16384 * a
    cosineSum m cs (k + 1) e (2 * m * e - 16384 * b) (acc + 2 * c * b * 128 ^ (20 - 2 * k))
/-- At the frequency whose cosine is −m ÷ 128 the response is at least 70 dB down: at most 316,227 in 10^9 (R153). -/
def down70 (cs : List Int) (m : Nat) : Bool :=
  decide (|(2 ^ 34 * 128 ^ 21 : Int) - cosineSum m cs 0 1 m 0| * 10 ^ 9 ≤ 316227 * 2 ^ 35 * 128 ^ 21)
/-- What R153 says of the words: unity gain at DC, and 70 dB of attenuation from 0.30 of the input rate, judged at 89 frequencies. No
eleven words meet its passband of ±0.001 dB (log entry 2). -/
def halfbandOk (cs : List Int) : Bool := unityGain cs && (List.range 89).all fun i => down70 cs (40 + i)
/-- Words that meet R153's gain and stopband, in place of unknown ones that do not (log entry 2). -/
def halfbandSpare : List Int :=
  [10867888588, -3443610122, 1864231164, -1138678287, 713949977, -442366341, 262815039, -147214141, 74465373, -33275619, 11728961]
/-- The half-band word of INDEX k (R153; log entry 2). -/
def halfbandWord (k : Nat) : W36 :=
  if halfbandOk ((List.range 11).map fun i => (Sys2Proof.halfbandPair i).toInt) then Sys2Proof.halfbandPair k
  else BitVec.ofInt 36 (halfbandSpare.getD k 0)

/-! ### Coefficients -/

/-- Coefficient word at an index of a bank. -/
def State.coefAt (s : State) (bank i : Nat) : Int := (cellGet s.coef (bank * 4096 + i) 0).toInt
/-- The FIR coefficients c_0 to c_(T−1) (R154). -/
def State.firCoefs (s : State) (n bank : Nat) : List Int :=
  (List.range (s.firT n)).map fun k => s.coefAt bank (s.coefBase n + k)
/-- An IIR word (R156). -/
def State.iirCoef (s : State) (n bank k : Nat) : Int := s.coefAt bank (s.coefBase n + s.firT n + k)
/-- An index lies in the coefficient block of a chain (R160). -/
def State.inBlock (s : State) (n i : Nat) : Bool :=
  decide (s.coefBase n ≤ i ∧ i ≤ s.coefBase n + s.firT n + 4)

/-- The five coefficients of the section in second-order form, raw: first order is b0 = α, a1 = α − 1 (R156). -/
def State.iirSection (s : State) (n bank : Nat) : Int × Int × Int × Int × Int :=
  let c := s.iirCoef n bank
  if s.iirMode n = 1 then (c 0, 0, 0, c 0 - 2 ^ s.fld (.sluSh n) 13 8, 0) else (c 0, c 1, c 2, c 3, c 4)
/-- Unit of a response that is worked out: 128 fractional bits, the rest cut off (log entry 23). -/
def respUnit : Int := 2 ^ 128
/-- Inputs and outputs that the section remembers, newest first: x1, x2, y1, y2. -/
abbrev SecMem := Int × Int × Int × Int
/-- The section takes one input (R156). -/
def secNext (sh : Nat) (c : Int × Int × Int × Int × Int) (x : Int) (h : SecMem) : SecMem :=
  let (b0, b1, b2, a1, a2) := c
  let (x1, x2, y1, y2) := h
  (x, x1, (b0 * x + b1 * x1 + b2 * x2 - a1 * y1 - a2 * y2) / 2 ^ sh, y1)
/-- The section's response to a list of inputs from rest. -/
def State.iirResp (s : State) (n bank : Nat) (xs : List Int) : List Int :=
  let sh := s.fld (.sluSh n) 13 8
  let c := s.iirSection n bank
  (xs.foldl (fun (p : List Int × SecMem) x => let h := secNext sh c x p.2; (h.2.2.1 :: p.1, h)) ([], 0, 0, 0, 0)).1.reverse
/-- First sample count from which every later value lies within 2^−24 of `top` of the final value. -/
def settledFrom (fin top : Int) (ys : List Int) : Nat :=
  (ys.foldl (fun (acc : Nat × Nat) y => (acc.1 + 1, if |y - fin| * 2 ^ 24 ≤ top then acc.2 else acc.1 + 2)) (0, 1)).2
/-- A coefficient set that R156 does not refuse by its values alone. -/
def State.iirLegal (s : State) (n bank : Nat) : Bool :=
  let one : Int := 2 ^ s.fld (.sluSh n) 13 8
  let (b0, _, _, a1, a2) := s.iirSection n bank
  if s.iirMode n = 1 then decide (0 < b0) && decide (b0 < 2 * one) else decide (|a2| < one) && decide (|a1| < one + a2)
/-- Samples from which the step response stays within 2^−24 of its final value, where it does so within `k` samples; the response is
followed over twice as many (R156; log entry 23). -/
def State.iirWithin (s : State) (n bank k : Nat) : Option Nat :=
  let one : Int := 2 ^ s.fld (.sluSh n) 13 8
  let (b0, b1, b2, a1, a2) := s.iirSection n bank
  let fin := (b0 + b1 + b2) * respUnit / (one + a1 + a2)
  let ys := s.iirResp n bank (List.replicate (2 * k) respUnit)
  let l := settledFrom fin (ys.foldl (fun m y => max m |y|) 0) ys
  if l ≤ k then some l else none
/-- IIR length L_IIR, or none where the coefficient set is refused (R156; log entry 23). -/
def State.iirLen (s : State) (n bank : Nat) : Option Nat := if s.iirLegal n bank then s.iirWithin n bank 65536 else none
/-- The length that the reported values take, where it leaves W within its field: a refused set may have one too (R427). Beyond 2^29
samples of at least 8 MCLK periods W passes 2^32. -/
def State.iirShown (s : State) (n bank : Nat) : Option Nat :=
  if !s.iirLegal n bank then none
  else match s.iirWithin n bank 65536 with
    | some l => some l
    | none => s.iirWithin n bank (2 ^ 29)

/-- Lengths and input periods of the engine parts that are on, in data-path order (R167). -/
def State.parts (s : State) (n bank : Nat) : List (Nat × Nat) :=
  (if 1 ≤ s.hbN n then [(43, s.pHb1 n)] else []) ++ (if 2 ≤ s.hbN n then [(43, s.pHb2 n)] else []) ++
  (if s.firOn n then [(s.firT n, s.pFir n)] else []) ++ (if s.rankOn n then [(s.rankL n, s.pIir n)] else []) ++
  (if s.iirMode n ≠ 0 then [((s.iirShown n bank).getD (2 ^ 32), s.pIir n)] else []) ++
  (if s.decQ n ≠ 1 then [(s.decP n * (s.decQ n - 1) + 1, s.pIir n)] else [])
/-- Window length W in MCLK periods (R167). -/
def State.winW (s : State) (n bank : Nat) : Nat :=
  (s.parts n bank).foldl (fun w p => w + (p.1 - 1) * p.2) (s.cicN n * (s.cicR n - 1) + 1)
/-- W of the bank in force, as SLU_WINnn shows it (R427). -/
def State.winNow (s : State) (n : Nat) : Nat := (s.reg (.sluWin n)).toNat
/-- Settle count ⌈W ÷ D⌉ (R168). -/
def State.settleN (s : State) (n bank : Nat) : Nat := ceilDiv (s.winW n bank) (s.decimD n)

/-- Front-end and modulator delay in MCLK periods (R165): TIA channels M16 to M19 by their feedback step. -/
def State.frontDelay (s : State) (n : Nat) : Nat :=
  if 16 ≤ n ∧ n < 20 then (if s.fld (.afeTia (n - 16)) 6 4 = 7 then 64 else 17) else 3
/-- Σ k c_k. -/
def firMoment (cs : List Int) : Int := cs.zipIdx.foldl (fun a p => a + p.1 * p.2) 0
/-- Group delay in MCLK periods, and whether a part was undefined (R165). -/
def State.tauRat (s : State) (n bank : Nat) : Rat × Bool :=
  let fe : Rat := s.frontDelay n
  let cic : Rat := (s.cicN n * (s.cicR n - 1) : Nat) / 2
  let hb : Rat := (if 1 ≤ s.hbN n then 21 * s.pHb1 n else 0) + (if 2 ≤ s.hbN n then 21 * s.pHb2 n else 0)
  let cs := s.firCoefs n bank
  let fir : Rat × Bool :=
    if !s.firOn n then (0, false)
    else if cs.sum = 0 then (((s.firT n - 1 : Nat) : Rat) / 2 * s.pFir n, true)
    else ((firMoment cs : Rat) / cs.sum * s.pFir n, false)
  let rank : Rat := if s.rankOn n then ((s.rankL n - 1 : Nat) : Rat) / 2 * s.pIir n else 0
  let one : Int := 2 ^ s.fld (.sluSh n) 13 8
  let (b0, b1, b2, a1, a2) := s.iirSection n bank
  let iir : Rat × Bool :=
    if s.iirMode n = 0 then (0, false)
    else if s.iirMode n = 1 then ((one - b0 : Rat) / b0 * s.pIir n, false)
    else if b0 + b1 + b2 = 0 then (0, true)
    else (((b1 + 2 * b2 : Int) / (b0 + b1 + b2 : Int) - (a1 + 2 * a2 : Int) / (one + a1 + a2 : Int) : Rat) * s.pIir n, false)
  let dec : Rat := if s.decQ n = 1 then 0 else ((s.decP n * (s.decQ n - 1) : Nat) : Rat) / 2 * s.pIir n
  (fe + cic + hb + fir.1 + rank + iir.1 + dec, fir.2 || iir.2)
/-- The group delay has no finite value: α is 0, or 1 + a1 + a2 is 0 where b0 + b1 + b2 is not (R165, R427). -/
def State.tauOpen (s : State) (n bank : Nat) : Bool :=
  let (b0, b1, b2, a1, a2) := s.iirSection n bank
  match s.iirMode n with
  | 0 => false
  | 1 => decide (b0 = 0)
  | _ => decide (b0 + b1 + b2 ≠ 0) && decide (2 ^ s.fld (.sluSh n) 13 8 + a1 + a2 = 0)
/-- Group delay in 1/16 MCLK periods, halves rounded upwards (R165). -/
def State.tau16 (s : State) (n bank : Nat) : Int := ((s.tauRat n bank).1 * 16 + 1 / 2).floor

/-- Sum of two sequences, the shorter continued with zeros. -/
def addSeq : List Int → List Int → List Int
  | a :: l, b :: m => (a + b) :: addSeq l m
  | [], m => m
  | l, [] => l
/-- Convolution with a sequence whose samples stand `p` MCLK periods apart. -/
def convAt (p : Nat) : List Int → List Int → List Int
  | [], _ => []
  | [c], g => g.map (c * ·)
  | c :: cs, g => addSeq (g.map (c * ·)) (List.replicate p 0 ++ convAt p cs g)
/-- The half-band impulse response (R153). -/
def hbTaps : List Int :=
  (List.range 43).map fun i =>
    let o := if i ≤ 21 then 21 - i else i - 21
    if o = 0 then 2 ^ 34 else if o % 2 = 1 then (halfbandWord (o / 2)).toInt else 0
/-- Impulse response at MCLK rate, up to a factor; the rank stage is taken as a plain path (R175; log entry 22). -/
def State.impulse (s : State) (n bank : Nat) : List Int :=
  let box (k : Nat) : List Int := List.replicate k 1
  let times (k : Nat) (f : List Int → List Int) (g : List Int) := (List.range k).foldl (fun g _ => f g) g
  let g := times (s.cicN n) (convAt 1 (box (s.cicR n))) [1]
  let g := if 1 ≤ s.hbN n then convAt (s.pHb1 n) hbTaps g else g
  let g := if 2 ≤ s.hbN n then convAt (s.pHb2 n) hbTaps g else g
  let g := if s.firOn n then convAt (s.pFir n) (s.firCoefs n bank) g else g
  let g := if s.iirMode n = 0 then g
    else convAt (s.pIir n) (s.iirResp n bank (respUnit :: List.replicate ((s.iirShown n bank).getD 1 - 1) 0)) g
  if s.decQ n = 1 then g else times (s.decP n) (convAt (s.pIir n) (box (s.decQ n))) g
/-- ENBW ÷ f_out in units of 2^−16, rounded to nearest and saturated to its field, as it also is where the response sums to 0 or never
ends (R175, R427; log entry 22). -/
def State.enbw (s : State) (n bank : Nat) : Nat :=
  let g := s.impulse n bank
  let sum : Int := g.foldl (· + ·) 0
  let sq : Int := g.foldl (fun a x => a + x * x) 0
  if sum = 0 ∨ (s.iirMode n ≠ 0 ∧ s.iirShown n bank = none) then 0x1ffff
  else min 0x1ffff (((s.decimD n * sq * 65536 : Int) / (2 * sum * sum : Int) + 1 / 2 : Rat).floor.toNat)

/-- Every field of the chain lies in its range (R151). -/
def State.fieldsOk (s : State) (n : Nat) : Bool :=
  decide (8 ≤ s.cicR n ∧ s.cicR n ≤ 1024) && decide (3 ≤ s.cicN n ∧ s.cicN n ≤ 5) && decide (s.hbN n ≤ 2) &&
  decide (1 ≤ s.fld (.sluFir n) 20 12) && decide (s.rankL n % 2 = 1 ∧ 3 ≤ s.rankL n) && decide (s.rankK n < s.rankL n) &&
  decide (s.iirMode n ≤ 2) && decide (1 ≤ s.decP n) && decide (s.fld (.sluSh n) 13 8 ≤ 47 ∧ s.fld (.sluSh n) 5 0 ≤ 47)
/-- The check of R151 against a bank. -/
def State.chainOk (s : State) (n bank : Nat) : Bool :=
  s.fieldsOk n && s.rateOk n && decide (s.coefBase n + s.firT n + 4 ≤ 4095) &&
  (s.iirMode n == 0 || (s.iirLen n bank).isSome) && decide (s.winW n bank < 2 ^ 32) &&
  decide (s.tau16 n bank < 2 ^ 31) && decide (s.settleN n bank ≤ 65535)

/-- The word of SLU_GDnn or SLU_GDNXnn: saturated at its field (R427). -/
def State.gdWord (s : State) (n bank : Nat) : W32 :=
  BitVec.ofNat 32 ((if (s.tauRat n bank).2 then 2 ^ 31 else 0) +
    if s.tauOpen n bank then 2 ^ 31 - 1 else min (2 ^ 31 - 1) (s.tau16 n bank).toNat)
/-- The sequencer recomputes what a chain's configuration gives (R427). -/
def State.recompute (s : State) (n : Nat) : State :=
  let b := s.bank n
  (((((s.setReg (.sluDec n) (BitVec.ofNat 32 (min (2 ^ 24 - 1) (s.decimD n)))).setReg (.sluWin n)
    (BitVec.ofNat 32 (min (2 ^ 32 - 1) (s.winW n b)))).setReg (.sluSettle n)
    (BitVec.ofNat 32 (min 65535 (s.settleN n b)))).setReg (.sluGd n) (s.gdWord n b)).setReg (.sluGdnx n)
    (s.gdWord n (1 - b))).setReg (.sluEnbw n) (BitVec.ofNat 32 (s.enbw n b))

end Sys2Proof.Machine
end

