-- ==== Sys2Proof/Machine/Load.lean ====
section
/-! DEFINITION. The engine's cost model and budget: predicted load P, capacity, the refusals of R30, PRIO rules (R27 to R32). -/

namespace Sys2Proof.Machine

/-- Capacity per tick at the clock in use (R27, R69). -/
def State.capacity (s : State) : Nat := capacityOf s.sPerM s.div

/-- Enabled slots of a derived stream: slot number and content (R183). -/
def State.dsSlots (s : State) (dd : Nat) : List (Nat × DsSlot) :=
  ((List.range 16).map fun k => (k, cellGet (s.dsr dd).slots k {})).filter fun p => p.2.en
/-- Chains reached through the slots of a derived stream, directly or through lower ones; the first number bounds the depth. -/
def State.dsChains (s : State) : Nat → Nat → List Nat
  | 0, _ => []
  | k + 1, dd => (s.dsSlots dd).flatMap fun p => if p.2.src < 24 then [p.2.src] else s.dsChains k (p.2.src - 24)
/-- Decimation of a stream (R184). -/
def State.streamD (s : State) (n : Nat) : Nat :=
  if n < 24 then s.decimD n
  else match s.dsChains 17 (n - 24) with
    | [] => s.div
    | c :: _ => s.decimD c
/-- Curve of a stream (R188). -/
def State.curve (s : State) (n : Nat) : Nat := s.fld (.linCfg n) 3 0
/-- A stream is producing: chain not IDLE, or derived stream enabled (R194). -/
def State.producing (s : State) (n : Nat) : Bool :=
  if n < 24 then s.chBusy n else s.bit (.dsCfg (n - 24)) 31

/-- First word of the user block of a stream: 64-bit word address in SRAM bytes (R191, R192). -/
def tableBase : Nat := 0x10080000
/-- Byte of SRAM by window address; cleared memory reads 0 (R77). -/
def State.sramByte (s : State) (a : Nat) : Byte := cellGet s.sram a 0
/-- The 64-bit word of SRAM at a window address. -/
def State.sramWord (s : State) (a : Nat) : W64 :=
  BitVec.ofNat 64 (ofLe ((List.range 8).map fun i => s.sramByte (a + i)))
/-- Store bytes in SRAM. -/
def State.sramPut (s : State) : Nat → List Byte → State
  | _, [] => s
  | a, b :: bs => ({ s with sram := memSet s.sram a b 0 }).sramPut (a + 1) bs
/-- Store a 64-bit word. -/
def State.sramPutWord (s : State) (a : Nat) (w : W64) : State := s.sramPut a (leBytes 8 w.toNat)
/-- Window address of a stream's user block header (R192). -/
def State.blockAddr (s : State) (n : Nat) : Nat := tableBase + 8 * s.fld (.linTbl n) 17 0
/-- Header word of a stream's user block. -/
def State.blockHead (s : State) (n : Nat) : W64 := s.sramWord (s.blockAddr n)

/-- Linearisation cost of a stream per output (R28). -/
def State.linCost (s : State) (n : Nat) : Nat :=
  match s.curve n with
  | 1 | 2 | 3 | 4 | 5 => 16
  | 8 | 9 | 10 | 11 | 12 => 20
  | 13 => bits (s.blockHead n).toNat 10 0 + 4
  | 14 => 8
  | 15 => 12
  | _ => 0
/-- Cost of the engine stages of one chain output, by their outputs per chain output (R28, R32). -/
def State.ownCost (s : State) (n : Nat) : Nat :=
  let d := s.decimD n
  (if 1 ≤ s.hbN n then 12 * ceilDiv d (2 * s.cicR n) else 0) + (if 2 ≤ s.hbN n then 12 * ceilDiv d (4 * s.cicR n) else 0) +
  (if s.firOn n then (s.firT n + 4) * ceilDiv d (s.pIir n) else 0) +
  (if s.rankOn n then (s.rankL n + 4) * ceilDiv d (s.pIir n) else 0) +
  (if s.iirMode n ≠ 0 then 4 * s.iirMode n * ceilDiv d (s.pIir n) else 0) + 4 + s.linCost n
/-- Cost of a chain per tick: each stage's outputs in one tick, at least 1, times its cost (R28). -/
def State.chainCost (s : State) (n : Nat) : Nat :=
  let t := s.div
  (if 1 ≤ s.hbN n then 12 * ceilDiv t (2 * s.cicR n) else 0) + (if 2 ≤ s.hbN n then 12 * ceilDiv t (4 * s.cicR n) else 0) +
  (if s.firOn n then (s.firT n + 4) * ceilDiv t (s.pIir n) else 0) +
  (if s.rankOn n then (s.rankL n + 4) * ceilDiv t (s.pIir n) else 0) +
  (if s.iirMode n ≠ 0 then 4 * s.iirMode n * ceilDiv t (s.pIir n) else 0) + 4 * ceilDiv t (s.decimD n)
/-- Outputs per tick of a source (R28): streams by their rate, detectors by their output rule, polls once. -/
def State.srcOutputs (s : State) (n : Nat) : Nat :=
  if n < 40 then ceilDiv s.div (s.streamD n)
  else if n < 48 then
    let x := n - 40
    let c := s.fld (.dtCfg x) 13 8
    let i := if c < 40 then ceilDiv s.div (s.streamD c) else 1
    if s.fld (.dtCfg x) 25 24 = 1 then ceilDiv i (2 ^ (if s.fld (.dtCfg x) 19 16 = 0 then 16 else s.fld (.dtCfg x) 19 16))
    else match s.fld (.dtCfg x) 29 28 with
      | 0 => i
      | 1 => ceilDiv i (2 ^ s.fld (.dtCfg x) 23 20)
      | _ => 1
  else 1
/-- Sum over indices below a bound. -/
def sumTo (n : Nat) (f : Nat → Nat) : Nat := (List.range n).foldl (fun a i => a + f i) 0
/-- Predicted load P with further chains counted (R29). -/
def State.loadWith (s : State) (more : Nat → Bool) : Nat :=
  let counted (n : Nat) : Bool := s.chBusy n || more n
  1024 + sumTo 24 (fun n => if counted n then s.chainCost n + s.linCost n * s.srcOutputs n else 0) +
  sumTo 16 (fun d => if s.bit (.dsCfg d) 31
    then ((s.dsSlots d).length + 4 + s.linCost (24 + d)) * s.srcOutputs (24 + d) else 0) +
  sumTo 8 (fun x => if s.bit (.dtCfg x) 31 then 4 * s.srcOutputs (s.fld (.dtCfg x) 13 8) else 0) +
  sumTo 32 (fun i => if s.bit .statEna i then 6 * s.srcOutputs (s.fld (.statCfg i) 5 0) else 0) +
  (if s.bit .beoLoopCfg 31 then 16 * s.srcOutputs (s.fld .beoLoopCfg 5 0) else 0)
/-- Predicted load P. -/
def State.loadP (s : State) : Nat := s.loadWith fun _ => false
/-- A load breaks the 95 % limit at a capacity (R30). -/
def overBudget (p cap : Nat) : Bool := decide (20 * p > 19 * cap)
/-- A configuration write that takes `s` to `t` breaks R30: some chain is counted, P grows, and the limit is exceeded. -/
def budgetBroken (s t : State) : Bool :=
  (List.range 24).any s.chBusy && decide (s.loadP < t.loadP) && overBudget t.loadP t.capacity
/-- A change of clock that takes `s` to `t` breaks R30: the capacity falls below the point at which the present P exceeds the
limit. -/
def capacityBroken (s t : State) : Bool := decide (t.capacity < s.capacity) && overBudget s.loadP t.capacity
/-- Answer of a configuration write under R30. -/
def withBudget (s t : State) : Except Rej State := if budgetBroken s t then .error (.budget, []) else .ok t

/-- A load as a fraction of capacity in units of 2^−16, rounded up and saturated (R41). -/
def loadFrac (l cap : Nat) : Nat := min 0x1ffff (ceilDiv (l * 65536) cap)

/-- Bits set in a mask of chains. -/
def popCount (m : Nat) : Nat := sumTo 24 fun n => m / 2 ^ n % 2
/-- A chain's own cost is not less than its output period in SYSCLK cycles (R32). -/
def State.prioTooDear (s : State) (n : Nat) : Bool := decide (s.decimD n * s.sPerM ≤ s.ownCost n)
/-- Write of ENG_PRIO (R32). -/
def engPrioWrite (v : W32) (s : State) : Except Rej State :=
  let m := bits v.toNat 23 0
  if popCount m + (s.bit .beoLoopCfg 31).toNat > 4 then .error (.badParam, [])
  else if (maskChains m).any fun n => s.chBusy n && s.prioTooDear n then .error (.badParam, [])
  else .ok (s.setReg .engPrio (BitVec.ofNat 32 m))

/-- Half-period and divider fit each other (R103). -/
def chopFits (half div : Nat) : Bool := div % half == 0 || half % div == 0
/-- A generator that counts as enabled (R100) and would not fit a divider (R103). -/
def State.chopMisfit (s : State) (div x : Nat) : Bool :=
  (s.bit (.excChop x) 31 && !chopFits (s.fld (.excChop x) 22 0) div) || ((s.drv x).chopEn && !chopFits (s.drv x).half div)
/-- Write of SYS_TICK_DIV (R24, R103): held until the next boundary. -/
def tickDivWrite (v : W32) (s : State) : Except Rej State :=
  let d := bits v.toNat 22 0
  if d < 96 ∨ 6144000 < d then .error (.badParam, [])
  else if s.anyBusy then .error (s.chConflict ((List.range 24).filter s.chBusy))
  else if s.bit .beoLoopCfg 31 then .error (s.conflict 0x31 1)
  else if s.proto.dev = .ebb then .error (s.conflict 0x30 1)
  else if (List.range 4).any (s.chopMisfit d) then .error (s.conflict 0xfe 0)
  else .ok { s.setReg .sysTickDiv (BitVec.ofNat 32 d) with eng := { s.eng with divPend := some d } }

/-- Write of ENG_CTRL (R33, R34, R41). -/
def engCtrlWrite (v : W32) (s : State) : State :=
  let s := if v.getLsbD 0 then s.setBit .engStatus 0 false else s
  let s := if v.getLsbD 1 then
      ((List.range 24).foldl (fun s n => s.setReg (.engDrop n) 0) (s.setReg .engDropAux 0)).setBit .engStatus 2 false
    else s
  if v.getLsbD 2 then s.setReg .engLoadMax (s.reg .engLoadLast) else s

end Sys2Proof.Machine
end

