-- ==== Sys2Proof/Machine/TimeBase.lean ====
section
/-! DEFINITION. The passing of time: one TCLK period per step (R69, R357), MCLK and LFCLK derived from it, and the catching-up of
the time base with an event that falls on a known MCLK edge (log entry 3). -/

namespace Sys2Proof.Machine

/-- `k` TCLK periods of FRC: one each on the PLL; 1.024 each through the fractional accumulator on HFRC (R69). -/
def State.frcSteps (s : State) (k : Nat) : State :=
  if s.onPll then { s with clk := { s.clk with frc := (s.clk.frc + k) % 2 ^ 64 } }
  else
    let a := s.clk.frcAcc + 24 * k
    { s with clk := { s.clk with frc := (s.clk.frc + k + a / 1000) % 2 ^ 64, frcAcc := a % 1000 } }
/-- LFCLK periods in `k` steps: 32,768 Hz from a step clock of 24.576 MHz or 24 MHz (R67). -/
def State.lfSteps (s : State) (k : Nat) : State :=
  let per := if s.onPll then 24576000 else 24000000
  let a := s.clk.lfAcc + 32768 * k
  { s with clk := { s.clk with lf := (s.clk.lf + a / per) % 2 ^ 48, lfAcc := a % per } }
/-- `k` steps of the running time base. -/
def State.run (s : State) (k : Nat) : State :=
  let t := s.frcSteps k
  let t := t.lfSteps k
  let ph := s.clk.mclkPh + k
  { t with clk := { t.clk with mclk := s.clk.mclk + ph / s.tPerM, mclkPh := ph % s.tPerM } }
/-- The sequencer's clocks run: RUN and DOZE, and EBB within a cycle (R369, R377). -/
def State.clocked (s : State) : Bool :=
  match s.pwr.st with
  | .run | .doze => true
  | .ebb => s.ebb.cycling || s.pwr.waking.isSome
  | .hold => s.pwr.waking.isSome
  | .off => false
/-- One step of an idle queue: a TCLK period, or an LFCLK period while only the AO domain is clocked; in OFF nothing runs (R380). -/
def State.advance (s : State) : State :=
  if s.clocked then s.run 1 else if s.pwr.st = .off then s else { s with clk := { s.clk with lf := (s.clk.lf + 1) % 2 ^ 48 } }
/-- FRC at an MCLK edge that has passed: the capture was taken there (R69, R166). -/
def State.frcAt (s : State) (m : Nat) : Int :=
  let k : Int := ((s.clk.mclk - m) * s.tPerM + s.clk.mclkPh : Nat)
  if s.onPll then s.clk.frc - k else (s.clk.frc * 1000 + s.clk.frcAcc - 1024 * k) / 1000
/-- The first MCLK edge that is not before the present moment. -/
def State.nextEdge (s : State) : Nat := if s.clk.mclkPh = 0 then s.clk.mclk else s.clk.mclk + 1
/-- An event that falls on MCLK edge `m` brings the time base up to that edge. -/
def State.advanceTo (s : State) (m : Nat) : State :=
  if s.clk.mclk < m then s.run ((m - s.clk.mclk) * s.tPerM - s.clk.mclkPh) else s

end Sys2Proof.Machine
end

