-- ==== Sys2Proof/Machine/Excite.lean ====
section
/-! DEFINITION. Ports, drivers, chop generators, current sources (R88 to R111), fault intervals and the switch-offs of drivers
(R132 to R149). A write is checked and held; what it changes takes effect at a tick boundary (R100). -/

namespace Sys2Proof.Machine

/-! ### Ports -/

/-- Role of a port (R88). -/
def State.role (s : State) (p : Nat) : Nat := s.fld (.apCfg p) 2 0
/-- SEL of a port. -/
def State.sel (s : State) (p : Nat) : Nat := s.fld (.apCfg p) 12 8
/-- A port is a sense input of driver x; `side` 0 sense+, 1 sense−. -/
def State.senses (s : State) (p x side : Nat) : Bool :=
  decide (s.role p = 2 ∧ s.sel p % 4 = x ∧ s.sel p / 4 % 2 = side)
/-- Both sense ports of a driver are assigned (R95). -/
def State.sensed (s : State) (x : Nat) : Bool :=
  (List.range 48).any (s.senses · x 0) && (List.range 48).any (s.senses · x 1)
/-- A port carries current source n by its role (R88). -/
def State.carries (s : State) (p n : Nat) : Bool := decide (s.role p = 3 ∧ s.sel p % 8 = n)
/-- Channels whose inputs name a port. -/
def State.fedBy (s : State) (p : Nat) : List Nat := (List.range 24).filter fun n => s.inp n == p || s.inn n == p
/-- A driver counts as enabled for refusals (R100). -/
def State.drvEnabled (s : State) (x : Nat) : Bool := s.bit (.excCtrl x) 0 || (s.drv x).en
/-- A current source counts as enabled for refusals (R100). -/
def State.srcEnabled (s : State) (n : Nat) : Bool := s.bit (.isrcCfg n) 15 || (s.isrc n).en
/-- A chop generator counts as enabled for refusals (R100). -/
def State.genEnabled (s : State) (x : Nat) : Bool := s.bit (.excChop x) 31 || (s.drv x).chopEn
/-- A driver is in sense-only mode, written or in force. -/
def State.senseOnlySet (s : State) (x : Nat) : Bool := s.bit (.excCtrl x) 9 || (s.drv x).senseOnly
/-- The port of current source n carries an enabled source: its own, or its partner's while the pair swaps (R90, R111). -/
def State.portDriven (s : State) (n : Nat) : Bool :=
  s.srcEnabled n || ((s.bit (.isrcPair (n / 2)) 0 || (s.isrc n).swapEn) && s.srcEnabled (if n % 2 = 0 then n + 1 else n - 1))
/-- A port is in use so that its role may not change (R90). -/
def State.portBusy (s : State) (p : Nat) : Option Rej :=
  match (s.fedBy p).find? s.chBusy with
  | some n => some (s.chConflict [n])
  | none =>
    let x := s.sel p % 4
    if s.role p = 2 ∧ (s.drvEnabled x ∨ (s.senseOnlySet x ∧ (List.range 24).any fun n => s.chBusy n && decide (s.refDriver n = some x)))
    then some (s.conflict 0xfe 0)
    else if s.role p = 3 ∧ s.portDriven (s.sel p % 8) then some (s.conflict 0xfe 0)
    else none
/-- Another port already has the assignment that a value gives (R91). -/
def State.assigned (s : State) (p : Nat) (v : W32) : Bool :=
  let role := bits v.toNat 2 0
  let q := bits v.toNat 10 8
  (List.range 48).any fun o => decide (o ≠ p ∧ s.role o = role ∧ s.sel o % 8 = q)
/-- Write of AP_CFGnn: its checks in the order of the chapter (R4, R90, R91, R300). -/
def apCfgWrite (p : Nat) (v : W32) (s : State) : Except Rej State :=
  let role := bits v.toNat 2 0
  let sel := bits v.toNat 12 8
  if 5 ≤ role ∨ (role = 4 ∧ 24 ≤ sel) then .error (.badParam, [])
  else match (if role ≠ s.role p ∨ sel ≠ s.sel p then s.portBusy p else none) with
    | some r => .error r
    | none => if (role = 2 ∨ role = 3) ∧ s.assigned p v then .error (.badParam, []) else .ok (s.setReg (.apCfg p) (v &&& 0x3f07))
/-- Write of AP_CHSELnn (R89, R90). -/
def apChselWrite (n : Nat) (v : W32) (s : State) : Except Rej State :=
  let bad (q : Nat) : Bool := decide (48 ≤ q ∧ q ≤ 62)
  if bad (bits v.toNat 5 0) || bad (bits v.toNat 13 8) || bits v.toNat 19 18 == 3 then .error (.badParam, [])
  else if s.chBusy n then .error (s.chConflict [n])
  else .ok (s.setReg (.apChsel n) (v &&& 0xf3f3f))
/-- The input rules of a CHAN_START (R89). Of the channels whose inputs name a port, those that are not IDLE or that the start names
count among the four it may feed at once (DESIGN CHOICE, log entry 111). -/
def State.portsOk (s : State) (m n : Nat) : Bool :=
  let users (p : Nat) : List Nat := (s.fedBy p).filter fun c => s.chBusy c || m / 2 ^ c % 2 == 1
  let ok (p : Nat) : Bool :=
    if p = 63 then decide (20 ≤ n) else decide (p < 48 ∧ 1 ≤ s.role p ∧ s.role p ≤ 3 ∧ (users p).length ≤ 4)
  ok (s.inp n) && ok (s.inn n) && (decide (s.inp n ≠ s.inn n) || decide (s.inp n = 63 ∧ 20 ≤ n))

/-! ### Writes held until the tick boundary -/

/-- TJ_SHUT is in force (R149). -/
def State.shut (s : State) : Bool := s.bit .monTempStatus 2
/-- VEXC_OK (R61). -/
def State.vexcOk (s : State) : Bool := s.bit .supStatus 3
/-- Write of EXC_CTRLx (R63, R95, R96, R100, R149). -/
def excCtrlWrite (x : Nat) (v : W32) (s : State) : Except Rej State :=
  let en := v.getLsbD 0
  if en && v.getLsbD 9 then .error (.badParam, [])
  else if en && v.getLsbD 8 && !s.sensed x then .error (.badParam, [])
  else if en && (!s.vexcOk || s.shut) then .error (s.conflict 0xfe 0)
  else
    let again := en && !s.bit (.excCtrl x) 0 && (s.drv x).en
    .ok ((s.setReg (.excCtrl x) (v &&& 0xff01)).modDrv x fun d => { d with restart := en && (d.restart || again) })
/-- Write of EXC_LEVELx (R94). -/
def excLevelWrite (x : Nat) (v : W32) (s : State) : Except Rej State :=
  let l := bits v.toNat 13 0
  if l < 500 ∨ 5250 < l then .error (.badParam, []) else .ok (s.setReg (.excLevel x) (BitVec.ofNat 32 l))
/-- Write of EXC_CHOPx (R103, R105). -/
def excChopWrite (x : Nat) (v : W32) (s : State) : Except Rej State :=
  let h := bits v.toNat 22 0
  let b := bits v.toNat 30 23
  if h < 1536 ∨ 6144000 < h ∨ b < 8 ∨ h / 4 < b ∨ !chopFits h s.div then .error (.badParam, [])
  else .ok (s.setReg (.excChop x) v)
/-- Write of ISRC_CFGn (R109, R110, R149). -/
def isrcCfgWrite (n : Nat) (v : W32) (s : State) : Except Rej State :=
  let port := bits v.toNat 13 8
  let code := bits v.toNat 7 0
  let en := v.getLsbD 15
  if 48 ≤ port ∨ code = 0 ∨ 200 < code then .error (.badParam, [])
  else if en && !s.carries port n then .error (.badParam, [])
  else if en && s.shut then .error (s.conflict 0xfe 0)
  else
    let again := en && !s.bit (.isrcCfg n) 15 && (s.isrc n).en
    .ok ((s.setReg (.isrcCfg n) (v &&& 0xbfff)).modIsrc n fun d => { d with restart := en && (d.restart || again) })
/-- Write of ISRC_PAIRp (R111). -/
def isrcPairWrite (p : Nat) (v : W32) (s : State) : Except Rej State :=
  if v.getLsbD 0 && decide (s.fld (.isrcCfg (2 * p)) 7 0 ≠ s.fld (.isrcCfg (2 * p + 1)) 7 0) then .error (.badParam, [])
  else .ok (s.setReg (.isrcPair p) (v &&& 7))

/-! ### Fault intervals -/

/-- Whether the MCLK period from an edge came from other than a locked PLL (R75). -/
def State.offAt (s : State) (m : Nat) : Bool := s.clk.offPll.any fun iv => ivHit iv m (m + 1)
/-- Stamp of a TCLK period that has passed, by its FRC value and its MCLK period (R261). -/
def State.stampOf (s : State) (m c : Nat) : Stamp := s.stampAt c c (s.offAt m)
/-- Stamp of an MCLK edge that has passed. -/
def State.stampEdge (s : State) (e : Nat) : Stamp := s.stampAt (s.frcAt e) (s.frcAt e) (s.offAt e)
/-- Mask of the chains tied to a driver (R141). -/
def State.groupMask (s : State) (x : Nat) : Nat := chainMask (s.inGroup · x)
/-- A chain's inputs carry a source: either port of a pair that swaps (R102, R141). -/
def State.takesSource (s : State) (n c : Nat) : Bool :=
  let m := if n % 2 = 0 then n + 1 else n - 1
  let hit (p k : Nat) : Bool := s.carries p k && decide ((s.isrc k).port = p)
  hit (s.inp c) n || hit (s.inn c) n || ((s.isrc n).swapEn && (hit (s.inp c) m || hit (s.inn c) m))
/-- Chains whose inputs carry a source (R102, R141). -/
def State.srcMask (s : State) (n : Nat) : Nat := chainMask (s.takesSource n)
/-- A fault of a unit affects a chain (R141): by the units that the chain names now. -/
def State.inScope (s : State) (f : FaultScope) (nn : Nat) : Bool :=
  match f with
  | .none => false
  | .driver x => s.inGroup nn x
  | .source n => s.takesSource n nn
  | .chain c => decide (c = nn)
/-- Mask of the chains that a fault of a unit affects (R141). -/
def State.scopeMask (s : State) (f : FaultScope) : Nat := chainMask (s.inScope f)
/-- A fault is active. -/
def State.faultOn (s : State) (code : Nat) : Bool := s.mon.faults.any fun f => f.code == code && f.t1.isNone
/-- Replace the fault intervals. -/
def State.setFaults (s : State) (fs : List FaultIv) : State := { s with mon := { s.mon with faults := fs } }
/-- The thermal codes (R143). -/
def thermalCode (code : Nat) : Bool := decide (0x1470 ≤ code ∧ code ≤ 0x1472)
/-- Event record, interrupt source and routed event of a fault that is detected (R143). -/
def State.faultNote (s : State) (code mask : Nat) (tm : Stamp) : State :=
  let th := thermalCode code
  let s := (s.event code tm (if th then s.queuesAll else s.queuesFor (maskChains mask))).irqFire (if th then 5 else 4)
  if code = 0x1470 then s.produce 58 else if th then s else s.produce 47
/-- A fault begins: its interval, its event record, its interrupt source (R140 to R143). -/
def State.faultOpen (s : State) (f : FaultIv) (tm : Stamp) : State :=
  (s.setFaults (s.mon.faults ++ [f])).faultNote f.code (s.scopeMask f.scope) tm
/-- A fault joins a list in ascending code order (R143). -/
def insertFault (f : FaultIv × Stamp) : List (FaultIv × Stamp) → List (FaultIv × Stamp)
  | [] => [f]
  | g :: l => if f.1.code < g.1.code then f :: g :: l else g :: insertFault f l
/-- Faults detected in one SYSCLK cycle: their records follow in ascending code order (R143). -/
def State.faultsOpen (s : State) (fs : List (FaultIv × Stamp)) : State :=
  (fs.foldl (fun l f => insertFault f l) []).foldl (fun s f => s.faultOpen f.1 f.2) s
/-- Close the intervals of a code, without its event record. -/
def State.faultEnd (s : State) (code m : Nat) : State :=
  s.setFaults (s.mon.faults.map fun f => if f.code = code ∧ f.t1 = none then { f with t1 := some m } else f)
/-- A fault clears: its interval ends and the clearing record is written (R140, R143). -/
def State.faultClose (s : State) (code m : Nat) (tm : Stamp) : State :=
  match s.mon.faults.find? fun f => f.code == code && f.t1.isNone with
  | none => s
  | some f =>
    (s.faultEnd code m).event (code + 0x80) tm (if thermalCode code then s.queuesAll else s.queuesFor (maskChains (s.scopeMask f.scope)))

/-- A running learn on the driver fails. Only an excitation change of this driver counts as one that takes effect during its learn
(R134; DESIGN CHOICE, log entry 113). -/
def State.spoilLearn (s : State) (x : Nat) : State :=
  s.modDrv x fun d => { d with learn := if d.learn = 2 then 3 else d.learn }
/-- Excitation change of a driver: DIS and settle restart for its group; a learn under way fails (R102, R134, R168). -/
def State.excChange (s : State) (x : Nat) : State := (s.disturb (maskChains (s.groupMask x))).spoilLearn x

/-- A driver is driving, in hiccup, or pulsed in EBB. -/
def State.driving (s : State) (x : Nat) : Bool := (s.drv x).on || (s.drv x).hiccup || decide (s.ebb.pulsed / 2 ^ x % 2 = 1)
/-- A unit leaves the pulsed drivers and sources of EBB (R382). -/
def State.unpulse (s : State) (k : Nat) : State :=
  { s with ebb := { s.ebb with pulsed := s.ebb.pulsed - s.ebb.pulsed / 2 ^ k % 2 * 2 ^ k } }
/-- Hardware switches a driver off: force outputs to high impedance; where it drove or was in hiccup, an excitation change, and its
chains enter FAULTED (R102, R136, R169). -/
def State.driverOff (s : State) (x : Nat) : State :=
  let was := (s.drv x).on || (s.drv x).hiccup
  let s := (s.modDrv x fun d => { d with on := false, ramp := false, limit := false, hiccup := false }).unpulse x
  if was then (maskChains (s.groupMask x)).foldl State.chFault (s.excChange x) else s
/-- The interval and stamp of a switch-off of driver x that happens now (R140). -/
def State.offIv (s : State) (code x : Nat) : FaultIv × Stamp :=
  ({ code := code, scope := .driver x, t0 := s.clk.mclk, t1 := none, drv := some x, ev := s.clk.mclk }, s.now)
/-- Switch-off of a driver by OFF_ON_FAULT or TJ_SHUT: FAULT_OFF of one that drives, is pulsed or is enabled (DESIGN CHOICE, log entry 166),
and the fault 0x1424 + x of one that was switched off (R136, R143, R149). -/
def State.driverFaultOff (s : State) (x : Nat) : State × List (FaultIv × Stamp) :=
  let fs := if s.driving x then [s.offIv (0x1424 + x) x] else []
  (if s.driving x || (s.drv x).en then (s.driverOff x).modDrv x fun d => { d with faultOff := true } else s, fs)
/-- The drivers of a list, switched off together. -/
def State.driversFaultOff (s : State) (xs : List Nat) : State × List (FaultIv × Stamp) :=
  xs.foldl (fun p x => let q := p.1.driverFaultOff x; (q.1, p.2 ++ q.2)) (s, [])
/-- A chain in FAULTED whose affected drivers are all ON again, with no coefficient error outstanding, settles (R169). -/
def State.recover (s : State) (nn : Nat) : State :=
  let held := s.mon.faults.any fun f => f.drv.isSome && f.t1.isNone && s.inScope f.scope nn
  if (s.ch nn).st = .faulted ∧ !(s.ch nn).ecc ∧ !held then s.modCh nn fun c => { c with st := .settling } else s
/-- Chains that the fault of an event affects: one interval's, or those of each driver that the event covers (R141). -/
def State.eventMask (s : State) (f : FaultIv) : Nat :=
  chainMask fun n => s.mon.faults.any fun g => g.code == f.code && g.ev == f.ev && s.inScope g.scope n
/-- A driver turns ON: its switch-off faults clear and its chains may leave FAULTED (R140, R169). Lockout has no clearing
record; VEXC_OK loss clears with the last driver that it stopped (log entry 25), in the queues of every chain it affected. -/
def State.driverOn (s : State) (x : Nat) : State :=
  let mine := s.mon.faults.filter fun f => f.drv == some x && f.t1.isNone
  let s := s.setFaults (s.mon.faults.map fun f =>
    if f.drv = some x ∧ f.t1 = none then { f with t1 := some s.clk.mclk } else f)
  let s := mine.foldl (fun s f =>
    if f.code = 0x141c + x ∨ (f.code = 0x1420 ∧ s.faultOn 0x1420) then s
    else s.event (f.code + 0x80) s.now (s.queuesFor (maskChains (s.eventMask f)))) s
  (maskChains (s.groupMask x)).foldl State.recover s

/-! ### What takes effect at a tick boundary -/

/-- Duration of a ramp in MCLK periods (R101). -/
def rampTime (sel : Nat) : Nat :=
  match sel with
  | 0 => 1536 | 1 => 6144 | 2 => 61440 | _ => 614400
/-- A ramp from 0 to the level in force starts (R101). -/
def Driver.startRamp (d : Driver) (now : Nat) : Driver :=
  { d with ramp := true, rampAt := now, rampV := 0, rampTil := now + rampTime d.rampSel }
/-- The level that a driver regulates to, in mV: on the line of its ramp while it ramps (R101). -/
def Driver.present (d : Driver) (now : Nat) : Rat :=
  if d.ramp then d.rampV + ((d.level : Rat) - d.rampV) * (min now d.rampTil - d.rampAt : Nat) / ((d.rampTil - d.rampAt : Nat) : Rat)
  else d.level
/-- A new level takes effect: a running driver steps; a ramp is aimed anew from its present value at the end time it had (R101,
R133). -/
def Driver.takeLevel (d : Driver) (now lvl : Nat) : Driver :=
  if d.on && decide (lvl ≠ d.level) then
    if d.ramp then { d with rampV := d.present now, rampAt := now, level := lvl } else { d with level := lvl, stepAt := some now }
  else { d with level := lvl }
/-- TJ_FOLD affects the chains of every enabled driver: an interval begins and ends with the driver's enable (R148). -/
def State.foldTrack (s : State) (x : Nat) : State :=
  let mine (f : FaultIv) : Bool := f.code == 0x1471 && decide (f.scope = .driver x) && f.t1.isNone
  let now := s.clk.mclk
  if s.bit .monTempStatus 1 && (s.drv x).en then
    match s.mon.faults.find? mine with
    | some _ => s
    | none => s.setFaults (s.mon.faults ++ [{ code := 0x1471, scope := .driver x, t0 := now, t1 := none, ev := now }])
  else s.setFaults (s.mon.faults.map fun f => if mine f then { f with t1 := some now } else f)
/-- What a boundary puts in force of EXC_CTRLx and EXC_LEVELx; `en` as written. In FAULT nothing switches on (R100, R101, R149, R298). -/
def State.nextDriver (s : State) (x : Nat) : Driver :=
  let d := s.drv x
  let en := s.bit (.excCtrl x) 0
  let can := s.vexcOk && !s.shut && s.proto.dev != .fault
  let lvl := s.fld (.excLevel x) 13 0
  let set : Driver := { d with wire6 := s.bit (.excCtrl x) 8, senseOnly := s.bit (.excCtrl x) 9, restart := false
                               hicMax := s.fld (.excCtrl x) 15 12, rampSel := s.fld (.excCtrl x) 11 10 }
  if en && (!d.en || d.restart) then
    let up : Driver := { set with en := true, on := can, ramp := false, limit := false, level := lvl, hiccup := false, hiccups := 0
                                  lockout := false, faultOff := false, overload := 0, overAt := none }
    if can then up.startRamp s.clk.mclk else up
  else if !en && d.en then { set with en := false, on := false, ramp := false, hiccup := false, limit := false, level := lvl }
  else set.takeLevel s.clk.mclk lvl
/-- EXC_CTRLx and EXC_LEVELx take effect. Turning on or off, a restart, leaving hiccup, a level step, the re-aiming of a ramp, and a
change of WIRE6 or SENSE_ONLY are excitation changes (R100 to R102). -/
def State.applyDriver (s : State) (x : Nat) : State :=
  let d := s.drv x
  let n := s.nextDriver x
  let change := n.on != d.on || (n.on && d.restart) || n.hiccup != d.hiccup || n.wire6 != d.wire6 || n.senseOnly != d.senseOnly ||
    (n.on && decide (n.level ≠ d.level))
  let s' := s.setDrv x n
  let s' := if change then s'.excChange x else s'
  (if n.on && (!d.on || d.restart) then s'.driverOn x else s').foldTrack x
/-- Chains that follow a generator (R105). -/
def State.genMask (s : State) (x : Nat) : Nat := chainMask fun n => decide (s.genDriver n = some x)
/-- A pair that swaps with a generator has its ports exchanged while the generator is in reversed polarity (R111; DESIGN CHOICE, log
entry 112). -/
def State.followPol (s : State) (x : Nat) : State :=
  (List.range 8).foldl (fun s n =>
    if (s.isrc n).swapEn ∧ (s.isrc n).swapGen = x then s.modIsrc n fun d => { d with swapped := (s.drv x).pol } else s) s
/-- A generator takes a polarity at the present edge, with the periods blanked from it (R103 to R105). -/
def State.setPol (s : State) (x : Nat) (pol : Bool) (blank : Nat) : State :=
  (s.modDrv x fun d => { d with pol := pol, chops := (s.clk.mclk, true, pol, blank) :: d.chops }).followPol x
/-- EXC_CHOPx takes effect; `newDiv`: a new tick divider takes effect at this boundary. A phase origin that finds the generator in
normal polarity reverses nothing and blanks nothing (R100, R102, R104, R105). -/
def State.applyChop (s : State) (x : Nat) (newDiv : Bool) : State :=
  let d := s.drv x
  let en := s.bit (.excChop x) 31
  let h := s.fld (.excChop x) 22 0
  let b := s.fld (.excChop x) 30 23
  let now := s.clk.mclk
  let back := if d.pol then b else 0
  if en && !d.chopEn then
    ((s.setDrv x { d with chopEn := true, half := h, blank := b, chopOrg := now }).setPol x false 64).disturb (maskChains (s.genMask x))
  else if !en && d.chopEn then
    ((s.setDrv x { d with chopEn := false, half := h, blank := b, pol := false, chops := (now, false, false, 0) :: d.chops }).followPol
      x).disturb (maskChains (s.genMask x))
  else if en && decide (h ≠ d.half ∨ b ≠ d.blank) then
    ((s.setDrv x { d with half := h, blank := b, chopOrg := now }).setPol x false back).disturb (maskChains (s.genMask x))
  else if en && newDiv then (s.setDrv x { d with chopOrg := now }).setPol x false back
  else s.setDrv x { d with half := h, blank := b }
/-- Port that a source drives, exchanged within its pair while swapped (R111). -/
def State.isrcPort (s : State) (n : Nat) : Nat :=
  if (s.isrc n).swapped then (s.isrc (if n % 2 = 0 then n + 1 else n - 1)).port else (s.isrc n).port
/-- ISRC_CFGn and the pair's ISRC_PAIRp come into force; in FAULT nothing switches on (R100, R111, R149, R298). -/
def State.setSource (s : State) (n : Nat) : State :=
  let d := s.isrc n
  let en := s.bit (.isrcCfg n) 15
  let swap := s.bit (.isrcPair (n / 2)) 0
  let gen := s.fld (.isrcPair (n / 2)) 2 1
  s.setIsrc n { d with en := en, on := en && (d.on || !d.en || d.restart) && !s.shut && s.proto.dev != .fault
                       port := s.fld (.isrcCfg n) 13 8
                       code := s.fld (.isrcCfg n) 7 0, restart := false, swapEn := swap, swapGen := gen
                       swapped := swap && (s.drv gen).pol }
/-- The sources take effect together. A source that turns on or off, starts afresh, or changes its code or port is an excitation change
for the chains that carried it or carry it now (R100, R102). -/
def State.applySources (s : State) : State :=
  let t := (List.range 8).foldl State.setSource s
  (List.range 8).foldl (fun u n =>
    let d := s.isrc n
    let e := t.isrc n
    if d.on = e.on ∧ (!d.on ∨ (!d.restart ∧ d.code = e.code ∧ s.isrcPort n = t.isrcPort n)) then u
    else u.disturb ((List.range 24).filter fun c => (d.on && s.takesSource n c) || (e.on && t.takesSource n c))) t
/-- Every pending driver, source and chop write takes effect together (R100). -/
def State.applyExc (s : State) (newDiv : Bool) : State :=
  let s := ((List.range 4).foldl State.applyDriver s).applySources
  (List.range 4).foldl (fun s x => s.applyChop x newDiv) s

/-! ### Events of drivers and generators -/

/-- Edge at which a generator took its latest polarity. -/
def State.chopEdge (s : State) (x : Nat) : Nat :=
  match (s.drv x).chops with
  | [] => (s.drv x).chopOrg
  | c :: _ => c.1
/-- The edge at which a generator reverses next (R103). -/
def State.reversalAt (s : State) (x : Nat) : Nat := s.chopEdge x + (s.drv x).half
/-- CHOP_REVERSAL: HALF periods after the latest edge the generator reverses and its blanking starts (R103, R105, R111). -/
def chopReversal (x : Nat) (s : State) : State :=
  if !(s.drv x).chopEn then s
  else
    let s := s.advanceTo (s.reversalAt x)
    s.setPol x (!(s.drv x).pol) (s.drv x).blank

/-- RAMP_END: at its end time the ramp reaches its level, an excitation change (R101, R102). -/
def rampEnd (x : Nat) (s : State) : State :=
  if (s.drv x).ramp then
    let s := s.advanceTo (s.drv x).rampTil
    (s.modDrv x fun d => { d with ramp := false }).excChange x
  else s
/-- A number held between two bounds. -/
def clampNat (lo hi v : Nat) : Nat := max lo (min hi v)
/-- Current limit of a driver in µA: 180 mA ± 15 %, or 90 mA ± 15 % while TJ_FOLD holds (R98, R148). -/
def State.driverLimit (s : State) (x : Nat) : Nat :=
  if s.bit .monTempStatus 1 then clampNat 76500 103500 (Sys2Proof.driverLimit x true)
  else clampNat 153000 207000 (Sys2Proof.driverLimit x false)
/-- The overload timer over the loads of a driver: it counts while the limit is active, holds while it is not, clears after 61,440 periods
without it; the edge at which it reaches 61,440 (R98). -/
def Driver.overload10ms (lim : Nat) (d : Driver) : List Spell → Driver × Option Nat
  | [] => (d, none)
  | l :: ls =>
    if l.load < lim ∨ l.stop ≤ l.start ∨ l.start < d.overAt.getD 0 then d.overload10ms lim ls
    else
      let c := if d.overAt.any (fun e => decide (e + 61440 ≤ l.start)) then 0 else d.overload
      if 61440 ≤ c + (l.stop - l.start) then ({ d with overload := 61440, overAt := some (l.start + (61440 - c)) }, some (l.start + (61440 - c)))
      else { d with overload := c + (l.stop - l.start), overAt := some l.stop }.overload10ms lim ls
/-- A driver enters hiccup, or lockout when HICCUP_MAX in force is reached (R99, R143). -/
def State.enterHiccup (s : State) (x : Nat) : State :=
  let n := min 255 ((s.drv x).hiccups + 1)
  let m := (s.drv x).hicMax
  let lock := decide (m ≠ 0 ∧ m ≤ n)
  let s := (s.driverOff x).modDrv x fun d =>
    { d with hiccup := true, hicAt := s.clk.mclk, hiccups := n, overload := 0, overAt := none, lockout := d.lockout || lock }
  s.faultsOpen (s.offIv (0x1418 + x) x :: if lock then [s.offIv (0x141c + x) x] else [])
/-- What a driver's loads do to its overload timer; at its end the driver enters hiccup (R98, R99). -/
def State.loads (s : State) (x : Nat) (ls : List Spell) : State :=
  let (d, hit) := (s.drv x).overload10ms (s.driverLimit x) ls
  let s := s.setDrv x d
  match hit with
  | none => s
  | some e => (s.advanceTo e).enterHiccup x
/-- HICCUP_ENTRY: the overload timer runs over the loads of a driver that is ON, to its end, where the driver enters hiccup or lockout
(R98, R99, R143). -/
def hiccupEntry (x : Nat) (ls : List Spell) (s : State) : State := if (s.drv x).on then s.loads x ls else s
/-- HICCUP_RESTART: 614,400 MCLK periods after its entry the driver leaves hiccup with its ramp, unless it is locked out or may not
drive (R63, R99, R149). -/
def hiccupRestart (x : Nat) (s : State) : State :=
  if (s.drv x).en && (s.drv x).hiccup && !(s.drv x).lockout && s.vexcOk && !s.shut then
    let s := s.advanceTo ((s.drv x).hicAt + 614400)
    ((s.modDrv x fun d => { d.startRamp s.clk.mclk with on := true, hiccup := false }).excChange x).driverOn x
  else s
/-- OVERLOAD_TIMER_CLEAR: the loads of a driver that is ON end, and 61,440 MCLK periods later the timer clears (R98). -/
def overloadTimerClear (x : Nat) (ls : List Spell) (s : State) : State :=
  if !(s.drv x).on then s
  else
    let s := s.loads x ls
    match (s.drv x).overAt with
    | none => s
    | some e => (s.advanceTo (e + 61440)).modDrv x fun d => { d with overload := 0, overAt := none, limit := false }

end Sys2Proof.Machine
end

