-- ==== Sys2Proof/Machine/Monitor.lean ====
section
/-! DEFINITION. Front ends (R113 to R127), fault monitors (R132 to R146) and the die temperature (R147 to R149). -/

namespace Sys2Proof.Machine

/-! ### Front ends -/

/-- A channel feeds the enabled balance loop (R121). -/
def State.feedsLoop (s : State) (n : Nat) : Bool :=
  s.bit .beoLoopCfg 31 && decide (s.fld .beoLoopCfg 5 0 = n ∨ s.fld .beoLoopCfg 11 6 = n)
/-- Write of AFE_CFGnn (R116, R124). -/
def afeCfgWrite (n : Nat) (v : W32) (s : State) : Except Rej State :=
  let gain := bits v.toNat 3 0
  let intsel := bits v.toNat 19 16
  let badGain := if n < 16 then decide (9 ≤ gain) else if n < 20 then decide (gain ≠ 0) else decide (2 ≤ gain)
  if badGain || decide (14 ≤ intsel) || decide (n < 20 ∧ intsel ≠ 0) || decide (5 ≤ bits v.toNat 10 8) then .error (.badParam, [])
  else if s.chBusy n then .error (s.chConflict [n])
  else .ok (s.setReg (.afeCfg n) (v &&& 0xf070f))
/-- Write of AFE_TIAn. VBIAS waits for IDLE; a feedback step is at once in force while the chain is IDLE, a pending start included (R116,
R119, R121, R316). -/
def afeTiaWrite (n : Nat) (v : W32) (s : State) : Except Rej State :=
  let fb := bits v.toNat 2 0
  let vb := bits v.toNat 27 16
  let nn := 16 + n
  if 1500 < vb then .error (.badParam, [])
  else if s.chBusy nn && decide (vb ≠ s.fld (.afeTia n) 27 16) then .error (s.chConflict [nn])
  else if s.feedsLoop nn && decide (fb ≠ s.fld (.afeTia n) 6 4) then .error (s.conflict 0x31 1)
  else
    let s := (s.setFld (.afeTia n) 27 16 vb).setFld (.afeTia n) 2 0 fb
    .ok (if (s.ch nn).st ≠ .idle then s else (s.setFld (.afeTia n) 6 4 fb).recompute nn)
/-- A new feedback step takes effect at a tick boundary (R121, R122). -/
def State.applyRange (s : State) (n : Nat) : State :=
  let fb := s.fld (.afeTia n) 2 0
  let nn := 16 + n
  if fb = s.fld (.afeTia n) 6 4 then s
  else
    let s := s.setFld (.afeTia n) 6 4 fb
    let s := (s.restartSettle nn).event (0x1300 + 0x10 * n + fb) s.now (s.queuesFor [nn])
    (s.setReg (.sluGd nn) (s.gdWord nn (s.bank nn))).setReg (.sluGdnx nn) (s.gdWord nn (1 - s.bank nn))
/-- A channel reads an internal node (R124). -/
def State.readsNode (s : State) (n : Nat) : Bool := decide (20 ≤ n ∧ s.inp n = 63 ∧ s.inn n = 63)
/-- The reference rules of a CHAN_START and of an EBB_ARM (R113, R115, R381). -/
def State.refOk (s : State) (n : Nat) : Bool :=
  let gen := match s.refDriver n with
    | some x => !(s.drvEnabled x && s.genEnabled x && decide (s.fld (.apChsel n) 19 18 = 1)) || decide (s.fld (.apChsel n) 17 16 = x)
    | none => true
  (s.fld (.afeCfg n) 10 8 == 0 || !(decide (16 ≤ n ∧ n < 20) || s.readsNode n)) && gen
/-- The reference and internal-node rules of a CHAN_START (R113, R115, R124). A TIA channel whose ports have not role 1 does not start:
R119 names no refusal, the model answers BAD_PARAM (DESIGN CHOICE, log entry 114). -/
def State.frontOk (s : State) (n : Nat) : Bool :=
  let intsel := s.fld (.afeCfg n) 19 16
  let roles := !decide (16 ≤ n ∧ n < 20) || (decide (s.role (s.inp n) = 1) && decide (s.role (s.inn n) = 1))
  s.refOk n && roles && (if s.readsNode n then decide (intsel ≠ 0) else decide (intsel = 0))
/-- The open flagged interval ends before an MCLK period. -/
def closeFlag (m : Nat) : List (Nat × Option Nat) → List (Nat × Option Nat)
  | (a, none) :: l => (a, some m) :: l
  | l => l
/-- The sticky over-range bit of a channel rises: source 3 fires where it was clear (R126). -/
def State.ovlRise (s : State) (n : Nat) : State :=
  let t := s.setBit .afeOvl n true
  if s.bit .afeOvl n then t else t.irqFire 3
/-- OVER_RANGE_FLAG: the comparator of a powered channel flags the MCLK periods from here on, or no longer does (R126). -/
def overRangeFlag (n : Nat) (hit : Bool) (s : State) : State :=
  if (s.ch n).st = .idle then s
  else
    let now := s.clk.mclk
    let s := (s.setBit .afeStatus n hit).modCh n fun c =>
      { c with ovrs := if hit then (if c.ovlNow then c.ovrs else (now, none) :: c.ovrs) else closeFlag now c.ovrs, ovlNow := hit }
    if hit then s.ovlRise n else s
/-- MODULATOR_CLEAR: the integrators are cleared after 16 periods at their limits. Those periods and that of the clear are flagged ones,
in outputs still in the engine too; the modulator then goes on (R126, R127). -/
def modulatorClear (n : Nat) (s : State) : State :=
  if (s.ch n).st = .idle then s
  else
    let a := s.clk.mclk - 16
    let s := s.modCh n fun c =>
      let k := if c.ovlNow then 1 else 0
      { c with ovrs := c.ovrs.take k ++ (a, some (s.clk.mclk + 1)) :: c.ovrs.drop k }
    let mark (j : Job) : Job := if j.source = n ∧ a < j.b ∧ !j.left then { j with flags := j.flags ||| flagOVR } else j
    ({ s with eng := { s.eng with jobs := s.eng.jobs.map mark } }).ovlRise n
/-- Write of AFE_CTRL: CLR_OVL clears AFE_OVL. A comparator that flags now sets its bit again in the next MCLK period, which is a rise
(R126); the model makes clear and rise one step, with one event for all (DESIGN CHOICE, log entry 115). -/
def afeCtrlWrite (v : W32) (s : State) : State :=
  if v.getLsbD 0 then
    let on := (List.range 24).filter fun n => (s.ch n).ovlNow
    let t := on.foldl (fun t n => t.setBit .afeOvl n true) (s.setReg .afeOvl 0)
    if on.isEmpty then t else t.irqFire 3
  else s

/-! ### Monitors -/

/-- Code of a monitored fault (R143). -/
def faultCode : FaultKind → Nat
  | .low x => 0x1400 + x | .high x => 0x1404 + x | .fsp x => 0x1408 + x | .fsn x => 0x140c + x
  | .sat x => 0x1410 + x | .ref x => 0x1414 + x | .comp n => 0x1428 + n | .cm nn => 0x1440 + nn
/-- The monitor is active, or only blanked (R132, R133). -/
def State.monActive (s : State) : FaultKind → Bool
  | .low x | .high x => (s.drv x).on && s.bit (.monExcCtrl x) 0
  | .fsp x | .fsn x => (s.drv x).on && (s.drv x).wire6 && s.bit (.monExcCtrl x) 1
  | .sat x => (s.drv x).on
  | .ref x => (List.range 24).any fun n => decide ((s.ch n).st ≠ .idle) && decide (s.refDriver n = some x)
  | .comp n => (s.isrc n).on
  | .cm nn => decide ((s.ch nn).st ≠ .idle) && s.bit (.monCm nn) 31
/-- Edge of a generator's latest reversal: its record, newest first, changes polarity there; a generator starts in normal polarity
(R103, R104). -/
def lastReversal : List (Nat × Bool × Bool × Nat) → Option Nat
  | [] => none
  | e :: rest => if e.2.2.1 = (rest.head?.map fun b => b.2.2.1).getD false then lastReversal rest else some e.1
/-- The window and force-to-sense checks are blanked now: while the driver ramps or is in hiccup, after a reversal, after a level step
(R133). A condition that began inside a blanking is detected when it still holds at its end (R140). -/
def State.monBlanked (s : State) (m : FaultKind) : Bool :=
  match m with
  | .low x | .high x | .fsp x | .fsn x =>
    let d := s.drv x
    let now := s.clk.mclk
    d.ramp || d.hiccup || (d.chopEn && (lastReversal d.chops).any fun e => decide (now < e + d.blank)) ||
      d.stepAt.any fun e => decide (now < e + 64)
  | _ => false
/-- The unit of a monitored fault (R141). -/
def faultScope : FaultKind → FaultScope
  | .low x | .high x | .fsp x | .fsn x | .sat x | .ref x => .driver x
  | .comp n => .source n
  | .cm nn => .chain nn
/-- MCLK periods in a number of HFRC periods at nominal frequencies, rounded upwards (R67; log entry 116). -/
def State.hfrcM (s : State) (n : Nat) : Nat := ceilDiv (if s.onPll then n * 64 / 125 else n / 2) s.tPerM
/-- MCLK periods for which a condition must hold: 96 HFRC periods, or Q (R132). -/
def State.qualTime (s : State) : FaultKind → Nat
  | .cm nn => max (s.hfrcM 48000) (2 * s.decimD nn)
  | _ => s.hfrcM 96
/-- MCLK periods for which a condition must be absent: 6,144, or Q (R140). -/
def State.absentTime (s : State) : FaultKind → Nat
  | .cm nn => s.qualTime (.cm nn)
  | _ => 6144
/-- What the comparator saw lies beyond the limit: the window scaled by the level in force over LEVEL_REF, FS_LIM, VEXC − 0.25 V, 0.25 V,
VSUP − 1 V, or CM_LO to the lower of CM_HI and VSUP − 0.2 V (R132, R133, R137, R138). -/
def State.exceeds (s : State) (d : Detection) : Bool :=
  let ref (x : Nat) : Int := s.fld (.monExcLearn x) 29 16
  let lvl (x : Nat) : Int := (s.drv x).level
  match d.kind with
  | .low x => decide (d.q * ref x < (s.fld (.monExcWin x) 27 16 : Int) * 50 * lvl x)
  | .high x => decide ((s.fld (.monExcWin x) 11 0 : Int) * 50 * lvl x < d.q * ref x)
  | .fsp x | .fsn x => decide ((s.fld (.monExcCtrl x) 15 10 : Int) * 25000 < |d.q|)
  | .sat _ => decide (d.sup - 250000 < d.q)
  | .ref _ => decide (d.q < 250000)
  | .comp _ => decide (d.sup - 1000000 < d.q)
  | .cm nn => decide (d.q < (s.fld (.monCm nn) 28 16 : Int) * 1000) ||
      decide (min ((s.fld (.monCm nn) 12 0 : Int) * 1000) (d.sup - 200000) < d.q)
/-- A monitor judges a condition as a fault now. -/
def State.judged (s : State) (d : Detection) : Bool := s.monActive d.kind && !s.monBlanked d.kind && s.exceeds d
/-- Status bits of a monitored fault, set or cleared; a set bit sets its sticky copy (R143). -/
def State.faultBits (s : State) (m : FaultKind) (on : Bool) : State :=
  let exc (x i : Nat) : State :=
    let s := s.setBit (.monExcStatus x) i on
    if on then s.setBit (.monExcStatus x) (6 + i) true else s
  match m with
  | .low x => exc x 0
  | .high x => exc x 1
  | .fsp x => exc x 2
  | .fsn x => exc x 3
  | .sat x => exc x 4
  | .ref x => exc x 5
  | .comp n =>
    let s := s.setBit .monIsrc n on
    if on then s.setBit .monIsrc (8 + n) true else s
  | .cm nn =>
    let s := s.setBit .monCmAct nn on
    if on then s.setBit .monCmStky nn true else s
/-- The driver that OFF_ON_FAULT switches off on a fault (R136). -/
def State.offOnFault (s : State) : FaultKind → Option Nat
  | .low x | .high x | .fsp x | .fsn x | .sat x => if s.bit (.monExcCtrl x) 3 then some x else none
  | _ => none
/-- Status bits that follow the comparator rather than the fault (MON_EXCx_STATUS, MON_ISRC). -/
def liveBits : FaultKind → Bool
  | .sat _ | .ref _ | .comp _ => true
  | _ => false
/-- The condition of an active fault ends, or returns while its clearing is not yet qualified (R137, R140). -/
def State.conditionAt (s : State) (m : FaultKind) (gone : Option Nat) : State :=
  let s := if liveBits m then s.faultBits m gone.isNone else s
  s.setFaults (s.mon.faults.map fun f => if f.code = faultCode m ∧ f.t1 = none then { f with gone := gone } else f)
/-- Detections of one kind count once. -/
def onceEach (ds : List Detection) : List Detection :=
  ds.foldl (fun l d => if l.any fun e => decide (e.kind = d.kind) then l else l ++ [d]) []
/-- Conditions judged as faults together: one whose fault is active still holds; for the others the status bits are set and OFF_ON_FAULT
switches drivers off. The intervals and stamps that are to be opened (R136, R140, R143). -/
def State.detect (s : State) (hits : List Detection) : State × List (FaultIv × Stamp) :=
  let new := (onceEach hits).filter fun d => !s.faultOn (faultCode d.kind)
  let s := (hits.filter fun d => s.faultOn (faultCode d.kind)).foldl (fun s d => s.conditionAt d.kind none) s
  let s := new.foldl (fun s d => s.faultBits d.kind true) s
  let ivs := new.map fun d =>
    (({ code := faultCode d.kind, scope := faultScope d.kind, t0 := d.tM, t1 := none, ev := s.clk.mclk } : FaultIv), s.stampOf d.tM d.tF)
  let (s, offs) := s.driversFaultOff ((List.range 4).filter fun x => new.any fun d => decide (s.offOnFault d.kind = some x))
  (s, ivs ++ offs)
/-- The monitors' clocks run: RUN and DOZE, and HOLD while drivers and sources are kept driving (R369, R375). -/
def State.watching (s : State) : Bool := s.fabricOn || (decide (s.pwr.st = .hold) && s.bit .pwrMode 4)
/-- FAULT_DETECT: conditions qualify as faults in one SYSCLK cycle, each after its detection time from the moment it began. One that its
monitor does not judge then, or whose fault is active, is no detection (R132, R136, R138, R140 to R143). -/
def faultDetect (ds : List Detection) (s : State) : State :=
  if !s.watching then s
  else
    let s := if s.fabricOn then ds.foldl (fun s d => s.advanceTo (d.tM + s.qualTime d.kind)) s else s
    let (s, fs) := s.detect (ds.filter s.judged)
    s.faultsOpen fs
/-- The monitor that a fault code names. -/
def codeKind (c : Nat) : Option FaultKind :=
  if 0x1400 ≤ c ∧ c < 0x1404 then some (.low (c - 0x1400))
  else if 0x1404 ≤ c ∧ c < 0x1408 then some (.high (c - 0x1404))
  else if 0x1408 ≤ c ∧ c < 0x140c then some (.fsp (c - 0x1408))
  else if 0x140c ≤ c ∧ c < 0x1410 then some (.fsn (c - 0x140c))
  else if 0x1410 ≤ c ∧ c < 0x1414 then some (.sat (c - 0x1410))
  else if 0x1414 ≤ c ∧ c < 0x1418 then some (.ref (c - 0x1414))
  else if 0x1428 ≤ c ∧ c < 0x1430 then some (.comp (c - 0x1428))
  else if 0x1440 ≤ c ∧ c < 0x1458 then some (.cm (c - 0x1440))
  else none
/-- A clearing can qualify: also while the monitors run in an Ebb cycle (R140, R146). -/
def State.clearing (s : State) : Bool := s.watching || (decide (s.pwr.st = .ebb) && s.ebb.cycling)
/-- A monitored fault clears; in an Ebb cycle its clearing record waits for the packet of the cycle (R143, R146; log entry 167). -/
def State.monitorClose (s : State) (code : Nat) (tm : Stamp) : State :=
  if s.pwr.st = .ebb then
    { s.faultEnd code s.clk.mclk with ebb := { s.ebb with notes := s.ebb.notes ++ [eventUnit (code + 0x80) tm] } }
  else s.faultClose code s.clk.mclk tm
/-- FAULT_CLEAR: the condition of an active fault ends in MCLK period `tM`, FRC `tF`; `done`: it has then stayed absent long enough, the
interval ends there, and the clearing record carries the end of the condition (R137, R140, R143). -/
def faultClear (code tM tF : Nat) (done : Bool) (s : State) : State :=
  match codeKind code, s.mon.faults.find? fun f => f.code == code && f.t1.isNone with
  | some m, some f =>
    if !s.clearing then s
    else
      let e := f.gone.getD tM
      let s := s.conditionAt m (some e)
      if !done then s
      else
        let s := if s.clocked then s.advanceTo (e + s.absentTime m) else s
        (s.faultBits m false).monitorClose code (s.stampOf e tF)
  | _, _ => s

/-- LEARN_COMPLETE: 65,536 MCLK periods after its start the learn ends with the averaged current in units of 50 µA; `ok`: the driver was
not limiting throughout (R134). Limits that would leave their 12-bit fields are held at 0 and 4,095 (DESIGN CHOICE, log entry 117). A learn
that fails runs on, and LEARN_FAIL is set at its end (DESIGN CHOICE, log entry 168). -/
def learnComplete (x i : Nat) (ok : Bool) (s : State) : State :=
  let d := s.drv x
  if d.learn < 2 then s
  else
    let s := s.advanceTo (d.learnAt + 65536)
    let s := s.setDrv x { d with learn := 0 }
    if d.learn = 2 ∧ ok then
      let m := s.fld (.monExcCtrl x) 9 6
      let lo := min (i * (64 - m) / 64) (i - 10)
      let hi := min 4095 (max (ceilDiv (i * (64 + m)) 64) (i + 10))
      (((s.setFld (.monExcLearn x) 11 0 i).setFld (.monExcLearn x) 29 16 d.level).setFld (.monExcWin x) 27 16 lo).setFld
        (.monExcWin x) 11 0 hi
    else s.setBit (.monExcStatus x) 13 true
/-- A requested learn starts at a tick boundary (R134). -/
def State.startLearn (s : State) (x : Nat) : State :=
  s.modDrv x fun d =>
    if d.learn = 1 then { d with learn := if d.on && !d.ramp && !d.limit then 2 else 3, learnAt := s.clk.mclk } else d
/-- Write of MON_EXCx_CTRL (R133, R134). LEARN while a learn is pending or under way drops it, and a new one starts at the next tick
boundary (DESIGN CHOICE, log entry 118). -/
def monExcCtrlWrite (x : Nat) (v : W32) (s : State) : Except Rej State :=
  let fs := bits v.toNat 15 10
  if fs = 0 ∨ 40 < fs ∨ bits v.toNat 9 6 = 0 then .error (.badParam, [])
  else if v.getLsbD 0 && decide (s.fld (.monExcWin x) 11 0 ≤ s.fld (.monExcWin x) 27 16) then .error (.badParam, [])
  else
    let s := s.setReg (.monExcCtrl x) (v &&& 0xffcb)
    .ok (if v.getLsbD 2 then s.modDrv x fun d => { d with learn := 1 } else s)
/-- Write of MON_CMnn (R138). -/
def monCmWrite (n : Nat) (v : W32) (s : State) : Except Rej State :=
  if v.getLsbD 31 && decide (bits v.toNat 12 0 ≤ bits v.toNat 28 16) then .error (.badParam, [])
  else .ok (s.setReg (.monCm n) (v &&& 0xffff1fff))
/-- Write of MON_TEMP_CFG. -/
def monTempCfgWrite (v : W32) (s : State) : Except Rej State :=
  let w := bits v.toNat 7 0
  if w < 60 ∨ 125 < w then .error (.badParam, []) else .ok (s.setReg .monTempCfg (BitVec.ofNat 32 w))
/-- Write of MON_CTRL. -/
def monCtrlWrite (v : W32) (s : State) : State :=
  let s := if v.getLsbD 0 then
      (List.range 4).foldl (fun s x => (s.setFld (.monExcStatus x) 11 6 0).setBit (.monExcStatus x) 13 false) s
    else s
  let s := if v.getLsbD 1 then (s.setReg .monCmStky 0).setFld .monIsrc 15 8 0 else s
  if v.getLsbD 2 then s.setFld .monTempStatus 6 4 0 else s
/-- EXC_STATUSx from the state in force. -/
def State.excStatus (s : State) (x : Nat) (limit : Bool) : W32 :=
  let d := s.drv x
  BitVec.ofNat 32 (d.hiccups * 256 + d.lockout.toNat * 32 + d.hiccup.toNat * 16 + limit.toNat * 8 + d.pol.toNat * 4
    + d.ramp.toNat * 2 + d.on.toNat)
/-- MON_EXCx_STATUS. -/
def State.monExcStatusWord (s : State) (x : Nat) : W32 :=
  let d := s.drv x
  putBits (putBits (s.reg (.monExcStatus x)) 14 14 d.faultOff.toNat) 12 12 (decide (d.learn ≠ 0)).toNat
/-- ISRC_STATUS: a source that drives its port complies unless it has lost compliance now (R137). -/
def State.isrcStatusWord (s : State) : W32 :=
  let bitsOf (f : Nat → Bool) : Nat := sumTo 8 fun n => (f n).toNat * 2 ^ n
  BitVec.ofNat 32 ((sumTo 4 fun p => (s.isrc (2 * p)).swapped.toNat * 2 ^ p) * 65536
    + bitsOf (fun n => (s.isrc n).on && !s.bit .monIsrc n) * 256 + bitsOf fun n => (s.isrc n).on)

/-! ### Die temperature -/

/-- An emulator output switched off by hardware (R149, and the rule of its chapter): high impedance, OFF_FAULT. -/
def Beo.shutOff (b : Beo) : Beo :=
  if b.on || b.slept then { b with on := false, slept := false, offFault := true, code := 0 } else b
/-- The balance loop goes to OFF: its integrator is cleared, and leaving HOLD writes its event (R405, R407). -/
def State.loopOff (s : State) : State :=
  if s.loop.st = 0 then s
  else
    let s := if s.loop.st = 3 then s.event (0x1c10 + s.fld .beoLoopCfg 30 30) s.now s.queuesAll else s
    { s with loop := { s.loop with st := 0, i70 := 0, clamp := false } }
/-- Emulator outputs and loop are switched off by hardware (R149, R403, R407). -/
def State.emulatorsOff (s : State) : State := { s.loopOff with beo0 := s.beo0.shutOff, beo1 := s.beo1.shutOff }
/-- TJ_SHUT: drivers, sources and emulator outputs are switched off; the faults of the drivers (R149). -/
def State.thermalOff (s : State) : State × List (FaultIv × Stamp) :=
  let (s, fs) := s.driversFaultOff (List.range 4)
  let s := (List.range 8).foldl (fun s n =>
    (if (s.isrc n).on then (s.modIsrc n fun d => { d with on := false }).disturb (maskChains (s.srcMask n)) else s).unpulse (4 + n)) s
  (s.emulatorsOff, fs)
/-- One threshold judged on two consecutive readings: `k` numbers it, `hi` and `lo` are its levels (R147). -/
def State.threshold (s : State) (k : Nat) (q hi lo : Int) : State × Bool × Bool :=
  let on := s.bit .monTempStatus k
  let prev := cellGet s.mon.hot k 0
  let hit := if on then decide (q < lo) else decide (hi ≤ q)
  let s1 := { s with mon := { s.mon with hot := cellSet s.mon.hot k (if hit then prev + 1 else 0) } }
  if hit ∧ 1 ≤ prev then
    let s2 := { s1 with mon := { s1.mon with hot := cellSet s1.mon.hot k 0 } }
    if on then (s2.setBit .monTempStatus k false, false, true)
    else ((s2.setBit .monTempStatus k true).setBit .monTempStatus (4 + k) true, true, false)
  else (s1, false, false)
/-- The fault of a thermal threshold, which names no unit (R143). -/
def State.thermalIv (s : State) (code : Nat) : FaultIv × Stamp :=
  ({ code := code, scope := .none, t0 := s.clk.mclk, t1 := none, ev := s.clk.mclk }, s.now)
/-- TEMP_READING: the die converter reads `q` quarter degrees; faults of one reading follow in ascending code order. The clearing record
of a threshold carries the time of the reading that clears it (R143, R147 to R149; DESIGN CHOICE, log entry 119). -/
def tempReading (q : Int) (s : State) : State :=
  let enabled := (List.range 4).any (fun x => (s.drv x).en) || (List.range 8).any fun n => (s.isrc n).en
  if s.pwr.st = .off ∨ (s.pwr.st = .hold ∧ enabled = false) then s
  else
    let s := s.setFld .monTempStatus 31 20 (BitVec.ofInt 12 q).toNat
    let warn : Int := s.fld .monTempCfg 7 0
    let (s, up0, down0) := s.threshold 0 q (4 * warn) (4 * (warn - 5))
    let (s, up1, down1) := s.threshold 1 q 540 520
    let (s, up2, down2) := s.threshold 2 q 600 480
    let (s, offs) := if up2 then s.thermalOff else (s, [])
    let s := s.faultsOpen (offs ++ (if up0 then [s.thermalIv 0x1470] else []) ++ (if up1 then [s.thermalIv 0x1471] else []) ++
      if up2 then [s.thermalIv 0x1472] else [])
    let s := (List.range 4).foldl State.foldTrack s
    let s := if down0 then s.faultClose 0x1470 s.clk.mclk s.now else s
    let s := if down1 then s.faultClose 0x1471 s.clk.mclk s.now else s
    if down2 then s.faultClose 0x1472 s.clk.mclk s.now else s
/-- MON_CMVnn, refreshed every 6,144 HFRC periods (128 µs): the value of a refresh is the hub's input, free, and stays until the next (R138;
log entry 116). -/
def State.cmvRead (s : State) (n : Nat) : State × W32 :=
  if (s.ch n).st = .idle then (s, 0)
  else
    let slot := s.clk.frc * 1000 / 3145728 + 1
    let x := cellGet s.mon.cmv n (0, 0)
    if x.1 = slot then (s, BitVec.ofNat 32 x.2)
    else
      let (t, b) := s.draw 13
      ({ t with mon := { t.mon with cmv := cellSet t.mon.cmv n (slot, b.toNat) } }, b.setWidth 32)

end Sys2Proof.Machine
end

