-- ==== Sys2Proof/Machine/Sluice.lean ====
section
/-! DEFINITION. The chain's registers, coefficient memory, bank swaps and syncs (R150 to R176, R427). -/

namespace Sys2Proof.Machine

/-- A write of a chain field register (R4, R30, R151, R427). -/
def chainFieldWrite (r : Reg) (n : Nat) (v : W32) (s : State) : Except Rej State :=
  let bad := match r with
    | .sluCic _ => decide (bits v.toNat 21 20 = 3)
    | .sluIir _ => decide (bits v.toNat 29 28 = 3 ∨ bits v.toNat 25 24 = 0)
    | _ => false
  if bad then .error (.badParam, [])
  else if s.chBusy n then .error (s.chConflict [n])
  else withBudget s ((s.setReg r (v &&& BitVec.ofNat 32 r.spec.rw)).recompute n)

/-! ### Coefficient memory -/

/-- Bank and index that SLU_COEF_ADDR selects. -/
def State.coefSel (s : State) : Nat × Nat := (s.fld .sluCoefAddr 12 12, s.fld .sluCoefAddr 11 0)
/-- The word that the coefficient port shows (R153, R160). -/
def State.coefPort (s : State) : Int :=
  let (b, i) := s.coefSel
  if s.bit .sluCoefAddr 13 then
    if i ≤ 10 then (halfbandWord i).toInt else if i = 11 then 0x400000000 else 0
  else s.coefAt b i
/-- A HI access advances INDEX while INC is 1 (R160). -/
def State.coefNext (s : State) : State :=
  if s.bit .sluCoefAddr 31 then s.setFld .sluCoefAddr 11 0 ((s.coefSel.2 + 1) % 4096) else s
/-- Chains whose coefficient block holds an index. -/
def State.blocksAt (s : State) (i : Nat) : List Nat := (List.range 24).filter (s.inBlock · i)
/-- Commit of a coefficient word (R160, R161, R427). -/
def coefCommit (c : Int) (s : State) : Except Rej State :=
  let (b, i) := s.coefSel
  if s.bit .sluCoefAddr 13 then .error (.badAddr, [])
  else
    match (s.blocksAt i).filter fun n => s.chBusy n && (s.bank n == b || (s.ch n).swap) with
    | n :: _ => .error (s.chConflict [n])
    | [] =>
      let s := { s with coef := memSet s.coef (b * 4096 + i) (BitVec.ofInt 36 c) 0 }
      .ok ((s.blocksAt i).foldl State.recompute s).coefNext
/-- Write of SLU_ECC. -/
def sluEccWrite (v : W32) (s : State) : State := if v.getLsbD 31 then s.setReg .sluEcc 0 else s

/-! ### Bank swap -/

/-- A swap takes effect at an edge: BANK, the reported values, the event record with a stamp and the milestone; a restart of the settle
count where RESTART is 1 (R163, R164, R229). -/
def State.swapWith (s : State) (n e : Nat) (tm : Stamp) : State :=
  let s := (s.setFld (.sluBank n) 0 0 (1 - s.bank n)).setBit (.sluBank n) 1 false
  let s := (s.modCh n fun c => { c with swap := false, swapAt := none }).recompute n
  let s := if s.bit (.sluBank n) 8 then s.restartAt n e else s
  (s.event (0x1500 + n) tm (s.queuesFor [n])).milestone n 2
/-- A swap takes effect at a swap edge, whose corrected time its event carries (R163). -/
def State.swapNow (s : State) (n e : Nat) : State := s.swapWith n e (s.stampEdge e)
/-- The earliest edge at which a swap requested now may take effect: one MCLK period on (R163, R174). -/
def State.swapFirst (s : State) : Nat := s.nextEdge + 1
/-- A swap of the chain is pending and may take effect at an edge (R163, R174). -/
def State.swapDue (s : State) (n e : Nat) : Bool := (s.ch n).swap && decide ((s.ch n).swapFrom ≤ e)
/-- A swap whose edge has come takes effect there; else one that is due takes effect at edge `e`, which is a swap edge (R163, R173). -/
def State.takeSwap (s : State) (n e : Nat) : State :=
  match (s.ch n).swapAt with
  | some m => s.swapNow n m
  | none => if s.swapDue n e then s.swapNow n e else s
/-- Write of SLU_BANKnn (R163). The seal is checked before (R6). -/
def sluBankWrite (n : Nat) (v : W32) (s : State) : Except Rej State :=
  let t := s.setBit (.sluBank n) 8 (v.getLsbD 8)
  if !v.getLsbD 31 then .ok t
  else if !s.chainOk n (1 - s.bank n) then .error (.badParam, [])
  else if (s.ch n).swap then .error (s.chConflict [n])
  else if s.chBusy n then
    .ok (((t.modCh n fun c => { c with swap := true, swapFrom := s.swapFirst, swapAt := none }).setBit (.sluBank n) 1 true).setReg (.sluGdnx n) (t.gdWord n (1 - t.bank n)))
  else .ok (t.swapWith n s.clk.mclk s.now)
/-- SWAP_EDGE: a pending swap whose edge was an output boundary takes effect there, behind the output (R163, R173). -/
def swapEdge (n : Nat) (s : State) : State :=
  match (s.ch n).swapAt with
  | some e => s.swapNow n e
  | none => s

/-! ### Modulator front: demodulator and CIC -/

/-- Unit of the values that enter the integrators: every mean over 1 to 64 periods is whole in it (R105; log entry 36). -/
def cicUnit : Nat := (List.range 64).foldl (fun a k => Nat.lcm a (k + 1)) 1
/-- Modulus of the CIC registers: 52 bits above the unit (R152). -/
def cicMod : Nat := 2 ^ 52 * cicUnit
/-- The integrators take one value. -/
def integrate : List Int → Int → List Int
  | [], _ => []
  | a :: l, x => let y := (a + x) % cicMod; y :: integrate l y
/-- The combs take one value: their new contents and the result. -/
def combs : List Int → Int → List Int × Int
  | [], v => ([], v)
  | c :: l, v => let (l', o) := combs l ((v - c) % cicMod); (v :: l', o)
/-- The quotient by R^N as a 36-bit value; +1 has no such value (R152; log entry 31). -/
def cicValue (v : Int) (r n : Nat) : Int :=
  let w := (v + cicMod / 2) % cicMod - cicMod / 2
  let q := divRound (w * 2 ^ 35) (r ^ n * cicUnit)
  if q = 2 ^ 35 then Sys2Proof.cicPlusOne.toInt else q
/-- Clear the CIC integrators and combs (R170). -/
def Filt.clearCic (f : Filt) : Filt := { f with integ := [], comb := [], cicPh := 0 }
/-- Clear the histories that the engine holds (R170). -/
def Filt.clearEngine (f : Filt) : Filt := { f with hb1 := [], hb2 := [], fir := [], rank := [], iir := {}, dec := [], lastDec := {} }
/-- One modulator output of MCLK period `p` goes through the demodulator, the blanking and the integrators (R105, R152); a CIC
output every R periods. Every reversal blanks its own periods, whatever the generator does after it. An output of the power-up is
discarded: it counts as 0 (R125; log entry 159). -/
def State.frontStep (s : State) (n p : Nat) (x : Int) (f : Filt) : Filt × Option Int :=
  let x := if p < (s.ch n).powered then 0 else x
  let past := ((s.genDriver n).elim [] fun g => (s.drv g).chops).filter fun e => decide (e.1 ≤ p)
  let running := past.head?.elim false (·.2.1)
  let inverted := running && past.head?.elim false (·.2.2.1) && decide (s.fld (.apChsel n) 19 18 = 1)
  let blanked := running && past.any fun e => decide (p < e.1 + e.2.2.2)
  let d := if inverted then -x else x
  let fresh : Int := if f.recent.isEmpty then 0 else f.recent.sum * cicUnit / f.recent.length
  let mean := if running && past.any (fun e => e.1 == p && decide (0 < e.2.2.2)) then fresh else f.mean
  let v : Int := if blanked then mean else d * cicUnit
  let order := s.cicN n
  let integ := integrate (if f.integ.length = order then f.integ else List.replicate order 0) v
  let f := { f with integ := integ, mean := mean, recent := if p < (s.ch n).powered then [] else (d :: f.recent).take 64, cicPh := f.cicPh + 1 }
  if s.cicR n ≤ f.cicPh then
    let (c, o) := combs (if f.comb.length = order then f.comb else List.replicate order 0) (integ.getLastD 0)
    ({ f with comb := c, cicPh := 0 }, some (cicValue o (s.cicR n) order))
  else (f, none)
/-- Consecutive modulator outputs from MCLK period `p` on: the front's new contents and the CIC outputs. -/
def State.frontRun (s : State) (n : Nat) : Nat → List Int → Filt → Filt × List Int
  | _, [], f => (f, [])
  | p, x :: xs, f =>
    let (f, o) := s.frontStep n p x f
    let (f, os) := s.frontRun n (p + 1) xs f
    (f, o.elim os fun v => v :: os)

/-! ### Sync -/

/-- The first MCLK edge after the present moment: for a sync, one that is at least 2 SYSCLK cycles on, for a TCLK period has as many (R69,
R171). -/
def State.syncAt (s : State) : Nat := s.clk.mclk + 1
/-- Request a sync at an edge of every group of a mask (R171). -/
def State.syncFor (s : State) (m : Nat) (route : Bool) (e : Nat) : State :=
  { s with syncs := s.syncs ++ ((List.range 8).filter fun g => m / 2 ^ g % 2 == 1).map fun g => (g, route, e) }
/-- Request a sync now of every group of a mask (R171). -/
def State.syncReq (s : State) (m : Nat) (route : Bool) : State := s.syncFor m route s.syncAt
/-- A sync edge at or before an edge has not come yet: on one edge it precedes the changes of a tick boundary and a chop reversal
(R173). -/
def State.syncOwed (s : State) (e : Nat) : Bool := s.syncs.any fun x => decide (x.2.2 ≤ e)
/-- The reference of a chain is VREF: its REF names it, or both inputs of a direct channel are internal (R113, R124). -/
def State.onVref (s : State) (n : Nat) : Bool :=
  s.fld (.afeCfg n) 10 8 == 0 || (decide (20 ≤ n) && decide (s.inp n = 63 ∧ s.inn n = 63))
/-- Some chain that satisfies a test has an output boundary, or its origin, at or before an edge that no command has brought yet: on one
edge it comes first (R173). -/
def State.edgeOwed (s : State) (p : Nat → Bool) (e : Nat) : Bool :=
  (List.range 24).any fun n =>
    let c := s.ch n
    p n && decide (c.st ≠ .idle) && (if c.live then decide (c.lastB + s.decimD n ≤ e) else decide (c.origin < e))
/-- A chain is reset at a sync edge (R168, R170): a due swap comes first (R173, R174), and a chain on its way to its origin goes on to
wait for VREF (R81). `xs` are the modulator outputs since its last boundary, of which only the mean of
R105 keeps a trace. The histories that the engine holds are emptied by the first output after the edge. A chain that still powers up
counts its boundaries from the edge, and its settle count from its first input (R125, R170; DESIGN CHOICE, log entry 159). -/
def State.syncChain (s : State) (n now : Nat) (xs : List Int) : State :=
  let f := (s.frontRun n (now - xs.length) xs (s.ch n).filt).1
  let s := s.takeSwap n now
  let s := s.modCh n fun c => { c with vrefWait := if c.live then c.vrefWait else s.onVref n && !s.bit .bootStatus 1
                                       origin := now, live := true, lastB := now, resetAt := now, settleAt := max now c.powered, synNext := true
                                       fresh := true, filt := f.clearCic
                                       st := if c.st = .running then .settling else c.st }
  s.milestone n 3
/-- The chains of a group that are not IDLE (R170). -/
def State.groupRuns (s : State) (g n : Nat) : Bool := decide ((s.ch n).st ≠ .idle) && decide (s.syncGroup n = some g)
/-- SYNC_EDGE: the oldest request of a group finds its edge: every chain of the group that is not IDLE restarts; the SYNC output pulses
(R170 to R172). Outputs at that edge come first (R173). A second request of one edge resets once. `xs`: the modulator outputs of the
output periods that the edge cuts short, by chain. -/
def syncEdge (g : Nat) (xs : List (Nat × List Int)) (s : State) : State :=
  match s.syncs.find? fun x => x.1 == g with
  | none => s
  | some (_, _, e) =>
    if s.edgeOwed (s.groupRuns g) e then s
    else
      let s := { s with syncs := s.syncs.eraseP fun x => x.1 == g }
      let s := s.advanceTo e
      if s.syncLast.any fun x => x.1 == g && x.2 == e then s
      else
        let s := { s with syncLast := cellSet s.syncLast g e }
        let s := ((List.range 24).filter (s.groupRuns g)).foldl (fun s n => s.syncChain n e (cellGet xs n [])) s
        if s.bit .sluSyncCtrl 4 && decide (s.fld .sluSyncCtrl 2 0 = g) then { s with syncPin := true } else s
/-- SYNC_PIN_PULSE_END: 16 MCLK periods after the latest sync edge of PIN_GRP (R172). -/
def syncPinPulseEnd (s : State) : State :=
  if cellGet s.syncLast (s.fld .sluSyncCtrl 2 0) 0 + 16 ≤ s.clk.mclk then { s with syncPin := false } else s
/-- Write of SLU_SYNC_CTRL (R171, R172). -/
def syncCtrlWrite (v : W32) (s : State) : State := (s.setReg .sluSyncCtrl (v &&& 0x17)).syncReq (bits v.toNat 23 16) false

/-! ### Starting and stopping -/

/-- Start-pending or restarting chains of an accepted start (R316); SAT clears and the reported values are fixed (R427). -/
def State.startChain (s : State) (n : Nat) : State :=
  (s.modCh n fun c => { c with startPend := true, sat := false }).recompute n
/-- An accepted stop (R316). -/
def State.stopChain (s : State) (n : Nat) : State :=
  s.modCh n fun c => if c.st = .idle then { c with startPend := false } else { c with stopPend := true, startPend := false }
/-- A chain enters IDLE at a tick boundary: the output in progress is discarded, the front end powers down, a coefficient error
and a staged SSH end (R125, R169, R180). -/
def State.chainIdle (s : State) (n : Nat) : State :=
  let c := s.ch n
  let s := match c.ssh with
    | some v => s.setFld (.sclCfg n) 5 0 v
    | none => s
  let s := s.setBit .afeStatus n false
  (s.setCh n { sat := c.sat, swap := c.swap, swapFrom := c.swapFrom, swapAt := c.swapAt, startPend := c.startPend
               filt := c.filt }).markCtx n false
/-- A chain leaves IDLE: it powers up and its origin lies 128 MCLK periods on; a coefficient error of the check of its start stands (R125,
R162, R169). -/
def State.chainPower (s : State) (n : Nat) : State :=
  let o := s.clk.mclk + 128
  let s := { s with past := cellDrop s.past (64 + n) }
  s.modCh n fun c =>
    { c with st := if c.ecc then .faulted else .settling, startPend := false, live := false, origin := o, powered := o, fresh := true
             settleAt := o, resetAt := o, lastB := o, filt := { c.filt.clearCic with recent := [], mean := 0 } }
/-- What a tick boundary does to a chain's pending start or stop, and to a swap that an IDLE chain still waits for (R163, R169, R316). -/
def State.chainBoundary (s : State) (n : Nat) : State :=
  let s := if (s.ch n).swapAt.isSome then s.takeSwap n s.clk.mclk else s
  let s := if (s.ch n).stopPend then s.chainIdle n else s
  if (s.ch n).st ≠ .idle then s
  else if (s.ch n).startPend then s.chainPower n
  else s.takeSwap n s.clk.mclk
/-- The device returns to CONFIG when the last chain is IDLE and the loop disabled (R297). -/
def State.backToConfig (s : State) : State :=
  if s.proto.dev = .run ∧ !s.anyBusy ∧ !s.bit .beoLoopCfg 31 then { s with proto := { s.proto with dev := .config } } else s
/-- CHAIN_ORIGIN: the first CIC input, from which boundaries count; a due swap takes effect there; the settle count of a VREF chain waits
for VREF (R81, R125, R163, R169). -/
def chainOrigin (n : Nat) (s : State) : State :=
  if (s.ch n).st = .idle ∨ (s.ch n).live then s
  else
    let o := (s.ch n).origin
    let s := (s.advanceTo o).takeSwap n o
    s.modCh n fun c => { c with live := true, lastB := o, resetAt := o, settleAt := max o c.settleAt
                                vrefWait := s.onVref n && !s.bit .bootStatus 1 }
/-- VREF_SETTLED: the settle count of chains that waited starts (R81). -/
def vrefSettled (s : State) : State :=
  let s := s.setBit .bootStatus 1 true
  (List.range 24).foldl (fun s n =>
    if (s.ch n).vrefWait then s.modCh n fun c => { c with vrefWait := false, settleAt := s.clk.mclk } else s) s

/-- SLU_STATEnn.SETTLE_LEFT: records of later boundaries whose nominal window begins before the latest restart (R168). -/
def State.settleLeft (s : State) (n : Nat) : Nat :=
  let c := s.ch n
  if c.st = .idle then 0
  else
    let w := s.winNow n
    if c.vrefWait then min 65535 (ceilDiv w (s.decimD n))
    else min 65535 (ceilDiv (c.settleAt + w - c.lastB) (s.decimD n) - 1)
/-- The chain's next record carries SYN: of its next output, or of one in the engine (R11, R170). -/
def State.synDue (s : State) (n : Nat) : Bool :=
  (s.ch n).synNext || s.eng.jobs.any fun j => j.source == n && !j.fin && decide (j.flags &&& flagSYN ≠ 0)
/-- SLU_STATEnn. -/
def State.sluStateWord (s : State) (n : Nat) : W32 :=
  let c := s.ch n
  BitVec.ofNat 32 (s.settleLeft n * 65536 + c.sat.toNat * 64 + c.ecc.toNat * 32 + (s.synDue n).toNat * 16 + chCode c.st)

end Sys2Proof.Machine
end

