-- ==== Sys2Proof/Machine/Results.lean ====
section
/-! DEFINITION. From chain outputs to results: scaling, derived streams, linearisation, detectors, statistics (R177 to R203), and
their registers. The engine calls the item functions; the commands call the rest. -/

namespace Sys2Proof.Machine

/-! ### Past outputs -/

/-- Kept outputs under a key, newest first: scaled values under the stream, records under 64 + the stream. -/
def State.pastOf (s : State) (k : Nat) : List Past := cellGet s.past k []
/-- Drop what no later item can ask for: everything older than the newest entry before the tick that precedes the last two. -/
def trimPast (edge : Nat) : List Past → List Past
  | [] => []
  | p :: ps => if p.b < edge then [p] else p :: trimPast edge ps
/-- An output joins the kept ones, newest first by boundary: lanes may finish outputs out of their order (R31). -/
def insertPast (p : Past) : List Past → List Past
  | [] => [p]
  | q :: l => if q.b ≤ p.b then p :: q :: l else q :: insertPast p l
/-- Keep an output. -/
def State.keepPast (s : State) (k : Nat) (p : Past) : State :=
  { s with past := cellSet s.past k (trimPast (s.eng.prevTickAt - s.eng.div) (insertPast p (s.pastOf k))) }

/-- Name of the record of a job. -/
def Job.ref (j : Job) : Ref := (j.source, j.b, j.org)
/-- The record's own flags as they stand now: faults detected since are marked (R142); a damaged output carries FLT (R21, R162). -/
def State.ownFlags (s : State) (j : Job) : BitVec 6 :=
  let hit := j.wins.any fun w => s.mon.faults.any fun f => s.inScope f.scope w.1 && ivHit (f.t0, f.t1) w.2.1 w.2.2
  j.flags ||| flagIf (hit || j.bad) flagFLT ||| flagIf j.lim flagOVR
/-- The flags of a record in the engine, none where it has left, with what it takes over from others there; the first number bounds the
depth. -/
def State.refFlags (s : State) : Nat → Ref → BitVec 6
  | 0, _ => 0
  | k + 1, r =>
    match s.eng.jobs.find? fun j => !j.left && decide (j.ref = r) with
    | none => 0
    | some j => j.refs.foldl (fun a x => a ||| (s.refFlags k x.1 &&& x.2)) (s.ownFlags j)
/-- Flags of an output as they stand now: its own, and those that it takes over from records still in the engine (R142, R178, R191,
R198). -/
def State.flagsNow (s : State) (j : Job) : BitVec 6 :=
  j.refs.foldl (fun a x => a ||| (s.refFlags 40 x.1 &&& x.2)) (s.ownFlags j)
/-- A record leaves the engine with its final flags: what refers to it keeps them (R142, R178, R191, R198). -/
def State.settleRef (s : State) (r : Ref) (fs : BitVec 6) : State :=
  let job (j : Job) : Job :=
    { j with flags := (j.refs.filter fun x => decide (x.1 = r)).foldl (fun a x => a ||| (fs &&& x.2)) j.flags
             refs := j.refs.filter fun x => decide (x.1 ≠ r) }
  let past (p : Past) : Past := if p.b = r.2.1 ∧ p.org = r.2.2 then { p with flags := p.flags ||| fs } else p
  let s := { s with eng := { s.eng with jobs := s.eng.jobs.map job }
                    past := cellSet s.past (64 + r.1) ((s.pastOf (64 + r.1)).map past) }
  (List.range 8).foldl (fun s x =>
    s.modDet x fun d =>
      { d with flags := if d.refs.contains r then d.flags ||| fs else d.flags, refs := d.refs.filter fun q => decide (q ≠ r)
               hist := d.hist.map fun h => if h.2 = some r then (h.1 ||| fs, none) else h }) s

/-! ### Scaling -/

/-- Scaling of a chain output: value and whether it saturated (R179). -/
def scaled (x zero azt span : Int) (ssh : Nat) : Int × Bool := sat36 (rshift ((x - zero - azt) * span) ssh)
/-- Scaling of a job's value with the registers of its chain (R179, R180, R213). -/
def State.scaleOf (s : State) (n : Nat) (j : Job) : Int × Bool :=
  scaled j.val (s.pair (.sclZeroLo n) (.sclZeroHi n)) (j.azt.getD (s.pair (.sclAztLo n) (.sclAztHi n)))
    (s.pair (.sclSpanLo n) (.sclSpanHi n)) (s.fld (.sclCfg n) 5 0)
/-- Largest magnitude of AZT of a chain in units of 2^−35 (R181). -/
def State.aztLim (s : State) (n : Nat) : Int := s.fld (.sclCfg n) 31 8 * 128
/-- Commit of a ZERO pair (R180). -/
def sclZeroCommit (n : Nat) (v : Int) (s : State) : Except Rej State := .ok (s.setPair (.sclZeroLo n) (.sclZeroHi n) v)
/-- Commit of a SPAN pair, with a staged SSH (R180). -/
def sclSpanCommit (n : Nat) (v : Int) (s : State) : Except Rej State :=
  let s := s.setPair (.sclSpanLo n) (.sclSpanHi n) v
  match (s.ch n).ssh with
  | some k => .ok ((s.setFld (.sclCfg n) 5 0 k).modCh n fun c => { c with ssh := none })
  | none => .ok s
/-- Unit uu is an enabled zero-tracking unit whose target is a chain. -/
def State.tracks (s : State) (u n : Nat) : Bool :=
  s.bit (.meldCfg u) 31 && s.fld (.meldCfg u) 11 8 == 4 && s.fld (.meldP2 u) 4 0 == n
/-- A host commit of AZT cancels corrections on their way and every period not yet judged; the next period starts at the next tick
boundary (R213, R214). -/
def Meld.hostZero (m : Meld) (edge : Nat) (now : Stamp) : Meld :=
  { m with atLimit := false, corr := []
           zt := m.zt.map fun p => { p with ok := false, til := some (p.til.getD edge), tE := if p.til.isSome then p.tE else now } }
/-- Commit of an AZT pair by the host (R181, R214). -/
def sclAztCommit (n : Nat) (v : Int) (s : State) : Except Rej State :=
  if s.aztLim n < |v| then .error (.badParam, [])
  else
    let s := s.setPair (.sclAztLo n) (.sclAztHi n) v
    let s := { s with eng := { s.eng with jobs := s.eng.jobs.map fun j => if j.source = n then { j with azt := none } else j } }
    .ok ((List.range 16).foldl (fun s u =>
      if s.tracks u n then s.modMeld u fun m => m.hostZero s.clk.mclk s.now else s) s)
/-- Write of SCL_CFGnn: SSH is staged while the chain is not IDLE; a pending start leaves it IDLE (R180). -/
def sclCfgWrite (n : Nat) (v : W32) (s : State) : Except Rej State :=
  let k := bits v.toNat 5 0
  if 47 < k then .error (.badParam, [])
  else
    let s := s.setFld (.sclCfg n) 31 8 (bits v.toNat 31 8)
    .ok (if (s.ch n).st ≠ .idle then s.modCh n fun c => { c with ssh := some k } else s.setFld (.sclCfg n) 5 0 k)

/-! ### User blocks and curves -/

/-- Address at which user-table memory ends (R20). -/
def State.tableEnd (s : State) : Nat := 0x10000000 + s.fld .regionBound 3 0 * 0x40000
/-- Number of entry words that a header calls for (R192). -/
def blockWords (curve h : Nat) : Nat :=
  let n := bits h 10 0
  if curve = 13 then n + 1 else if curve = 14 then 2 * n else n + 4 * (n - 1)
/-- Entry k of a stream's block (R191). -/
def State.entry (s : State) (n k : Nat) : Int := ((s.sramWord (s.blockAddr n + 8 * (k + 1))).setWidth 36).toInt
/-- Values that rise strictly. -/
def rising : List Int → Bool
  | [] => true
  | [_] => true
  | a :: b :: l => decide (a < b) && rising (b :: l)
/-- The check of a user block (R192, R193). -/
def State.blockOk (s : State) (n curve : Nat) : Bool :=
  let h := (s.blockHead n).toNat
  let sz := bits h 10 0
  let a := s.blockAddr n
  let w := blockWords curve h
  let sizes := if curve = 13 then decide (1 ≤ sz ∧ sz ≤ 7) else if curve = 14 then decide (2 ≤ sz ∧ sz ≤ 1024)
    else decide (2 ≤ sz ∧ sz ≤ 512)
  let psh := if curve = 14 then decide (bits h 23 16 = 0) else decide (bits h 23 16 ≤ 47)
  decide (a + 8 * (1 + w) ≤ s.tableEnd) && decide (bits h 31 28 = curve) && decide (bits h 27 24 = 0) &&
  decide (bits h 15 11 = 0) && sizes && psh &&
  (curve == 13 || rising ((List.range sz).map (s.entry n))) &&
  decide ((crc32 ((List.range (8 * w)).map fun i => s.sramByte (a + 8 + i))).toNat = bits h 63 32)
/-- A stream's user block, where it uses one, passes its check (R193). -/
def State.userOk (s : State) (n : Nat) : Bool := decide (s.curve n < 13) || s.blockOk n (s.curve n)
/-- A byte address lies in the block that a producing stream uses (R193). -/
def State.blockInUse (s : State) (a : Nat) : Bool :=
  (List.range 40).any fun n => decide (13 ≤ s.curve n) && s.producing n &&
    decide (s.blockAddr n ≤ a ∧ a < s.blockAddr n + 8 * (1 + blockWords (s.curve n) (s.blockHead n).toNat))
/-- A byte address lies in the block of a metrological stream (R193). -/
def State.blockMetro (s : State) (a : Nat) : Bool :=
  (List.range 40).any fun n => decide (13 ≤ s.curve n) && s.metroStream n &&
    decide (s.blockAddr n ≤ a ∧ a < s.blockAddr n + 8 * (1 + blockWords (s.curve n) (s.blockHead n).toNat))

/-- Horner's rule over coefficients from the highest; each step rounded and limited; the running value has the format of the
coefficients (R192; log entry 33). -/
def horner (x : Int) : List Int → Int → Bool → Int × Bool
  | [], acc, sat => (acc, sat)
  | c :: cs, acc, sat => let (v, l) := sat36 (rshift (acc * x) 35 + c); horner x cs v (sat || l)
/-- A polynomial by Horner's rule: coefficients from the lowest, realised as raw ÷ 2^PSH (R192; log entry 33). -/
def polyAt (psh : Nat) (cs : List Int) (x : Int) : Int × Bool :=
  match cs.reverse with
  | [] => (0, false)
  | c :: l =>
    let (acc, sat) := horner x l c false
    let (y, lim) := sat36 (if psh ≤ 35 then acc * 2 ^ (35 - psh) else rshift acc (psh - 35))
    (y, sat || lim)
/-- Linear interpolation between points `i` and `i + 1` (R192); the rounding is not stated (log entry 30). -/
def lerp (x0 x1 y0 y1 x : Int) : Int := y0 + looseDiv ((y1 - y0) * (x - x0)) (x1 - x0).toNat
/-- Index of the interval that holds x: the last whose lower end is not above it. -/
def intervalOf (xs : List Int) (x : Int) : Nat := ((xs.filter fun k => decide (k ≤ x)).length - 1)
/-- Curves 14 and 15 of a stream (R189, R192). -/
def State.userAt (s : State) (n : Nat) (x : Int) : Int × Bool :=
  let h := (s.blockHead n).toNat
  let sz := bits h 10 0
  let xs := (List.range sz).map (s.entry n)
  let lo := s.entry n 0
  let hi := s.entry n (sz - 1)
  let out := decide (x < lo ∨ hi < x)
  let c := max lo (min hi x)
  let i := min (intervalOf xs c) (sz - 2)
  if s.curve n = 14 then
    (lerp (s.entry n i) (s.entry n (i + 1)) (s.entry n (sz + i)) (s.entry n (sz + i + 1)) c, out)
  else
    let (y, sat) := polyAt (bits h 23 16) ((List.range 4).map fun k => s.entry n (sz + 4 * i + k)) (c - s.entry n i)
    (y, sat || out)
/-- Curve 5 of a stream (R189, R190). -/
def State.ntc (s : State) (n : Nat) (x : Int) : Int × Bool :=
  let k := s.fld (.linCfg n) 5 4
  thermistor (s.pair (.linNtcALo k) (.linNtcAHi k)) (s.pair (.linNtcBLo k) (.linNtcBHi k)) (s.pair (.linNtcCLo k) (.linNtcCHi k))
    (s.fld (.linCfg n) 20 16) x
/-- Curves 8 to 12 need a cold junction (R188). -/
def State.couples (s : State) (n : Nat) : Bool := decide (8 ≤ s.curve n ∧ s.curve n ≤ 12)
/-- The stream that supplies the cold junction (R191). -/
def State.cj (s : State) (n : Nat) : Nat := s.fld (.linCfg n) 13 8
/-- Records of a stream, newest first: those produced, and those whose value is computed while their flags are not final yet. -/
def State.valued (s : State) (n : Nat) : List Past :=
  let ripe := s.eng.jobs.filter fun j => j.source == n && j.ripe && !j.fin
  ripe.foldl (fun l j => insertPast { b := j.b, val := j.val, flags := s.flagsNow j, meas := j.meas, measF := j.measF, org := j.org } l)
    (s.pastOf (64 + n))
/-- The cold-junction record that a thermocouple output uses (R191). -/
def State.coldJunction (s : State) (n : Nat) (j : Job) : Option Past :=
  let ps := s.valued (s.cj n)
  if j.prio then ps.find? fun p => decide (p.b < j.tick - s.eng.div) else ps.find? fun p => decide (p.b ≤ j.b)
/-- Flags that a thermocouple record takes over from its cold-junction record (R191). -/
def cjFlags : BitVec 6 := flagUNS ||| flagFLT ||| flagOVR
/-- The linearised value of a stream output, whether it carries OVR, and flags it takes over (R188 to R192). Where there is no
cold-junction record the measured EMF alone is inverted: the rule gives only UNS (DESIGN CHOICE, log entry 155). -/
def State.linOf (s : State) (n : Nat) (j : Job) : Int × Bool × BitVec 6 :=
  let x := j.val
  let c := s.curve n
  let std (x : Rat) : Int × Bool := standardCurve c x
  if 1 ≤ c ∧ c ≤ 4 then let (y, o) := std (mkRat x (2 ^ 35)); (y, o, 0)
  else if c = 5 then let (y, o) := s.ntc n x; (y, o, 0)
  else if 8 ≤ c ∧ c ≤ 12 then
    match s.coldJunction n j with
    | some p => let (y, o) := std (mkRat x (2 ^ 35) + coldEmf c p.val); (y, o, p.flags &&& cjFlags)
    | none => let (y, o) := std (mkRat x (2 ^ 35)); (y, o, flagUNS)
  else if c = 13 then
    let h := (s.blockHead n).toNat
    let (y, o) := polyAt (bits h 23 16) ((List.range (bits h 10 0 + 1)).map (s.entry n)) x
    (y, o, 0)
  else if 14 ≤ c then let (y, o) := s.userAt n x; (y, o, 0)
  else (x, false, 0)

/-- Write of LIN_CFGs (R20, R188, R191, R193, R194). -/
def linCfgWrite (n : Nat) (v : W32) (s : State) : Except Rej State :=
  let c := bits v.toNat 3 0
  let cj := bits v.toNat 13 8
  let t := s.setReg (.linCfg n) (v &&& 0x1f3f3f)
  if c = 6 ∨ c = 7 ∨ 24 < bits v.toNat 20 16 ∨ 40 ≤ cj then .error (.badParam, [])
  else if 8 ≤ c ∧ c ≤ 12 ∧ cj = n then .error (.badParam, [])
  else if !t.userOk n then .error (.badParam, [])
  else if s.producing n then .error (if n < 24 then s.chConflict [n] else s.conflict 0xfe 0)
  else withBudget s t
/-- Write of LIN_TBLs. -/
def linTblWrite (n : Nat) (v : W32) (s : State) : Except Rej State := withBudget s (s.setReg (.linTbl n) (v &&& 0x3ffff))

/-! ### Derived streams -/

/-- Selected derived stream and slot. -/
def State.dsSel (s : State) : Nat × Nat := (s.fld .dsSel 8 4, s.fld .dsSel 3 0)
/-- Committed content of the selected slot. -/
def State.dsCur (s : State) : DsSlot := cellGet (s.dsr s.dsSel.1).slots s.dsSel.2 {}
/-- SLOT advances while INC is 1, wrapping 15 to 0. -/
def State.dsNext (s : State) : State := if s.bit .dsSel 31 then s.setFld .dsSel 3 0 ((s.dsSel.2 + 1) % 16) else s
/-- The selected derived stream is enabled. -/
def State.dsSelOn (s : State) : Bool := s.bit (.dsCfg s.dsSel.1) 31
/-- Write of DS_SEL. -/
def dsSelWrite (v : W32) (s : State) : Except Rej State :=
  if 16 ≤ bits v.toNat 8 4 then .error (.badParam, []) else .ok (s.setReg .dsSel (v &&& 0x800001ff))
/-- What DS_WT would commit: the staged EN and SRC, or those in force where no DS_SLOT write is staged, with a weight; a staged
DS_SLOT outlives a write of DS_SEL (DESIGN CHOICE, log entry 156). -/
def State.dsStaged (s : State) (w : Int) : DsSlot := { (s.dsStage.getD s.dsCur) with w := w }
/-- Write of DS_SLOT: staged (R184). -/
def dsSlotWrite (v : W32) (s : State) : Except Rej State :=
  let x : DsSlot := { en := v.getLsbD 31, src := bits v.toNat 5 0, w := s.dsCur.w }
  if s.dsSelOn && decide (x ≠ s.dsCur) then .error (s.conflict 0xfe 0) else .ok { s with dsStage := some x }
/-- Write of DS_WT: commits the staged slot and advances SLOT (R184). -/
def dsWtWrite (v : W32) (s : State) : Except Rej State :=
  let x := s.dsStaged v.toInt
  if s.dsSelOn && decide (x ≠ s.dsCur) then .error (s.conflict 0xfe 0)
  else
    let s := s.modDsr s.dsSel.1 fun d => { d with slots := cellSet d.slots s.dsSel.2 x }
    .ok ({ s with dsStage := none }).dsNext
/-- DS_SLOT as it reads. -/
def State.dsSlotWord (s : State) : W32 := BitVec.ofNat 32 (s.dsCur.en.toNat * 2 ^ 31 + s.dsCur.src)
/-- The slots of a derived stream allow its enable (R184). -/
def State.dsSlotsOk (s : State) (d : Nat) : Bool :=
  let ps := s.dsSlots d
  let cs := s.dsChains 17 d
  !ps.isEmpty && ps.all (fun p => decide (p.2.src < 24 + d)) &&
  cs.all fun c => cs.all fun e => decide (s.rateD c = s.rateD e)
/-- Items of a derived stream that is disabled, or enabled anew, are not run: it produces from then on only (R183, R185). -/
def State.dropDs (s : State) (d : Nat) : State :=
  { s with eng := { s.eng with jobs := s.eng.jobs.filter fun j => decide (j.source ≠ 24 + d) || j.fin } }
/-- Write of DS_CFGdd (R184, R185, R193). -/
def dsEnable (d : Nat) (v : W32) (s : State) : Except Rej State :=
  let was := s.bit (.dsCfg d) 31
  let t := s.setReg (.dsCfg d) (v &&& 0xc0000000)
  if v.getLsbD 31 && !was then
    if !s.dsSlotsOk d || !s.userOk (24 + d) then .error (.badParam, [])
    else
      let t := (t.modDsr d fun x => { x with since := s.clk.mclk, seen := [] }).setFld (.dsStat d) 31 16 0
      withBudget s { (t.dropDs d) with past := cellDrop t.past (64 + 24 + d) }
  else .ok (if v.getLsbD 31 then t else (t.modDsr d fun x => { x with seen := [] }).dropDs d)
/-- Commit of a DS_OFS pair: refused while EN is 1. -/
def dsOfsCommit (d : Nat) (v : Int) (s : State) : Except Rej State :=
  if s.bit (.dsCfg d) 31 then .error (s.conflict 0xfe 0) else .ok (s.setPair (.dsOfsLo d) (.dsOfsHi d) v)
/-- The weighted sum of a derived stream (R183). -/
def dsSum (terms : List (Int × Int)) (ofs : Int) : Int × Bool :=
  sat36 ((terms.foldl (fun a p => a + p.1 * p.2) 0 + ofs * 2 ^ 28 + 2 ^ 27) / 2 ^ 28)
/-- Stages that start with no inputs. -/
def legsOf (l : List Stage) : List Leg := l.map fun t => { st := t }
/-- Note that a source has produced an output for a boundary, counted from an origin, in every derived stream that uses it; a derived
stream all of whose sources have produced one gets an item (R185). -/
def State.dsNotify (s : State) (src b org tick : Nat) : State :=
  (List.range 16).foldl (fun s d =>
    let ps := s.dsSlots d
    if s.bit (.dsCfg d) 31 && ps.any (fun p => p.2.src == src) then
      let here (e : Nat × Nat × List Nat) : Bool := e.1 == b && e.2.1 == org
      let now := src :: ((s.dsr d).seen.find? here).elim [] (·.2.2)
      let rest := (s.dsr d).seen.filter fun e => !here e
      if ps.all fun p => now.contains p.2.src then
        let s := s.modDsr d fun x => { x with seen := rest }
        let j : Job := { source := 24 + d, tick := tick, b := b, org := org
                         todo := legsOf ([.ds] ++ if s.curve (24 + d) = 0 then [] else [.lin])
                         refs := ps.map fun p => ((p.2.src, b, org), BitVec.allOnes 6) }
        { s with eng := { s.eng with jobs := s.eng.jobs ++ [j] } }
      else s.modDsr d fun x => { x with seen := rest ++ [(b, org, now)] }
    else s) s
/-- A chain's output boundary at or before an edge is still to come to the engine (R166). -/
def State.boundaryOwed (s : State) (n e : Nat) : Bool :=
  let c := s.ch n
  decide (c.st ≠ .idle) && decide ((if c.live then c.lastB else c.origin) + s.decimD n ≤ e)
/-- A boundary is decided for a derived stream: every item for it has finished or been abandoned, and its chains have passed it (R185). -/
def State.boundaryDone (s : State) (d b : Nat) : Bool :=
  decide (b < s.clk.mclk) && !((s.dsChains 17 d).any fun n => s.boundaryOwed n b) &&
  !s.eng.jobs.any fun j => decide (j.b = b) && j.todo.any (·.st != .overhead)
/-- Boundaries that some source will not complete count in MISS once they are decided; not those whose missing outputs were
produced before EN was set (R185). -/
def State.dsMisses (s : State) : State :=
  (List.range 16).foldl (fun s d =>
    let done := (s.dsr d).seen.filter fun e => s.boundaryDone d e.1
    if done.isEmpty then s
    else
      let early (e : Nat × Nat × List Nat) : Bool := (s.dsSlots d).all fun p =>
        e.2.2.contains p.2.src || (s.pastOf p.2.src).any fun q => q.b == e.1 && q.org == e.2.1
      let k := (done.filter fun e => !early e).length
      (s.modDsr d fun x => { x with seen := x.seen.filter fun e => !done.contains e }).satAdd (.dsStat d) 31 16 k) s
/-- The kept output of a source for a job's boundary. -/
def State.pastAt (s : State) (k : Nat) (j : Job) : Option Past := (s.pastOf k).find? fun q => q.b == j.b && q.org == j.org
/-- The item of a derived stream: value and measurement time from the kept outputs of its sources, and their flags so far (R178, R183,
R186). -/
def State.dsItem (s : State) (d : Nat) (j : Job) : State × Job :=
  let ps := s.dsSlots d
  let got := ps.filterMap fun p => s.pastAt p.2.src j
  let terms := ps.zip got |>.map fun p => (p.1.2.w, p.2.val)
  let (y, lim) := dsSum terms (s.pair (.dsOfsLo d) (.dsOfsHi d))
  let fs := got.foldl (fun a p => a ||| p.flags) 0
  let times := got.map (·.measF)
  let hi := times.foldl max (times.headD 0)
  let lo := times.foldl min (times.headD 0)
  let s := s.setFld (.dsStat d) 15 0 (min 65535 (ceilDiv (hi - lo).toNat 16))
  let first := got.headD { b := j.b, val := 0, flags := 0, meas := {}, measF := 0 }
  (s, { j with val := y, lim := lim, flags := j.flags ||| fs, meas := first.meas, measF := first.measF, period := first.period })

/-! ### Detectors -/

/-- The new period of a detector: peak, RMS block and envelope cleared (R197), and with them the count of OUT = 1 (DESIGN CHOICE, log
entry 157). -/
def Det.restart (d : Det) : Det := { d with n := 0, lo := 0, hi := 0, sum := 0, env := 0, flags := 0, refs := [], count := 0 }
/-- Write of DT_CFGx. A new MODE or block length starts a new period, without output (DESIGN CHOICE, log entry 157). -/
def dtCfgWrite (x : Nat) (v : W32) (s : State) : Except Rej State :=
  let src := bits v.toNat 13 8
  let anew := decide (bits v.toNat 25 24 ≠ s.fld (.dtCfg x) 25 24 ∨ bits v.toNat 19 16 ≠ s.fld (.dtCfg x) 19 16)
  if bits v.toNat 29 28 = 3 ∨ bits v.toNat 25 24 = 3 ∨ (40 ≤ src ∧ src < 48) ∨ 56 ≤ src then .error (.badParam, [])
  else if s.bit (.dtCfg x) 31 && decide (src ≠ s.fld (.dtCfg x) 13 8) then .error (s.conflict 0xfe 0)
  else
    let t := s.setReg (.dtCfg x) (v &&& 0xffff3f00)
    withBudget s (if anew then t.modDet x Det.restart else t)
/-- Write of DT_COEFx. -/
def dtCoefWrite (x : Nat) (v : W32) (s : State) : Except Rej State :=
  if 23 < bits v.toNat 12 8 then .error (.badParam, []) else .ok (s.setReg (.dtCoef x) (v &&& 0x1f0f))
/-- A request joins those that wait for their edge; requests of one edge are one (R197, R200). -/
def addDue (e : Nat) (routed : Bool) (l : List (Nat × Bool)) : List (Nat × Bool) :=
  if l.any fun p => p.1 == e then l.map fun p => if p.1 = e then (p.1, p.2 || routed) else p else l ++ [(e, routed)]
/-- The latch edge of a request that arrives now: the first MCLK edge at least 2 SYSCLK cycles later (R197). -/
def State.latchEdge (s : State) : Nat := s.clk.mclk + 1
/-- A reset request reaches detectors (R197). -/
def State.detReset (s : State) (m : Nat) (routed : Bool) : State :=
  ((List.range 8).filter fun x => m / 2 ^ x % 2 == 1).foldl (fun s x =>
    s.modDet x fun d => { d with pend := addDue s.latchEdge routed d.pend }) s
/-- MODE of a detector. -/
def State.dtMode (s : State) (x : Nat) : Nat := s.fld (.dtCfg x) 25 24
/-- RMS block length 2^N (R195). -/
def State.dtBlock (s : State) (x : Nat) : Nat := 2 ^ (if s.fld (.dtCfg x) 19 16 = 0 then 16 else s.fld (.dtCfg x) 19 16)
/-- The peak that a detector reports and the time of the input that set it (R195, R198); for PK = 2 the earlier of two inputs of equal
magnitude (DESIGN CHOICE, log entry 157). -/
def peakOf (pk : Nat) (d : Det) : Int × Bool × Moment :=
  match pk with
  | 0 => (d.hi, false, d.tHi)
  | 1 => (d.lo, false, d.tLo)
  | 2 =>
    if |d.lo| < |d.hi| ∨ (|d.lo| = |d.hi| ∧ d.tHi.f ≤ d.tLo.f) then (d.hi, false, d.tHi) else (d.lo, false, d.tLo)
  | _ => let (v, l) := sat36 (d.hi - d.lo); (v, l, if d.tLo.f ≤ d.tHi.f then d.tHi else d.tLo)
/-- Measurement time of a job's record. -/
def Job.moment (j : Job) : Moment := { tm := j.meas, f := j.measF }
/-- Statistics items that take the records of a source: those of running slots, and of slots with a period that is still to become
readable (R199, R200). -/
def State.statsOf (s : State) (n : Nat) : List Stage :=
  ((List.range 32).filter fun i => ((s.stat i).run || !(s.stat i).ending.isEmpty) && s.fld (.statCfg i) 5 0 == n).map Stage.stat
/-- A detector record becomes an output of the engine: statistics may take it, then it leaves (R195, R198). -/
def State.detEmit (s : State) (x b tick : Nat) (v : Int) (lim : Bool) (fs : BitVec 6) (rs : List Ref) (m : Moment) : State :=
  let j : Job := { source := 40 + x, tick := tick, b := b, meas := m.tm, measF := m.f, flags := fs ||| flagIf lim flagOVR
                   refs := rs.map fun r => (r, BitVec.allOnes 6), val := v, stampIt := s.bit (.dtCfg x) 30, ripe := true, fin := true
                   todo := legsOf (s.statsOf (40 + x)) }
  { s with eng := { s.eng with jobs := s.eng.jobs ++ [j] } }
/-- Time of an RMS block: its first input plus half the span of the block, at the RATE of that input's epoch (R198, R261). -/
def State.rmsTime (s : State) (d : Det) (blk : Nat) : Moment :=
  let span := (blk - 1) * d.period * s.tPerM * (if s.onPll then 1000 else 1024)
  let rate := cellGet s.tim.rates d.first.tm.ep 0
  { tm := { d.first.tm with t := d.first.tm.t + (((span * 15625 : Nat) : Int) * (2 ^ 40 + rate) / (2 * 384 * 1000 * 2 ^ 40)).toNat }
    f := d.first.f + 8 * span / 1000 }
/-- Root of a sum of squares in units of 2^−50 over a block (R195); the rounding of the root is not stated (log entry 30). -/
def rmsOf (sum : Int) (blk : Nat) : Int × Bool :=
  let r := (sum * 2 ^ 20).toNat
  let root := Nat.sqrt (r / blk)
  sat36 (if root * root * blk = r then root else root + (Sys2Proof.roundsUp r blk).toNat)
/-- Flags of the inputs that an envelope detector remembers, and those of them that are still in the engine: the last 16 × 2^max(ATK, DCY),
at most 65,536 (R198). -/
def State.envFlags (s : State) (x : Nat) : BitVec 6 × List Ref :=
  let depth := min 65536 (16 * 2 ^ max (s.fld (.dtCoef x) 3 0) (s.fld (.dtCoef x) 12 8))
  let h := (s.det x).hist.take depth
  (h.foldl (fun a e => a ||| e.1) 0, h.filterMap (·.2))
/-- The reference to a record while it is in the engine. -/
def Job.inside (j : Job) : Option Ref := if j.left then none else some j.ref
/-- One input of a detector: new state, and the record it produces (R195 to R198). -/
def State.detInput (s : State) (x : Nat) (j : Job) : State :=
  let v := j.val
  let fs := s.flagsNow j
  let d := s.det x
  let out := s.fld (.dtCfg x) 29 28
  let due (k : Nat) : Bool := out == 0 || (out == 1 && k % 2 ^ s.fld (.dtCfg x) 23 20 == 0)
  match s.dtMode x with
  | 0 =>
    let up := d.n = 0 ∨ d.hi < v
    let dn := d.n = 0 ∨ v < d.lo
    let d := { d with n := d.n + 1, count := d.count + 1, hi := if up then v else d.hi, tHi := if up then j.moment else d.tHi
                      lo := if dn then v else d.lo, tLo := if dn then j.moment else d.tLo
                      flags := d.flags ||| fs, refs := d.refs ++ j.inside.toList }
    let s := s.setDet x d
    let (y, l, t) := peakOf (s.fld (.dtCfg x) 27 26) d
    if due d.count then s.detEmit x j.b j.tick y l d.flags d.refs t else s
  | 1 =>
    let blk := s.dtBlock x
    let d := { d with n := d.n + 1, sum := d.sum + divRound (v * v) (2 ^ 20), flags := d.flags ||| fs, refs := d.refs ++ j.inside.toList
                      first := if d.n = 0 then j.moment else d.first, period := j.period }
    if blk ≤ d.n then
      let (y, l) := rmsOf d.sum blk
      (s.setDet x { d.restart with count := d.count }).detEmit x j.b j.tick y l d.flags d.refs (s.rmsTime d blk)
    else s.setDet x d
  | _ =>
    let a := |v| - d.env
    let k := if 0 < a then s.fld (.dtCoef x) 3 0 else s.fld (.dtCoef x) 12 8
    let (e, l) := sat36 (d.env + looseDiv a (2 ^ k))
    let d := { d with n := d.n + 1, count := d.count + 1, env := e, tLast := some j.moment
                      hist := ((fs ||| flagIf l flagOVR, j.inside) :: d.hist).take 65536 }
    let s := s.setDet x d
    if due d.count then s.detEmit x j.b j.tick e false (s.envFlags x).1 (s.envFlags x).2 j.moment else s
/-- The ending period of a detector: with OUT = 2 a peak or envelope detector outputs it (R196, R197). An envelope detector that has had no
input since power-on has no measurement time to give: a free value (log entry 1). -/
def State.detEnd (s : State) (x e : Nat) : State :=
  let d := s.det x
  let t := s.setDet x { d.restart with latches := d.latches.drop 1 }
  if s.bit (.dtCfg x) 31 && s.fld (.dtCfg x) 29 28 == 2 then
    match s.dtMode x with
    | 0 =>
      if d.n = 0 then t
      else let (y, l, m) := peakOf (s.fld (.dtCfg x) 27 26) d; t.detEmit x e s.eng.tickAt y l d.flags d.refs m
    | 2 =>
      let (t, m) : State × Moment := match d.tLast with
        | some m => (t, m)
        | none => let (t, v) := t.draw 64; (t, { tm := { t := v.toNat } })
      t.detEmit x e s.eng.tickAt d.env false (s.envFlags x).1 (s.envFlags x).2 m
    | _ => t
  else t

/-! ### Which work can still reach a source -/

/-- An output of source `a` can lead to a record of source `c`; the first number bounds the depth. -/
def State.reaches (s : State) : Nat → Nat → Nat → Bool
  | 0, a, c => a == c
  | k + 1, a, c =>
    a == c ||
    (if 24 ≤ c ∧ c < 40 then (s.dsSlots (c - 24)).any fun p => s.reaches k a p.2.src
     else if 40 ≤ c ∧ c < 48 then s.reaches k a (s.fld (.dtCfg (c - 40)) 13 8)
     else false)
/-- MCLK periods, rounded up, by which a sensor-bus record's time lies before its read phase (R333). -/
def State.pollLat (s : State) (k : Nat) : Nat := ceilDiv (s.fld (.sbusSpXtr k) 31 28 * 1572864) (1000 * s.tPerM)
/-- A transaction of a sensor-bus entry can still give a record of a time at or before an edge (R197, R333). -/
def State.pollOwed (s : State) (k e : Nat) : Bool :=
  let p := s.poll k
  if p.busy then decide (p.busyAt ≤ e + s.pollLat k)
  else s.bit .sbusCfg 31 && s.bit (.sbusSpCfg k) 31 && decide (s.clk.mclk < e + s.pollLat k)
/-- A detector can still put out a record of a latch edge at or before an edge. -/
def State.detOwed (s : State) (x e : Nat) : Bool :=
  (s.det x).latches.any (fun l => decide (l ≤ e)) || (s.det x).pend.any fun p => decide (p.1 ≤ e)
/-- A job has a stage still to finish. -/
def Job.owes (j : Job) (st : Stage) : Bool := j.todo.any (·.st == st)
/-- A record of a source with a boundary at or before an edge is still to come: from outputs in the engine (`own` tells for those of the
source itself), from boundaries and transactions that are still to come, from detectors whose period is still to end. -/
def State.toCome (s : State) (src e : Nat) (own : Job → Bool) : Bool :=
  ((List.range 24).any fun n => s.boundaryOwed n e && s.reaches 20 n src) ||
  ((List.range 8).any fun k => s.pollOwed k e && s.reaches 20 (48 + k) src) ||
  ((List.range 8).any fun x => s.detOwed x e && s.reaches 20 (40 + x) src) ||
  s.eng.jobs.any fun j =>
    decide (j.b ≤ e) &&
    if j.source = src then own j
    else (!j.fin && s.reaches 20 j.source src) ||
      (List.range 8).any fun x => j.owes (.det x) && s.reaches 20 (40 + x) src
/-- A record of a source with a boundary at or before an edge can still come to a stage (R197, R200). -/
def State.stillDue (s : State) (src e : Nat) (st : Stage) : Bool := s.toCome src e fun j => !j.fin || j.owes st
/-- Ending periods of a detector that have all their inputs end, oldest first (R197). -/
def State.detSettle (s : State) (x : Nat) : State :=
  (s.det x).latches.foldl (fun s e =>
    if (s.det x).latches.head? = some e && !s.stillDue (s.fld (.dtCfg x) 13 8) e (.det x) then s.detEnd x e else s) s
/-- Resets whose latch edge lies at or before an edge find it (R197). -/
def State.detLatchTo (s : State) (x e : Nat) : State :=
  s.modDet x fun d => { d with latches := d.latches ++ (d.pend.filter fun p => decide (p.1 ≤ e)).map (·.1)
                               pend := d.pend.filter fun p => decide (e < p.1) }
/-- The detector item: an input beyond a latch edge first ends the periods up to it (R197). -/
def State.detItem (s : State) (x : Nat) (j : Job) : State :=
  if !s.bit (.dtCfg x) 31 then s
  else
    let s := s.detLatchTo x (j.b - 1)
    let s := (s.det x).latches.foldl (fun s e => if e < j.b then s.detEnd x e else s) s
    s.detInput x j
/-- The oldest waiting reset of a detector finds its latch edge (R197). -/
def State.detLatch (s : State) (x : Nat) : State :=
  match (s.det x).pend with
  | [] => s
  | (e, _) :: _ => (s.advanceTo e).detLatchTo x e

/-! ### Statistics -/

/-- A statistics slot is stopped; one whose start waits for the tick boundary is not (DESIGN CHOICE, log entry 158). -/
def State.statStopped (s : State) (i : Nat) : Bool := !(s.stat i).run && !(s.stat i).startPend
/-- Write of STAT_CFGss (R202). -/
def statCfgWrite (i : Nat) (v : W32) (s : State) : Except Rej State :=
  if 56 ≤ bits v.toNat 5 0 then .error (.badParam, [])
  else if !s.statStopped i then .error (s.conflict 0xfe 0)
  else .ok (s.setReg (.statCfg i) (v &&& 0x3f00013f))
/-- Write of STAT_PERss (R202). -/
def statPerWrite (i : Nat) (v : W32) (s : State) : Except Rej State :=
  if !s.statStopped i then .error (s.conflict 0xfe 0) else .ok (s.setReg (.statPer i) (v &&& 0xffffff))
/-- Write of STAT_ENA (R202). -/
def statEnaWrite (v : W32) (s : State) : Except Rej State :=
  let t := (List.range 32).foldl (fun t i =>
    if v.getLsbD i then (if s.bit .statEna i then t else t.modStat i fun x => { x with startPend := true })
    else t.modStat i fun x => { x with run := false, startPend := false, pend := [] }) (s.setReg .statEna v)
  withBudget s t
/-- A latch request for slots (R200). -/
def State.statReq (s : State) (m : Nat) : State :=
  ((List.range 32).filter fun i => m / 2 ^ i % 2 == 1).foldl (fun s i =>
    if (s.stat i).run then s.modStat i fun x => { x with pend := addDue s.latchEdge false x.pend } else s) s
/-- The consumer "statistics latch": slots with EVT (R200). -/
def State.statEvent (s : State) : State :=
  (List.range 32).foldl (fun s i =>
    if (s.stat i).run && s.bit (.statCfg i) 8 then s.modStat i fun x => { x with pend := addDue s.latchEdge true x.pend } else s) s
/-- The quantities of a finished set (R201). -/
def latchedOf (c : StatSet) (time seq : Nat) : Latched :=
  if c.n = 0 then { n := 0, nex := c.nex, trunc := c.trunc, time := time, seq := seq }
  else
    { n := c.n, nex := c.nex, trunc := c.trunc, min := c.min, max := c.max
      mean := (sat36 (divRound (c.ref * c.n + c.sum) c.n)).1
      var := (sat36 (divRound (c.n * c.sq - c.sum * c.sum) (c.n * c.n * 2 ^ 35))).1, time := time, seq := seq }
/-- Ended periods whose inputs have all been accumulated or abandoned become readable, oldest first (R200). -/
def State.statSettle (s : State) (i : Nat) : State :=
  (s.stat i).ending.foldl (fun s _ =>
    match (s.stat i).ending with
    | e :: rest =>
      if s.stillDue (s.fld (.statCfg i) 5 0) e.edge (.stat i) then s
      else s.modStat i fun x => { x with ending := rest, pub := latchedOf e.set e.t e.seq }
    | [] => s) s
/-- A period ends at an MCLK edge; the slot restarts, and its selectors fire; causes on one edge latch once (R200, R229). -/
def State.statLatchAt (s : State) (i e : Nat) : State :=
  let x := s.stat i
  if !x.run ∨ x.edge = some e then s
  else
    let seq := (x.seq + 1) % 2 ^ 32
    let done : StatEnd := { edge := e, t := (s.stampEdge e).t, start := x.start, seq := seq, set := x.cur }
    let s := s.setStat i { x with cur := {}, edge := some e, seq := seq, ending := x.ending ++ [done] }
    (List.range 2).foldl (fun s j => if s.fld (.routeSl j) 4 0 = i then s.produceAt (45 + j) .edge else s) s
/-- Requested latches whose edge lies at or before an edge find it, oldest first (R200). -/
def State.statLatchTo (s : State) (i e : Nat) : State :=
  let due := (s.stat i).pend.filter fun p => decide (p.1 ≤ e)
  let s := s.modStat i fun x => { x with pend := x.pend.filter fun p => decide (e < p.1) }
  due.foldl (fun s p => s.statLatchAt i p.1) s
/-- The oldest requested latch of a slot finds its edge (R200). -/
def State.statLatch (s : State) (i : Nat) : State :=
  match (s.stat i).pend with
  | [] => s
  | (e, _) :: _ => (s.advanceTo e).statLatchTo i e
/-- What a tick boundary does to a slot: start, or a period of PER ticks (R200, R202). -/
def State.statTick (s : State) (i : Nat) : State :=
  let x := s.stat i
  let per := s.fld (.statPer i) 23 0
  if x.startPend then
    s.setStat i { x with run := true, startPend := false, ticks := 0, cur := {}, seq := 0, pub := { x.pub with seq := 0 }
                         start := s.clk.mclk, edge := none, pend := [] }
  else if x.run then
    let s := s.statLatchTo i s.clk.mclk
    if per ≠ 0 ∧ per ≤ x.ticks + 1 then (s.modStat i fun x => { x with ticks := 0 }).statLatchAt i s.clk.mclk
    else s.modStat i fun x => { x with ticks := x.ticks + 1 }
  else s
/-- One input into a set (R199, R201). -/
def StatSet.take (c : StatSet) (v : Int) (excluded : Bool) : StatSet :=
  if excluded then { c with nex := Nat.min (2 ^ 32 - 1) (c.nex + 1) }
  else if 4194303 ≤ c.n then { c with trunc := true }
  else if c.n = 0 then { c with n := 1, ref := v, sum := 0, sq := 0, min := v, max := v }
  else
    let d := v - c.ref
    { c with n := c.n + 1, sum := c.sum + d, sq := c.sq + d * d, min := Min.min c.min v, max := Max.max c.max v }
/-- The statistics item: an input goes to the oldest ended period whose latch edge does not precede it, else to the running one; none
takes an input of before its slot started (R199, R200). -/
def State.statItem (s : State) (i : Nat) (j : Job) : State :=
  let s := s.statLatchTo i (j.b - 1)
  let x := s.stat i
  let ex := decide (s.flagsNow j &&& BitVec.ofNat 6 (s.fld (.statCfg i) 29 24) ≠ 0)
  match x.ending.findIdx? fun e => decide (j.b ≤ e.edge) with
  | some k =>
    s.setStat i { x with ending := x.ending.modify k fun e => if j.b ≤ e.start then e else { e with set := e.set.take j.val ex } }
  | none => if !x.run ∨ j.b ≤ x.start then s else s.setStat i { x with cur := x.cur.take j.val ex }
/-- STAT_CNT of the readable set. -/
def Latched.cntWord (l : Latched) : W32 := BitVec.ofNat 32 (l.trunc.toNat * 2 ^ 31 + l.n)
/-- The readable set as its registers show it. -/
def State.statWords (s : State) (i : Nat) : List (Reg × W32) :=
  let l := (s.stat i).pub
  [(.statCnt i, l.cntWord), (.statNex i, BitVec.ofNat 32 l.nex), (.statMinLo i, loWord l.min), (.statMinHi i, hiWord l.min),
   (.statMaxLo i, loWord l.max), (.statMaxHi i, hiWord l.max), (.statMeanLo i, loWord l.mean), (.statMeanHi i, hiWord l.mean),
   (.statVarLo i, loWord l.var), (.statVarHi i, hiWord l.var), (.statTlo i, BitVec.ofNat 32 l.time),
   (.statThi i, BitVec.ofNat 32 (l.time / 2 ^ 32)), (.statSeq i, BitVec.ofNat 32 l.seq)]
/-- Replace the captured words of a source at some registers (R203, R226, R359). -/
def State.capture (s : State) (src : Src) (ws : List (Reg × W32)) : State :=
  { s with caps := (s.caps.filter fun c => !(decide (c.1 = src) && ws.any fun w => w.1.addr == c.2.1)) ++
      ws.map fun w => (src, w.1.addr, w.2) }
/-- The captured word of a source at a register, or the given one. -/
def State.captured (s : State) (src : Src) (r : Reg) (live : W32) : W32 :=
  match s.caps.find? fun c => decide (c.1 = src) && c.2.1 == r.addr with
  | some c => c.2.2
  | none => live
/-- Read of STAT_CNTss, which itself reads the latest set: captures the rest of the set for the reading source (R203). -/
def statCntRead (src : Src) (i : Nat) (s : State) : State := s.capture src ((s.statWords i).drop 1)
/-- The word of a statistics register of slot i for a source; one that has never read STAT_CNTss reads the latest set (DESIGN CHOICE, log
entry 158). -/
def State.statRead (s : State) (src : Src) (i : Nat) (r : Reg) : W32 :=
  s.captured src r (((s.statWords i).find? fun w => decide (w.1 = r)).elim 0 (·.2))

end Sys2Proof.Machine
end

