-- ==== Sys2Proof/Machine/Meld.lean ====
section
/-! DEFINITION. The Meld units: inputs, gates, arms, the eight recognition types, zero tracking, registers (R204 to R226), and the
gate levels that they and the routing fabric read (R232). -/

namespace Sys2Proof.Machine

/-! ### Levels -/

/-- Level at the ball of an EVT pin (R218, R239): driven by the hub in push-pull output mode, pulled low or left to the wire with
an open drain, from outside in input mode; what its isolated pad reads while VIO_S is absent never changes (R44, R241). -/
def State.evtBall (s : State) (p : Nat) : Bool :=
  let drive := s.route.evtOut.getLsbD p != s.bit (.routeEvt p) 30
  if !s.bit (.routeEvt p) 31 then s.route.evtIn.getLsbD p
  else if s.bit (.routeEvt p) 26 then drive && s.route.evtIn.getLsbD p
  else drive
/-- Gate level Gk (R232). -/
def State.gateLevel (s : State) (k : Nat) : Bool :=
  let src := s.fld (.routeGsrc k) 7 0
  if src = 0 then s.route.latch.getLsbD k
  else if src ≤ 16 then (s.meld (src - 1)).state
  else if src ≤ 24 then s.route.gp.getLsbD (src - 17)
  else if src ≤ 48 then decide ((s.ch (src - 25)).st = .running)
  else if src ≤ 56 then s.bit .routeHand (src - 49)
  else false
/-- The signal that a unit's gate selects, before INV (R218). -/
def State.gateSignal (s : State) (u : Nat) : Bool :=
  let k := s.fld (.meldGate u) 5 0
  if k = 0 then true
  else if k ≤ 8 then s.route.gp.getLsbD (k - 1)
  else if k ≤ 16 then s.evtBall (k - 9)
  else s.gateLevel (k - 17)

/-! ### Configuration of a unit -/

/-- Unit enabled. -/
def State.muOn (s : State) (u : Nat) : Bool := s.bit (.meldCfg u) 31
/-- TYPE (R208). -/
def State.muType (s : State) (u : Nat) : Nat := s.fld (.meldCfg u) 11 8
/-- SRC (R204). -/
def State.muSrc (s : State) (u : Nat) : Nat := s.fld (.meldCfg u) 5 0
/-- Parameter A. -/
def State.muA (s : State) (u : Nat) : Int := s.pair (.meldALo u) (.meldAHi u)
/-- Parameter B. -/
def State.muB (s : State) (u : Nat) : Int := s.pair (.meldBLo u) (.meldBHi u)
/-- Hysteresis H. -/
def State.muH (s : State) (u : Nat) : Int := (s.reg (.meldP0 u)).toNat
/-- Run length N: 0 reads as 1 (R208). -/
def State.muN (s : State) (u : Nat) : Nat := max 1 (s.fld (.meldP1 u) 15 0)
/-- The source of a unit is a metrological stream. -/
def State.muMetro (s : State) (u : Nat) : Bool := decide (s.muSrc u < 40) && s.metroStream (s.muSrc u)
/-- A parameter lies outside its range (R208). -/
def State.muParamBad (s : State) (u : Nat) : Bool :=
  match s.muType u with
  | 2 => decide (s.muB u < s.muA u)
  | 3 => decide (s.muA u < 0) || decide (s.fld (.meldP1 u) 11 0 < 2)
  | 4 => decide (s.muA u < 0) || decide (s.muB u < 0) || decide (s.fld (.meldP1 u) 23 0 = 0) || decide (24 ≤ s.fld (.meldP2 u) 4 0)
  | 5 => decide (s.muA u < s.muH u) || decide (s.fld (.meldP1 u) 27 16 = 0)
  | 6 => decide (s.fld (.meldP2 u) 15 0 = 0)
  | 7 => decide (s.muB u < s.muA u) || decide (s.reg (.meldP1 u) = 0) || decide (s.fld (.meldP2 u) 15 0 = 0)
  | 8 => decide (s.reg (.meldP0 u) = 0)
  | _ => false
/-- An enable is refused (R209). -/
def State.muBad (s : State) (u : Nat) : Bool :=
  let q := s.fld (.meldCfg u) 25 22
  decide (9 ≤ s.muType u) || decide (56 ≤ s.muSrc u) || decide (33 ≤ s.fld (.meldGate u) 5 0) || s.muParamBad u ||
  (s.bit (.meldCfg u) 26 && (decide (s.muType u ≠ 4) || decide (s.muType q ≠ 3) || decide (s.muSrc q ≠ s.muSrc u))) ||
  (decide (s.muType u = 3 ∨ s.muType u = 4) && !s.bit (.meldCfg u) 30 && s.muMetro u)
/-- A unit as an accepted enable leaves it: sticky bits and the time of the last event stay (R209, R226). -/
def Meld.cleared (m : Meld) (gate : Bool) : Meld :=
  { gate := gate, rt := m.rt, staleS := m.staleS, noctxS := m.noctxS, ovrS := m.ovrS, limitS := m.limitS }
/-- Write of MELD_CFGuu (R209). -/
def meldEnable (u : Nat) (v : W32) (s : State) : Except Rej State :=
  let new := v &&& 0xffff0f3f
  let old := s.reg (.meldCfg u)
  let t := s.setReg (.meldCfg u) new
  if s.muOn u then
    if (old ^^^ new) &&& 0x5fffffff ≠ 0 then .error (s.conflict 0xfe 0)
    else
      let stop (m : Meld) : Meld := { m with state := false, armed := false, buf := [], arms := [], outs := [], gateIn := [] }
      .ok (if v.getLsbD 31 then t else t.modMeld u stop)
  else if v.getLsbD 31 then
    if t.muBad u then .error (.badParam, []) else .ok (t.modMeld u fun m => m.cleared (t.gateSignal u))
  else .ok t
/-- Write of a parameter register of a unit: refused while it is enabled (R209). -/
def meldParamWrite (r : Reg) (u : Nat) (v : W32) (s : State) : Except Rej State :=
  if s.muOn u then .error (s.conflict 0xfe 0) else .ok (s.setReg r (v &&& BitVec.ofNat 32 r.spec.rw))
/-- Commit of A or B of a unit. -/
def meldPairCommit (lo hi : Reg) (u : Nat) (v : Int) (s : State) : Except Rej State :=
  if s.muOn u then .error (s.conflict 0xfe 0) else .ok (s.setPair lo hi v)

/-! ### Outputs of a unit -/

/-- An event of a unit: its record, its time, its sticky bit (R206, R207). -/
def State.meldCode (s : State) (u k : Nat) (tm : Stamp) : State :=
  let qs := if s.muType u = 8 then s.queuesAll else s.queuesFor [s.muSrc u]
  let sticky := k == 3 || (6 ≤ k && k ≤ 8)
  let s := if sticky || s.bit (.meldCfg u) 29 then s.event (0x1600 + 0x10 * u + k) tm qs else s
  let s := s.modMeld u fun m =>
    let m := { m with rt := tm.t }
    match k with
    | 3 => { m with limitS := true }
    | 6 => { m with ovrS := true }
    | 7 => { m with noctxS := true }
    | 8 => { m with staleS := true }
    | _ => m
  if sticky then s.irqFire 6 else s
/-- OUT_A fires: ARMED of a one-shot unit clears, count units that name the unit take the event (R206, R217, R221). -/
def State.fireA (s : State) (u : Nat) (tm : Stamp) : State :=
  let s := s.modMeld u fun m => { m with armed := false }
  let s := (s.meldCode u 0 tm).produce (2 * u)
  (List.range 16).foldl (fun s c =>
    if s.muOn c && s.muType c == 8 && s.bit (.meldP1 c) 4 && s.fld (.meldP1 c) 3 0 == u then
      s.modMeld c fun m => { m with outs := m.outs ++ [tm] }
    else s) s
/-- OUT_B fires (R206). -/
def State.fireB (s : State) (u : Nat) (tm : Stamp) : State :=
  (s.meldCode u 1 tm).produce (2 * u + 1)
/-- The state bit of a unit changes, or stays, and the output fires. -/
def State.muSet (s : State) (u : Nat) (on : Bool) (tm : Stamp) : State :=
  let was := (s.meld u).state
  let s := s.modMeld u fun m => { m with state := on }
  if on && !was then s.fireA u tm else if !on && was then s.fireB u tm else s

/-! ### Records -/

/-- The gate was closed at a time (R220): the level after the latest edge at or before it; before the sixteenth last edge, shut. -/
def Meld.shutAt (m : Meld) (sel : Nat) (inv : Bool) (t : Int) : Bool :=
  if sel = 0 then false
  else
    match m.edges.find? fun e => decide (e.1 ≤ t) with
    | some e => e.2 == inv
    | none =>
      if 16 ≤ m.edges.length then true
      else match m.edges.getLast? with
        | some e => (!e.2) == inv
        | none => m.gate == inv
/-- The "on" and "off" conditions of the level types (R211, R215). -/
def State.muCond (s : State) (u : Nat) (x : Int) : Bool × Bool :=
  let a := s.muA u
  let b := s.muB u
  let h := s.muH u
  match s.muType u with
  | 2 => (decide (a ≤ x ∧ x ≤ b), decide (x < a - h ∨ b + h < x))
  | 5 => (decide (a ≤ x), decide (x < a - h))
  | _ =>
    if s.muType u = 1 ∧ s.bit (.meldCfg u) 27 then (decide (x ≤ a), decide (a + h < x))
    else (decide (a ≤ x), decide (x < a - h))
/-- A level type takes a value that one record gives it; `res` is what MELD_RES shows of it (R211). -/
def State.muLevel (s : State) (u : Nat) (x res : Int) (r : MIn) : State :=
  let (on, off) := s.muCond u x
  let m := s.meld u
  let go := if m.state then off else on
  let run := if go then r :: m.run else []
  let s := s.setMeld u { m with res := res, run := run }
  if s.muN u ≤ run.length then
    (s.modMeld u fun m => { m with run := [] }).muSet u (!m.state) (run.getLastD r).tm
  else s
/-- The rate type (R211). -/
def State.muRate (s : State) (u : Nat) (r : MIn) : State :=
  let m := s.meld u
  let lag := s.fld (.meldP1 u) 27 16
  let s := s.setMeld u { m with lag := (r.val :: m.lag).take lag }
  let d := r.val - m.lag.getD (lag - 1) 0
  if m.lag.length < lag then s else s.muLevel u |d| d r
/-- The stability type (R212). -/
def State.muStable (s : State) (u : Nat) (r : MIn) : State :=
  let m := s.meld u
  let w := s.fld (.meldP1 u) 11 0
  let set := (r.val :: m.lag).take w
  let spread := set.foldl max r.val - set.foldl min r.val
  let s := s.setMeld u { m with lag := set, res := spread, rcnt := set.length }
  s.muSet u (decide (w ≤ set.length) && decide (spread ≤ s.muA u)) r.tm
/-- One record joins the passage of an axle unit. -/
def Meld.join (m : Meld) (r : MIn) : Meld :=
  { m with axN := m.axN + 1, axSum := m.axSum + r.val, axFlags := m.axFlags ||| r.flags, axT := r.tm }
/-- The end of a passage (R215): `k` is 5 at MAX. -/
def State.axleEnd (s : State) (u : Nat) (atMax needOff : Bool) : State :=
  let m := s.meld u
  let t := m.axT
  let mean := (sat36 (divRound m.axSum m.axN)).1
  let s := s.setMeld u { m with state := false, run := [], needOff := needOff, res := mean, rcnt := m.axN, rflg := m.axFlags
                                axN := 0, axSum := 0, axFlags := 0 }
  let s := s.fireB u t
  let s := if m.axN < s.fld (.meldP2 u) 15 0 then s.meldCode u 4 t else s
  if atMax then s.meldCode u 5 t else s
/-- Records join a passage one by one until it reaches MAX; what is left of them then (R215). -/
def State.axleJoin (s : State) (u : Nat) : List MIn → State × List MIn
  | [] => (s, [])
  | r :: rs =>
    let s := s.modMeld u fun m => m.join r
    let mx := s.fld (.meldP2 u) 31 16
    if mx ≠ 0 ∧ mx ≤ (s.meld u).axN then (s.axleEnd u true true, rs) else s.axleJoin u rs
/-- A record between passages: an "off" record lets a new one start, and N "on" records start it. Where the start run reaches MAX, the
passage ends with it, and OUT_B fires before OUT_A (R206, R215). -/
def State.axleIdle (s : State) (u : Nat) (r : MIn) : State :=
  let (on, off) := s.muCond u r.val
  let m := s.meld u
  let m := { m with needOff := m.needOff && !off }
  let run := if on && !m.needOff then r :: m.run else []
  if s.muN u ≤ run.length then
    let first := run.getLastD r
    let mx := s.fld (.meldP2 u) 31 16
    let s := s.setMeld u { m with run := [], state := true, axN := 0, axSum := 0, axFlags := 0 }
    if mx ≠ 0 ∧ mx ≤ run.length then (s.axleJoin u run.reverse).1.fireA u first.tm
    else ((s.fireA u first.tm).axleJoin u run.reverse).1
  else s.setMeld u { m with run := run }
/-- Records of an unfinished end run join the passage after all; where it ends at MAX, the rest come between passages (R215). -/
def State.axleGoesOn (s : State) (u : Nat) (run : List MIn) : State :=
  let (s, rest) := (s.modMeld u fun m => { m with run := [] }).axleJoin u run.reverse
  rest.foldl (fun s r => s.axleIdle u r) s
/-- The axle type (R215). -/
def State.muAxle (s : State) (u : Nat) (r : MIn) : State :=
  let (_, off) := s.muCond u r.val
  let m := s.meld u
  if m.state then
    let run := r :: m.run
    if off then
      if s.muN u ≤ run.length then s.axleEnd u false false else s.setMeld u { m with run := run }
    else s.axleGoesOn u run
  else s.axleIdle u r
/-- An excluded record ends a passage with the last qualifying record before it (R215). -/
def State.axleCut (s : State) (u : Nat) : State :=
  let s := if (s.meld u).state then s.axleGoesOn u (s.meld u).run else s
  if (s.meld u).state then s.axleEnd u false true else s.modMeld u fun m => { m with run := [] }
/-- A zero-tracking unit takes a record into the period that holds its boundary (R213). -/
def State.muZero (s : State) (u : Nat) (r : MIn) (good : Bool) : State :=
  let z := s.muA u
  let q := s.bit (.meldCfg u) 26
  s.modMeld u fun m =>
    { m with zt := m.zt.map fun p =>
        if p.start < r.b ∧ r.b ≤ p.til.getD r.b then
          { p with n := p.n + 1, sum := p.sum + r.val, ok := p.ok && good && decide (|r.val| ≤ z)
                   ask := if q then r.b :: p.ask else p.ask }
        else p }
/-- The reason of a decision (R216). -/
def State.reasonOf (s : State) (u : Nat) (c : Ctx) : Nat :=
  let m := (sat36 (divRound c.sum (max 1 c.n))).1
  if c.flagged then 4
  else if c.few ∨ c.n < s.fld (.meldP2 u) 15 0 then 3
  else if m < s.muA u then 1
  else if s.muB u < m then 2
  else 0
/-- A context takes a record, or is decided by it (R216). -/
def State.ctxTake (s : State) (u : Nat) (r : MIn) (excluded : Bool) (c : Ctx) : Ctx :=
  let lo := c.ts + (s.reg (.meldP0 u)).toNat
  let hi := lo + (s.reg (.meldP1 u)).toNat
  if c.decided.isSome then c
  else if hi < r.frc then { c with decided := some (s.reasonOf u c), mean := if c.n = 0 then 0 else (sat36 (divRound c.sum c.n)).1 }
  else if lo ≤ r.frc then
    if excluded then { c with flagged := true }
    else if 1048575 ≤ c.n then c
    else { c with n := c.n + 1, sum := c.sum + r.val, flags := c.flags ||| r.flags }
  else c
/-- Contexts that are both decided and released answer, oldest first, and are freed; of those that one record decides, OUT_B fires first.
The mean of a context without records is no number that the spec gives: it is free (R206, R216; log entry 1). -/
def State.ctxFinish (s : State) (u : Nat) : State :=
  let done := (s.meld u).ctxs.filter fun c => c.decided.isSome && c.released
  let s := s.modMeld u fun m => { m with ctxs := m.ctxs.filter fun c => !(c.decided.isSome && c.released) }
  let s := match done.getLast? with
    | none => s
    | some c =>
      let (s, free) := s.draw 36
      s.modMeld u fun m =>
        { m with res := if c.n = 0 then free.toInt else c.mean, rcnt := c.n, reason := c.decided.getD 0, rflg := c.flags }
  let s := (done.filter fun c => c.decided ≠ some 0).foldl (fun s c => s.fireB u c.tm) s
  (done.filter fun c => c.decided = some 0).foldl (fun s c => s.fireA u c.tm) s
/-- The states of a stability unit that periods not yet judged may still ask for (R213). -/
def State.histOf (s : State) (u : Nat) (h : List (Nat × Bool)) : List (Nat × Bool) :=
  h.filter fun x => (List.range 16).any fun z =>
    s.muOn z && s.muType z == 4 && s.bit (.meldCfg z) 26 && s.fld (.meldCfg z) 25 22 == u && (s.meld z).zt.any fun p => decide (p.start < x.1)
/-- A record reaches the evaluation of a unit (R205, R211 to R216, R220, R221). MELD_RES of a set that an excluded record has emptied reads
0 (R212 gives no spread of an empty set: DESIGN CHOICE, log entry 162). -/
def State.muRecord (s : State) (u : Nat) (r : MIn) : State :=
  let m := s.meld u
  let ex := decide (r.flags &&& BitVec.ofNat 6 (s.fld (.meldCfg u) 21 16) ≠ 0)
  let ty := s.muType u
  let s :=
    if ty = 7 then (s.modMeld u fun m => { m with ctxs := m.ctxs.map (s.ctxTake u r ex) }).ctxFinish u
    else if s.bit (.meldCfg u) 28 && !m.armed then s
    else
      let shut := m.shutAt (s.fld (.meldGate u) 5 0) (s.bit (.meldGate u) 7) r.frc
      if ty = 4 then s.muZero u r (!ex && !shut)
      else if shut then s
      else if ex then
        match ty with
        | 3 => (s.modMeld u fun m => { m with lag := [], res := 0, rcnt := 0 }).muSet u false r.tm
        | 5 => s.modMeld u fun m => { m with lag := [], run := [] }
        | 6 => s.axleCut u
        | _ => s.modMeld u fun m => { m with run := [] }
      else
        match ty with
        | 1 => s.muLevel u r.val r.val r
        | 2 => s.muLevel u r.val r.val r
        | 3 => s.muStable u r
        | 5 => s.muRate u r
        | 6 => s.muAxle u r
        | _ => s
  if ty = 3 then s.modMeld u fun m => { m with hist := s.histOf u ((r.b, m.state) :: m.hist) } else s
/-- A record arrives at the units that take its source; a full buffer loses it (R204, R223). -/
def State.meldInput (s : State) (src : Nat) (r : MIn) : State :=
  (List.range 16).foldl (fun s u =>
    if s.muOn u && s.muSrc u == src && decide (1 ≤ s.muType u) && decide (s.muType u ≤ 7) then
      if 8 ≤ (s.meld u).buf.length then s.meldCode u 6 s.now
      else s.modMeld u fun m => { m with buf := m.buf ++ [r] }
    else s) s

/-! ### Arms and gates -/

/-- An arm event reaches units (R221). -/
def State.armReq (s : State) (m : Nat) : State :=
  ((List.range 16).filter fun u => m / 2 ^ u % 2 == 1).foldl (fun s u =>
    if s.muOn u then s.modMeld u fun x => { x with arms := x.arms ++ [((s.clk.frc : Int), s.now)] } else s) s
/-- A unit acts on an arm event (R216, R217, R221). -/
def State.muArm (s : State) (u : Nat) (a : Int × Stamp) : State :=
  match s.muType u with
  | 7 =>
    if 8 ≤ (s.meld u).ctxs.length then (s.modMeld u fun m => { m with reason := 6 }).meldCode u 6 s.now
    else s.modMeld u fun m => { m with ctxs := m.ctxs ++ [{ ts := a.1, tm := a.2 }] }
  | 8 => s.modMeld u fun m => { m with count := 0, rcnt := 0 }
  | _ => if s.bit (.meldCfg u) 28 then s.modMeld u fun m => { m with armed := true } else s
/-- A count unit counts an input (R217). -/
def State.muCount (s : State) (u : Nat) (tm : Stamp) : State :=
  let k := (s.meld u).count + 1
  if (s.reg (.meldP0 u)).toNat ≤ k then (s.modMeld u fun m => { m with count := 0, rcnt := 0 }).fireA u tm
  else s.modMeld u fun m => { m with count := k, rcnt := k }
/-- Contexts that lie more than TRV before a time and are not released are discarded as stale (R216). -/
def State.muStale (s : State) (u : Nat) (t : Int) : State :=
  let trv := (s.reg (.meldP3 u)).toNat
  let old (c : Ctx) : Bool := decide (trv ≠ 0) && !c.released && decide (c.ts + trv < t)
  let k := ((s.meld u).ctxs.filter old).length
  let s := s.modMeld u fun m => { m with ctxs := m.ctxs.filter fun c => !old c }
  (List.range k).foldl (fun s _ => s.meldCode u 8 s.now) s
/-- A release pairs with the oldest context that is still open, or finds none (R216). -/
def State.muRelease (s : State) (u : Nat) (t : Int) : State :=
  let s := s.muStale u t
  match (s.meld u).ctxs.findIdx? fun c => !c.released with
  | some k => (s.modMeld u fun m => { m with ctxs := m.ctxs.modify k fun c => { c with released := true } }).ctxFinish u
  | none => ((s.modMeld u fun m => { m with reason := 5 }).fireB u s.now).meldCode u 7 s.now
/-- A unit processes a gate edge (R216, R217, R219). -/
def State.muEdge (s : State) (u : Nat) (e : Int × Bool) : State :=
  let s := s.modMeld u fun m => { m with gate := e.2, edges := (e :: m.edges).take 16 }
  if e.2 == s.bit (.meldGate u) 7 then s
  else match s.muType u with
    | 7 => s.muRelease u e.1
    | 8 => if s.bit (.meldP1 u) 4 then s else s.muCount u (s.stampAt e.1 e.1 (!s.onPll))
    | _ => s
/-- TCLK periods of a pin's glitch filter at a unit (R218; the rounding is free, log entry 30). -/
def State.filtT (s : State) (u : Nat) : Int :=
  let filt := s.fld (.meldGate u) 15 8
  if s.onPll then looseDiv filt 8 else looseDiv (filt * 512) 1000
/-- The level that a unit's gate has taken latest: that of the newest edge that waits for the slot, or of the last processed. -/
def Meld.gateNow (m : Meld) : Bool := (m.gateIn.getLast?.map (·.2)).getD m.gate
/-- An edge reaches a unit with its stamp. -/
def State.gateTake (s : State) (u : Nat) (t : Int) (level : Bool) : State :=
  s.modMeld u fun m => { m with gateIn := m.gateIn ++ [(t, level)] }
/-- The level outside an EVT pin (R218, R239). -/
def State.evtOutside (s : State) (p : Nat) (level : Bool) : State :=
  { s with route := { s.route with evtIn := if level then s.route.evtIn ||| BitVec.ofNat 8 (2 ^ p)
                                            else s.route.evtIn &&& ~~~ BitVec.ofNat 8 (2 ^ p) } }
/-- GATE_EDGE: an edge that comes from outside at the pin that a unit's gate selects. It tells the level outside an EVT pin, whether the
unit is enabled or not. An enabled unit takes the edge stamped: 2 TCLK periods and the filter's SYSCLK cycles are taken off; at a pin that
the hub drives, only where the level at the ball is not the unit's already. Levels that the hub itself gives reach the unit by themselves
(`gateFollow`); pins of an absent VIO_S are isolated (R44, R218, R219, R239). -/
def gateEdge (u : Nat) (level : Bool) (s : State) : State :=
  let sel := s.fld (.meldGate u) 5 0
  if sel = 0 ∨ 16 < sel ∨ !s.vioS then s
  else
    let stamp : Int := s.clk.frc - 2 - s.filtT u
    if sel ≤ 8 then (if s.muOn u then s.gateTake u stamp level else s)
    else
      let p := sel - 9
      let s := s.evtOutside p level
      if !s.muOn u || (s.bit (.routeEvt p) 31 && s.evtBall p == (s.meld u).gateNow) then s else s.gateTake u stamp (s.evtBall p)
/-- A unit's gate signal as far as the hub gives it: a gate level, or an EVT pin in output mode. -/
def State.ownGate (s : State) (u : Nat) : Bool :=
  let sel := s.fld (.meldGate u) 5 0
  decide (17 ≤ sel) || (decide (9 ≤ sel ∧ sel ≤ 16) && s.vioS && s.bit (.routeEvt (sel - 9)) 31)
/-- The hub has changed a unit's gate signal: it gives another level than before, or VIO_S is back at a pin that it drives. `old` is the
state before; what changed outside comes as a GATE_EDGE. -/
def State.gateMoved (old s : State) (u : Nat) : Bool :=
  let was := { old with route := { old.route with evtIn := s.route.evtIn } }.gateSignal u
  old.muOn u && s.muOn u && s.ownGate u && (s.gateSignal u != was || (!old.vioS && s.vioS)) &&
    s.gateSignal u != (s.meld u).gateNow
/-- A change of a level that the hub gives reaches the units whose gate it is, and is stamped: a gate level one cycle after it changes, 2
TCLK periods taken off; a driven pin to within ±1 TCLK period of the edge at the ball. A pulse at a pin that is shorter than the filter
never reaches the unit (R218, R219, R232, R239). -/
def State.gateFollow (old s : State) : State :=
  (List.range 16).foldl (fun s u =>
    if !(old.gateMoved s u) then s
    else if 17 ≤ s.fld (.meldGate u) 5 0 then s.gateTake u ((s.clk.frc : Int) - 2) (s.gateSignal u)
    else if ((s.meld u).gateIn.getLast?.map fun e => decide (s.clk.frc - e.1 < s.filtT u)).getD false then
      s.modMeld u fun m => { m with gateIn := m.gateIn.dropLast }
    else
      let (s, k) := s.draw 2
      s.gateTake u ((s.clk.frc : Int) + (k.toNat % 3 : Nat) - 1) (s.gateSignal u)) s
/-- Edges that a unit's gate has passed on: at a pin, those that have held for FILT cycles (R218). -/
def State.gateDue (s : State) (u : Nat) : List (Int × Bool) :=
  (s.meld u).gateIn.takeWhile fun e => decide (16 < s.fld (.meldGate u) 5 0) || decide (e.1 + s.filtT u ≤ s.clk.frc)
/-- MELD_SLOT: a unit's slot (R222). -/
def meldSlot (u : Nat) (s : State) : State :=
  if !s.muOn u then s
  else
    let m := s.meld u
    let due := s.gateDue u
    let s := s.setMeld u { m with arms := [], gateIn := m.gateIn.drop due.length, outs := [], buf := m.buf.drop 4 }
    let s := m.arms.foldl (fun s a => s.muArm u a) s
    let s := due.foldl (fun s e => s.muEdge u e) s
    let s := if s.muType u = 8 then m.outs.foldl (fun s t => s.muCount u t) s else s
    let s := (m.buf.take 4).foldl (fun s r => s.muRecord u r) s
    if s.muType u = 7 then s.muStale u s.clk.frc else s

/-! ### Zero tracking -/

/-- What a tick boundary does to a zero-tracking unit: its period ends or goes on, a period starts (R213). -/
def State.ztTick (s : State) (u : Nat) : State :=
  if !(s.muOn u && s.muType u == 4) then s
  else
    let per := s.fld (.meldP1 u) 23 0
    let now := s.clk.mclk
    s.modMeld u fun m =>
      let zt := m.zt.map fun p =>
        if p.til.isSome then { p with age := p.age + 1 }
        else if per ≤ p.ticks + 1 then { p with ticks := p.ticks + 1, til := some now, tE := s.now }
        else { p with ticks := p.ticks + 1 }
      let zt := if zt.all fun p => p.til.isSome then zt ++ [{ start := now }] else zt
      { m with zt := zt, corr := m.corr.map fun c => (c.1 + 1, c.2) }
/-- Records of a period can still reach the unit. -/
def State.ztWaits (s : State) (u e : Nat) : Bool :=
  (s.meld u).buf.any (fun r => decide (r.b ≤ e)) ||
    (s.bit (.meldCfg u) 26 && (s.meld (s.fld (.meldCfg u) 25 22)).buf.any fun r => decide (r.b ≤ e)) || s.toCome (s.muSrc u) e fun j => !j.left
/-- The correction of a qualifying period (R213, R214). -/
def State.ztCorrect (s : State) (u : Nat) (p : ZtPer) : State :=
  let m := s.meld u
  let tgt := s.fld (.meldP2 u) 4 0
  let lim := s.aztLim tgt
  let mean := (sat36 (divRound p.sum p.n)).1
  let b := s.muB u
  let d := (max (-b) (min b mean) * (s.reg (.meldP0 u)).toInt + 2 ^ 27) / 2 ^ 28
  let old := s.pair (.sclAztLo tgt) (.sclAztHi tgt) + (m.corr.map (·.2)).sum
  if m.atLimit ∧ d ≠ 0 ∧ 0 ≤ old * d then s.modMeld u fun m => { m with res := d }
  else
    let new := max (-lim) (min lim (old + d))
    let hit := decide (new ≠ old + d)
    let s := s.setMeld u { m with res := d, atLimit := hit || (m.atLimit && decide (d = 0)), corr := m.corr ++ [(p.age, new - old)] }
    let s := s.meldCode u 2 p.tE
    if hit then s.meldCode u 3 p.tE else s
/-- ZT_PERIOD_END: the oldest ended period is judged once all its records have been evaluated or abandoned, at the latest at the
second tick boundary after its end (R213). -/
def ztPeriodEnd (u : Nat) (s : State) : State :=
  if !(s.muOn u && s.muType u == 4) then s
  else
    match (s.meld u).zt with
    | p :: rest =>
      match p.til with
      | none => s
      | some e =>
        if s.ztWaits u e && decide (p.age < 2) then s
        else
          let h := (s.meld (s.fld (.meldCfg u) 25 22)).hist
          let stable := p.ask.all fun b => h.any fun x => x.1 == b && x.2
          let good := p.ok && decide (1 ≤ p.n) && stable
          let s := s.modMeld u fun m => { m with zt := rest }
          let s := s.muSet u good p.tE
          if good then s.ztCorrect u p else s
    | [] => s
/-- AZT_APPLY: a correction reaches AZT at the second tick boundary after its period; outputs of earlier boundaries keep the old
AZT (R213, R214). -/
def aztApply (u : Nat) (s : State) : State :=
  if !(s.muOn u && s.muType u == 4) then s
  else
    match (s.meld u).corr with
    | (age, d) :: rest =>
      if age < 2 then s
      else
        let tgt := s.fld (.meldP2 u) 4 0
        let lim := s.aztLim tgt
        let old := s.pair (.sclAztLo tgt) (.sclAztHi tgt)
        let keep (j : Job) : Job := if j.source = tgt ∧ j.b < s.eng.tickAt ∧ j.azt = none then { j with azt := some old } else j
        let s := { s with eng := { s.eng with jobs := s.eng.jobs.map keep } }
        (s.setPair (.sclAztLo tgt) (.sclAztHi tgt) (max (-lim) (min lim (old + d)))).modMeld u fun m => { m with corr := rest }
    | [] => s

/-! ### Control and reads -/

/-- Write of MELD_CTRL: CLR and ARM (R221, R226). -/
def meldCtrlWrite (v : W32) (s : State) : State :=
  let clr := bits v.toNat 31 16
  let s := ((List.range 16).filter fun u => clr / 2 ^ u % 2 == 1).foldl (fun s u =>
    s.modMeld u fun m => { m with staleS := false, noctxS := false, ovrS := false, limitS := false }) s
  s.armReq (bits v.toNat 15 0)
/-- MELD_STATUSuu; REASON and RFLG as given. -/
def State.meldStatusWord (s : State) (u : Nat) : W32 :=
  let m := s.meld u
  BitVec.ofNat 32 (m.rflg.toNat * 2 ^ 26 + m.reason * 2 ^ 23 + m.ctxs.length * 2 ^ 16 + m.staleS.toNat * 2 ^ 11 + m.noctxS.toNat * 2 ^ 10
    + m.ovrS.toNat * 2 ^ 9 + m.limitS.toNat * 2 ^ 8 + m.atLimit.toNat * 4 + m.armed.toNat * 2 + m.state.toNat)
/-- The result registers of a unit as they stand. -/
def State.meldWords (s : State) (u : Nat) : List (Reg × W32) :=
  let m := s.meld u
  [(.meldResLo u, loWord m.res), (.meldResHi u, hiWord m.res), (.meldRcnt u, BitVec.ofNat 32 m.rcnt),
   (.meldRtLo u, BitVec.ofNat 32 m.rt), (.meldRtHi u, BitVec.ofNat 32 (m.rt / 2 ^ 32)), (.meldStatus u, s.meldStatusWord u)]
/-- Read of MELD_RES_LOuu: captures the result for the reading source (R226). -/
def meldResRead (src : Src) (u : Nat) (s : State) : State := s.capture src ((s.meldWords u).drop 1)
/-- The word of a result register of a unit for a source; of STATUS only REASON and RFLG are captured (R226). -/
def State.meldRead (s : State) (src : Src) (u : Nat) (r : Reg) : W32 :=
  let live := ((s.meldWords u).find? fun w => decide (w.1 = r)).elim 0 (·.2)
  let got := s.captured src r live
  if r = .meldStatus u then (live &&& 0x7fffff) ||| (got &&& 0xff800000) else got
/-- A word with one bit for each unit. -/
def State.meldBits (s : State) (p : Meld → Bool) : Nat := sumTo 16 fun u => (p (s.meld u)).toNat * 2 ^ u
/-- MELD_STATE. -/
def State.meldStateWord (s : State) : W32 := BitVec.ofNat 32 (s.meldBits (·.armed) * 65536 + s.meldBits (·.state))
/-- MELD_STKY. -/
def State.meldStkyWord (s : State) : W32 :=
  BitVec.ofNat 32 (s.meldBits fun m => m.staleS || m.noctxS || m.ovrS || m.limitS)
/-- An enabled unit forbids the start of a metrological chain (R209, R315). -/
def State.muForbids (s : State) (n : Nat) : Bool :=
  s.metro n && (List.range 16).any fun u =>
    s.muOn u && (s.muType u == 3 || s.muType u == 4) && s.muSrc u == n && !s.bit (.meldCfg u) 30

end Sys2Proof.Machine
end

