-- ==== Sys2Proof/Machine/Beo.lean ====
section
/-! DEFINITION. The emulator outputs BEO0 and BEO1 and the balance loop (R399 to R409). -/

namespace Sys2Proof.Machine

/-- Run-time record of output k. -/
def State.beo (s : State) (k : Nat) : Beo := if k = 0 then s.beo0 else s.beo1
/-- Replace the run-time record of output k. -/
def State.setBeo (s : State) (k : Nat) (x : Beo) : State := if k = 0 then { s with beo0 := x } else { s with beo1 := x }
/-- The loop is enabled and drives output k. -/
def State.loopDrives (s : State) (k : Nat) : Bool := s.bit .beoLoopCfg 31 && s.fld .beoLoopCfg 30 30 == k
/-- Output k is held (R403); for the output of the loop, the loop is in HOLD (R407). -/
def State.beoHeld (s : State) (k : Nat) : Bool :=
  if s.loopDrives k then s.loop.st == 3 else (s.beo k).evHold || (s.beo k).fHold
/-- A signed field of 24 bits. -/
def signed24 (v : Nat) : Int := (BitVec.ofNat 24 v).toInt
/-- CODE of a result: r × 2^23 rounded and limited (R401; log entry 34). -/
def codeOf (r : Int) : Int := max (-8388608) (min 8388607 (divRound r (2 ^ 12)))
/-- The latest record of an output's stream carries a flag that EXCL selects (R403). -/
def State.beoFlagged (s : State) (k : Nat) (x : Beo) : Bool :=
  (s.pastOf (128 + x.src)).head?.any fun p => decide (p.flags &&& BitVec.ofNat 6 (s.fld (.beoCfg k) 29 24) ≠ 0)
/-- A change of an output's holding: entry and end with their events; while held, CODE is frozen or set to HVAL (R403). -/
def State.beoHold (s : State) (k : Nat) (x : Beo) : State :=
  let was := (s.beo k).evHold || (s.beo k).fHold
  let is := x.evHold || x.fHold
  let x := if is && x.on && s.bit (.beoCfg k) 30 then { x with code := x.hval } else x
  if is && !was then ((s.setBeo k { x with holdS := true }).irqFire 20).event (0x1c00 + k) s.now s.queuesAll
  else if was && !is then (s.setBeo k x).event (0x1c10 + k) s.now s.queuesAll
  else s.setBeo k x
/-- The loop enters HOLD (R407). -/
def State.loopHold (s : State) : State :=
  if s.loop.st ≠ 2 then s
  else
    let k := s.fld .beoLoopCfg 30 30
    let x := s.beo k
    let x := { x with holdS := true, code := if s.bit .beoLoopCfg 29 then x.hval else x.code }
    let s := { s.setBeo k x with loop := { s.loop with st := 3, clean := 0 } }
    (s.irqFire 20).event (0x1c00 + k) s.now s.queuesAll
/-- An event hold of output k begins, or its count restarts, whether the output is driven or not (R403, R407; log entry 165). -/
def State.beoEvent (s : State) (k : Nat) : State :=
  if s.loopDrives k then
    ({ s with loop := { s.loop with evHold := true } }.setBeo k { s.beo k with ticks := 0 }).loopHold
  else s.beoHold k { s.beo k with evHold := true, ticks := 0 }
/-- An event hold of output k ends (R403, R407). -/
def State.beoRelease (s : State) (k : Nat) : State :=
  if s.loopDrives k then { s with loop := { s.loop with evHold := false } } else s.beoHold k { s.beo k with evHold := false }
/-- HOLD_TICKS_EXPIRY: HTICKS tick boundaries have passed since the latest hold event (R403). -/
def holdTicksExpiry (k : Nat) (s : State) : State :=
  let h := s.fld (.beoCfg k) 23 8
  let held := if s.loopDrives k then s.loop.evHold else (s.beo k).evHold
  if held && decide (h ≠ 0) && decide (h ≤ (s.beo k).ticks) then s.beoRelease k else s
/-- The flag hold of output k is judged: its EN is 1, driven or not, and the loop does not drive it (R403; log entry 165). -/
def State.beoJudged (s : State) (k : Nat) : Bool := s.bit (.beoCfg k) 31 && !s.loopDrives k
/-- A record of a stream leaves the engine: it is kept as the stream's latest, and a flagged one holds its outputs (R401, R403). -/
def State.beoRecord (s : State) (n : Nat) (p : Past) : State :=
  let s := { s with past := cellSet s.past (128 + n) [{ p with period := s.clk.mclk }] }
  (List.range 2).foldl (fun s k =>
    let x := s.beo k
    if s.beoJudged k && x.src == n && s.beoFlagged k x then s.beoHold k { x with fHold := true } else s) s
/-- The result r of an output (R401). -/
def emulated (x scale ofs : Int) : Int := (sat36 ((x * scale + ofs * 2 ^ 28 + 2 ^ 27) / 2 ^ 28)).1
/-- What a tick boundary does to output k (R401 to R403, R406): settings take effect, the flag hold is judged, CODE is taken;
the loop in WAIT, or held with HMODE 1, shows HVAL (R407). -/
def State.beoTick (s : State) (k : Nat) : State :=
  let x := s.beo k
  let x := { x with src := s.fld (.beoCfg k) 5 0, scale := (s.reg (.beoScale k)).toInt, ofs := s.pair (.beoOfsLo k) (.beoOfsHi k)
                    hval := signed24 (s.fld (.beoHval k) 23 0), ticks := x.ticks + 1
                    on := x.on && !x.offNext, offNext := false }
  if s.loopDrives k then
    s.setBeo k { x with code := if s.loop.st = 1 ∨ (s.loop.st = 3 ∧ s.bit .beoLoopCfg 29 = true) then x.hval else x.code }
  else if !s.beoJudged k then s.setBeo k x
  else
    let s := s.beoHold k { x with fHold := s.beoFlagged k x }
    let y := s.beo k
    match s.pastOf (128 + y.src) with
    | p :: _ =>
      if y.evHold || y.fHold || !y.on || decide (p.period < s.eng.prevTickAt) then s
      else s.setBeo k { y with code := codeOf (emulated p.val y.scale y.ofs) }
    | [] => s

/-! ### Registers of the outputs -/

/-- BEO_CTRL.LOCK (R409). -/
def State.beoLocked (s : State) : Bool := s.bit .beoCtrl 31
/-- Write of BEO_CFGk: EXCL and HMODE act at once, the settings of R402 at the next tick boundary. EN = 0 ends the flag hold (R402, R403,
R409; log entry 165). -/
def beoCfgWrite (k : Nat) (v : W32) (s : State) : Except Rej State :=
  let was := s.bit (.beoCfg k) 31
  let t := s.setReg (.beoCfg k) (v &&& 0xffffff3f)
  if 40 ≤ bits v.toNat 5 0 then .error (.badParam, [])
  else if s.beoLocked then .error (s.conflict 0xfe 0)
  else if v.getLsbD 31 && !was then
    if !s.vexcOk || s.shut then .error (s.conflict 0xfe 0)
    else if s.loopDrives k then .error (s.conflict 0x31 1)
    else
      let x : Beo := s.beo k
      let u := t.beoHold k { x with on := true, fHold := t.beoFlagged k x, offNext := false }
      .ok (u.setBeo k { u.beo k with code := 0 })
  else if !v.getLsbD 31 && was then .ok (t.beoHold k { s.beo k with on := false, fHold := false, slept := false })
  else if was && !s.loopDrives k then
    let x : Beo := s.beo k
    .ok (t.beoHold k { x with fHold := x.fHold || t.beoFlagged k x })
  else .ok t
/-- Write of BEO_SCALEk or BEO_HVALk: in force at the next tick boundary (R402, R409). -/
def beoSetWrite (r : Reg) (v : W32) (s : State) : Except Rej State :=
  if s.beoLocked then .error (s.conflict 0xfe 0) else .ok (s.setReg r (v &&& BitVec.ofNat 32 r.spec.rw))
/-- Commit of BEO_OFSk (R402, R409). -/
def beoOfsCommit (k : Nat) (v : Int) (s : State) : Except Rej State :=
  if s.beoLocked then .error (s.conflict 0xfe 0) else .ok (s.setPair (.beoOfsLo k) (.beoOfsHi k) v)
/-- Write of BEO_CTRL (R399, R403, R409). -/
def beoCtrlWrite (v : W32) (s : State) : Except Rej State :=
  let load := bits v.toNat 9 8
  if s.beoLocked && decide (load ≠ s.fld .beoCtrl 9 8) then .error (s.conflict 0xfe 0)
  else if v.getLsbD 9 && !s.bit .beoCtrl 9 && !s.vexcOk then .error (s.conflict 0xfe 0)
  else
    let s := (s.setFld .beoCtrl 9 8 load).setBit .beoCtrl 31 (s.beoLocked || v.getLsbD 31)
    let s := if v.getLsbD 1 then
        let s := (s.setBeo 0 { s.beo 0 with holdS := false, offFault := false }).setBeo 1 { s.beo 1 with holdS := false, offFault := false }
        { s with loop := { s.loop with clampS := false } }
      else s
    let s := if v.getLsbD 4 && !v.getLsbD 2 then s.beoRelease 0 else s
    let s := if v.getLsbD 5 && !v.getLsbD 3 then s.beoRelease 1 else s
    let s := if v.getLsbD 2 then s.beoEvent 0 else s
    .ok (if v.getLsbD 3 then s.beoEvent 1 else s)
/-- BEO_STATUS, with |V_REFX| in millivolts: REFX_LOW below 0.8 V (R400). -/
def State.beoStatusWord (s : State) (refx : Nat) : W32 :=
  let b (f : Nat → Bool) : Nat := (f 0).toNat + 2 * (f 1).toNat
  BitVec.ofNat 32 (b (fun k => (s.beo k).offFault) * 512 + (decide (refx < 800)).toNat * 256 + b (fun k => (s.beo k).holdS) * 64
    + b (fun k => (s.beo k).fHold) * 16 + b s.beoHeld * 4 + b fun k => (s.beo k).on)
/-- BEO_OUTk. -/
def State.beoOutWord (s : State) (k : Nat) : W32 := (BitVec.ofInt 24 (s.beo k).code).setWidth 32

/-! ### Balance loop -/

/-- Chains that feed the loop. -/
def State.loopSrcs (s : State) : List Nat :=
  s.fld .beoLoopCfg 5 0 :: (if s.fld .beoLoopCfg 11 6 = 63 then [] else [s.fld .beoLoopCfg 11 6])
/-- The parameters of an enable (R406). -/
def State.loopParamsBad (s : State) : Bool :=
  let a := s.fld .beoLoopCfg 5 0
  let b := s.fld .beoLoopCfg 11 6
  decide (24 ≤ a) || decide (24 ≤ b ∧ b ≠ 63) || decide (a = b) ||
  s.loopSrcs.any (fun n => !s.bit .engPrio n || decide (16000 * s.decimD n < s.mclkHz) || decide (s.decimD n ≠ s.decimD a)) ||
  decide (4 < popCount (s.reg .engPrio).toNat + 1) || decide (s.fld .beoLoopCfg 21 14 = 0) ||
  decide (s.pair .beoLoopIlimLo .beoLoopIlimHi < 0)
/-- Write of BEO_LOOP_CFG (R406, R409). -/
def loopEnable (v : W32) (s : State) : Except Rej State :=
  let new := v &&& 0xefffcfff
  let old := s.reg .beoLoopCfg
  let k := bits new.toNat 30 30
  let t := s.setReg .beoLoopCfg new
  if s.bit .beoLoopCfg 31 then
    if (old ^^^ new) &&& 0x7fffffff ≠ 0 ∨ s.beoLocked then .error (s.conflict (if s.beoLocked then 0xfe else 0x31) (if s.beoLocked then 0 else 1))
    else if v.getLsbD 31 then .ok s
    else
      let x := s.beo k
      let t := s.loopOff.setReg .beoLoopCfg new
      let t := t.setBeo k { x with code := if x.on then x.hval else x.code, offNext := x.on }
      .ok ({ t with loop := { t.loop with evHold := false, inp := [] } }).backToConfig
  else if v.getLsbD 31 then
    if t.loopParamsBad then .error (.badParam, [])
    else if s.bit (.beoCfg k) 31 ∨ !s.vexcOk ∨ s.shut ∨ s.beoLocked then .error (s.conflict 0xfe 0)
    else if budgetBroken s t then .error (.budget, [])
    else
      let x := s.beo k
      let t := (s.beoHold k { x with evHold := false }).setReg .beoLoopCfg new
      let t := t.setBeo k { t.beo k with on := true, code := x.hval, offNext := false }
      .ok { t with loop := { st := 1, clampS := s.loop.clampS }, proto := { t.proto with dev := .run } }
  else if s.beoLocked then .error (s.conflict 0xfe 0)
  else .ok t
/-- Write of WA or WB: refused while EN is 1 (R406); `live`: KP, KI, KD are not (R406). All refused under LOCK (R409). -/
def loopSetWrite (r : Reg) (live : Bool) (v : W32) (s : State) : Except Rej State :=
  if s.beoLocked then .error (s.conflict 0xfe 0)
  else if s.bit .beoLoopCfg 31 && !live then .error (s.conflict 0x31 1)
  else .ok (s.setReg r v)
/-- Commit of SP, ILIM or UOFS (R406, R409). -/
def loopPairCommit (lo hi : Reg) (live : Bool) (v : Int) (s : State) : Except Rej State :=
  if s.beoLocked then .error (s.conflict 0xfe 0)
  else if s.bit .beoLoopCfg 31 && !live then .error (s.conflict 0x31 1)
  else .ok (s.setPair lo hi v)
/-- A scaled value of a source reaches the loop; a boundary with all its sources gets an iteration at PRIO priority (R405). -/
def State.loopInput (s : State) (n b tick : Nat) (v : Int) (fs : BitVec 6) : State :=
  if s.loop.st = 0 ∨ !(s.bit .beoLoopCfg 31 && s.loopSrcs.contains n) then s
  else
    let inp := (s.loop.inp.filter fun e => decide (b ≤ e.1)) ++ [(b, n, v, fs)]
    let s := { s with loop := { s.loop with inp := inp } }
    if s.loopSrcs.all fun m => inp.any fun e => e.1 == b && e.2.1 == m then
      let j : Job := { source := 100, tick := tick, b := b, prio := true, todo := [{ st := .loop }] }
      { s with eng := { s.eng with jobs := s.eng.jobs ++ [j] } }
    else s
/-- The error of an iteration (R405). -/
def State.loopError (s : State) (xa xb : Int) : Int :=
  (sat36 (((s.reg .beoLoopWa).toInt * xa + (s.reg .beoLoopWb).toInt * xb + 2 ^ 27) / 2 ^ 28 - s.pair .beoLoopSpLo .beoLoopSpHi)).1
/-- The 36-bit rounding of the integrator (R405). -/
def Loop.integ (l : Loop) : Int := (sat36 (divRound l.i70 (2 ^ 35))).1
/-- An iteration in RUN: integrator, command and code (R405; log entry 35). -/
def State.loopRun (s : State) (e : Int) (syn : Bool) : State :=
  let l := s.loop
  let ki := (s.reg .beoLoopKi).toInt
  let lim := s.pair .beoLoopIlimLo .beoLoopIlimHi * 2 ^ 35
  let ep := if l.reload || syn then e else l.ePrev
  let raw := l.i70 + e * ki * 2 ^ 19
  let hold := decide (0 < l.uSat * (e * ki))
  let clamp := if hold then l.clamp else decide (raw < -lim ∨ lim < raw)
  let i70 := if hold then l.i70 else max (-lim) (min lim raw)
  let l' := { l with i70 := i70 }
  let sum := e * (s.reg .beoLoopKp).toInt / 2 ^ 16 + l'.integ + (e - ep) * (s.reg .beoLoopKd).toInt / 2 ^ 16
    + s.pair .beoLoopUofsLo .beoLoopUofsHi
  let (u, sat) := sat36 sum
  let rise := clamp && !l.clamp
  let k := s.fld .beoLoopCfg 30 30
  let s := s.setBeo k { s.beo k with code := codeOf u }
  let s := { s with loop := { l' with ePrev := e, reload := false, uSat := if sat then (if 0 < u then 1 else -1) else 0
                                      clamp := clamp, clampS := l.clampS || rise } }
  if rise then (s.irqFire 21).event 0x1c20 s.now s.queuesAll else s
/-- The loop's iteration item (R405, R407). -/
def State.loopItem (s : State) (j : Job) : State :=
  if s.loop.st = 0 then s
  else
    let vals := s.loop.inp.filter fun e => e.1 == j.b
    let get (n : Nat) : Int := (vals.find? fun e => e.2.1 == n).elim 0 (·.2.2.1)
    let fs := vals.foldl (fun a e => a ||| e.2.2.2) 0
    let s := { s with loop := { s.loop with iter := min (2 ^ 32 - 1) (s.loop.iter + 1), inp := s.loop.inp.filter fun e => decide (e.1 ≠ j.b) } }
    let e := s.loopError (get (s.fld .beoLoopCfg 5 0)) (if s.fld .beoLoopCfg 11 6 = 63 then 0 else get (s.fld .beoLoopCfg 11 6))
    let bad := decide (fs &&& BitVec.ofNat 6 (s.fld .beoLoopCfg 27 22) ≠ 0)
    if s.loop.st = 2 then
      if bad then s.loopHold else s.loopRun e (decide (fs &&& flagSYN ≠ 0))
    else if s.loop.st = 3 then
      let clean : Nat := if bad then 0 else s.loop.clean + 1
      if s.fld .beoLoopCfg 21 14 ≤ clean ∧ !s.loop.evHold then
        let k := s.fld .beoLoopCfg 30 30
        ({ s with loop := { s.loop with st := 2, clean := 0, ePrev := e, reload := false } }).event (0x1c10 + k) s.now s.queuesAll
      else { s with loop := { s.loop with clean := clean } }
    else s
/-- The loop follows the states of its sources; `old` is the state before the command (R407). -/
def State.loopFollow (old s : State) : State :=
  if s.loop.st = 0 then s
  else
    let srcs := s.loopSrcs
    let left := srcs.any fun n => decide ((old.ch n).st = .running ∧ ((s.ch n).st = .idle ∨ (s.ch n).st = .settling))
    let fault := srcs.any fun n => decide ((old.ch n).st ≠ .faulted ∧ (s.ch n).st = .faulted)
    if left ∧ s.loop.st ≠ 1 then
      let k := s.fld .beoLoopCfg 30 30
      let x := s.beo k
      let s := if s.loop.st = 3 then s.event (0x1c10 + k) s.now s.queuesAll else s
      { s.setBeo k { x with code := x.hval } with loop := { s.loop with st := 1, i70 := 0, clamp := false, uSat := 0, inp := [] } }
    else if s.loop.st = 2 ∧ fault then s.loopHold
    else if s.loop.st = 1 ∧ srcs.all (fun n => decide ((s.ch n).st = .running)) then
      let s := { s with loop := { s.loop with st := 2, reload := true } }
      if s.loop.evHold then s.loopHold else s
    else s
/-- BEO_LOOP_STATUS. -/
def State.loopStatusWord (s : State) : W32 :=
  let l := s.loop
  BitVec.ofNat 32 (l.clampS.toNat * 32 + l.clamp.toNat * 16 + (decide (l.uSat ≠ 0)).toNat * 8 + l.st)

end Sys2Proof.Machine
end

