-- ==== Sys2Proof/Machine/Weir.lean ====
section
/-! DEFINITION. Weir queues: units, packets, pointers, reading, thresholds, movers and the region table (R257 to R285). MV0 is
taken to be writing the first unit that waits for it (log entry 40). Pointers are kept unbounded and shown modulo 2^32. -/

namespace Sys2Proof.Machine

/-! ### Regions -/

/-- Attributes HR, TW, QR, QW (bits 3 to 0) and METRO of a block of 4 KiB (R284). -/
def State.region (s : State) (blk : Nat) : Nat × Bool :=
  let hit (e : Nat) : Bool :=
    s.bit (.regionAttr e) 31 && decide (s.fld (.regionAddr e) 9 0 ≤ blk ∧ blk ≤ s.fld (.regionAddr e) 25 16)
  match ((List.range 13).map (15 - ·)).find? hit with
  | some e => (s.fld (.regionAttr e) 3 0, s.bit (.regionAttr e) 30)
  | none => (if blk < 128 then 0 else if blk < 64 * s.fld .regionBound 3 0 then 0b1100 else 0b1011, false)
/-- A block lies in an enabled entry marked METRO, whichever entry applies to it (R285). -/
def State.regionMetro (s : State) (blk : Nat) : Bool :=
  (List.range 13).any fun i =>
    let e := 3 + i
    s.bit (.regionAttr e) 31 && s.bit (.regionAttr e) 30 && decide (s.fld (.regionAddr e) 9 0 ≤ blk ∧ blk ≤ s.fld (.regionAddr e) 25 16)
/-- An access to a window address has the attribute of a bit. -/
def State.allows (s : State) (a bit : Nat) : Bool := (s.region ((a - 0x10000000) / 4096)).1 / 2 ^ bit % 2 == 1
/-- Word of a fixed entry's address register, or of a host entry (R284). -/
def State.regionAddrWord (s : State) (e : Nat) : W32 :=
  let b := 64 * s.fld .regionBound 3 0
  match e with
  | 0 => BitVec.ofNat 32 (127 * 65536)
  | 1 => BitVec.ofNat 32 ((b - 1) * 65536 + 128)
  | 2 => BitVec.ofNat 32 (1023 * 65536 + b)
  | _ => s.reg (.regionAddr e)
/-- Word of an entry's attribute register. -/
def State.regionAttrWord (s : State) (e : Nat) : W32 :=
  match e with
  | 0 => 0x80000000
  | 1 => 0x8000000c
  | 2 => 0x8000000b
  | _ => s.reg (.regionAttr e)
/-- Write of a region entry (R80, R284, R285). Entries 0 to 2 are fixed. -/
def regionWrite (e : Nat) (attr : Bool) (v : W32) (s : State) : Except Rej State :=
  if e < 3 then (if attr then .ok s else .error (.badAddr, []))
  else if !s.bit .bootStatus 0 then .error (s.conflict 0xfe 0)
  else if attr then .ok (s.setReg (.regionAttr e) (v &&& 0xc000000f))
  else
    let first := bits v.toNat 9 0
    let last := bits v.toNat 25 16
    if first < 128 ∨ last < first then .error (.badParam, []) else .ok (s.setReg (.regionAddr e) (v &&& 0x3ff03ff))
/-- Write of REGION_BOUND (R20); it moves entries 1 and 2, so R80 refuses a change as well. -/
def regionBoundWrite (v : W32) (s : State) : Except Rej State :=
  let b := bits v.toNat 3 0
  if b < 2 ∨ 8 < b then .error (.badParam, [])
  else if b = s.fld .regionBound 3 0 then .ok s
  else if !s.bit .bootStatus 0 then .error (s.conflict 0xfe 0)
  else match (List.range 16).find? s.qOn with
    | some n => .error (s.conflict (0x20 + n) 1)
    | none =>
      if (List.range 40).any fun n => decide (13 ≤ s.curve n) then .error (s.conflict 0xfe 0)
      else .ok (s.setFld .regionBound 3 0 b)

/-! ### Movers -/

/-- A mover records a fault: cause 1 region violation, 2 uncorrectable error (R282, R283). -/
def State.moverFault (s : State) (m cause q a : Nat) : State :=
  ((s.setReg (.moverStatus m) (BitVec.ofNat 32 (2 ^ 31 + cause * 2 ^ 24 + q * 2 ^ 16))).setReg (.moverFaddr m) (BitVec.ofNat 32 a)).irqFire
    (48 + m)
/-- Write of MOVER_CTRL (R282). -/
def moverClr (v : W32) (s : State) : State :=
  ((List.range 8).filter fun m => v.getLsbD m).foldl (fun s m => (s.setReg (.moverStatus m) 0).setReg (.moverFaddr m) 0) s

/-! ### Queue geometry -/

/-- SIZE_W (R263). -/
def State.sizeW (s : State) (q : Nat) : Nat := 512 * s.fld (.weirArea q) 25 16
/-- Window address of word count p (R264). -/
def State.qAddr (s : State) (q p : Nat) : Nat := 0x10000000 + 0x1000 * s.fld (.weirArea q) 9 0 + 8 * (p % 2 ^ 32 % s.sizeW q)
/-- Word count p of a queue. -/
def State.qWord (s : State) (q p : Nat) : W64 := s.sramWord (s.qAddr q p)
/-- OWNER of a queue (R273). -/
def State.qOwner (s : State) (q : Nat) : Nat := s.fld (.weirCfg q) 30 29
/-- A threshold event of a queue (R277). -/
def State.thrFire (s : State) (q : Nat) : State :=
  let s := if s.pwr.st = .ebb ∧ q = s.fld .ebbCfg 27 24 then s.wakeLatch 7 else s
  (List.range 4).foldl (fun s k =>
    if s.bit (.routeQt k) 4 && s.fld (.routeQt k) 3 0 == q then s.produce (48 + k) else s) (s.irqFire (32 + q))
/-- The side of the threshold on which a queue stands (R277). -/
def State.thrSide (s : State) (q : Nat) : Bool :=
  let x := s.queue q
  let l := s.fld (.weirThr q) 18 0
  match s.fld (.weirThr q) 31 30 with
  | 2 => decide (l ≤ x.c - x.r)
  | 3 => decide (s.sizeW q - (x.w - x.f) < l)
  | _ => false
/-- Threshold evaluation after a change (R272 step 6, R277). -/
def State.thrEval (s : State) (q : Nat) : State :=
  let side := s.thrSide q
  let was := (s.queue q).thrHigh
  let s := s.modQueue q fun x => { x with thrHigh := side }
  if side && !was && s.qOn q then s.thrFire q else s
/-- The writer has reached a word count: the mark is lost beyond M + SIZE_W (R268). -/
def State.markCheck (s : State) (q : Nat) : State :=
  let x := s.queue q
  if x.markValid ∧ x.m + s.sizeW q < x.w then (s.setQueue q { x with markValid := false, markOver := true }).irqFire 56 else s
/-- W moves to a word count. -/
def State.setW (s : State) (q p : Nat) : State := (s.modQueue q fun x => { x with w := p }).markCheck q

/-! ### Closing packets -/

/-- The length slot (R259). -/
def lengthSlot (seq count : Nat) (ecc fault trunc flushed aborted : Bool) : W64 :=
  let bytes := 6 * count
  let valid := if count = 0 then 8 else (bytes - 1) % 8 + 1
  BitVec.ofNat 64 (seq % 256 * 2 ^ 56 + ecc.toNat * 2 ^ 52 + fault.toNat * 2 ^ 51 + trunc.toNat * 2 ^ 50 + flushed.toNat * 2 ^ 49
    + aborted.toNat * 2 ^ 48 + count * 2 ^ 32 + valid * 2 ^ 24 + bytes)
/-- The write side halts (R282). -/
def State.halt (s : State) (q : Nat) : State := s.modQueue q fun x => { x with whalt := true, abortS := true }
/-- Records dropped are counted in DROP, which saturates (R263). -/
def State.qDrop (s : State) (q k : Nat) : State := s.modQueue q fun x => { x with drop := min (2 ^ 32 - 1) (x.drop + k) }
/-- A record among the first `count` of a packet sets a flag of its length slot (R259). -/
def holds (first : Option Nat) (count : Nat) : Bool := first.elim false fun i => decide (i < count)
/-- Write the length slot of a packet that ends at a word count; a slot that cannot be written discards the packet (R259, R262,
R282). -/
def State.finishPkt (s : State) (m q : Nat) (k : Pkt) (wEnd count : Nat) (trunc aborted ecc : Bool) : State :=
  let a := s.qAddr q k.slot
  if s.allows a 0 then
    let x := s.queue q
    let s := s.sramPutWord a (lengthSlot x.seq count (holds k.ecc count || ecc) (holds k.fault count) (k.trunc || trunc) k.flushed (aborted || k.aborted))
    s.modQueue q fun y => { y with pkt := none, w := wEnd, seq := y.seq + 1, closed := y.closed ++ [(wEnd, y.seq % 256)] }
  else
    let s := if aborted then s else s.moverFault m 1 q a
    ((s.modQueue q fun y => { y with pkt := none, w := k.slot }).qDrop q count).halt q
/-- A write fault at word count p closes the packet with ABORTED; the complete records in the written words count (R282). -/
def State.abortPkt (s : State) (m q : Nat) (k : Pkt) (p cause a : Nat) : State :=
  let count := min k.count (8 * (p - (k.slot + 2)) / 6)
  ((s.moverFault m cause q a).finishPkt m q k (max p (k.slot + 1)) count false true (cause == 2)).halt q
/-- The open packet closes (R262). -/
def State.closePkt (s : State) (m q : Nat) (trunc : Bool) : State :=
  match (s.queue q).pkt with
  | none => s
  | some k =>
    let p := k.slot + 2 + 6 * k.count / 8
    if k.part.isEmpty then s.finishPkt m q k p k.count trunc false false
    else
      let a := s.qAddr q p
      if s.allows a 0 then
        (s.sramPutWord a (BitVec.ofNat 64 (ofLe k.part))).finishPkt m q k (p + 1) k.count trunc false false
      else s.abortPkt m q k p 1 a
/-- Write whole words from a word count; the count of the first that its region refuses. -/
def State.putWords (s : State) (q : Nat) : Nat → List W64 → State × Option Nat
  | _, [] => (s, none)
  | p, w :: ws => if s.allows (s.qAddr q p) 0 then (s.sramPutWord (s.qAddr q p) w).putWords q (p + 1) ws else (s, some p)
/-- Cut bytes into whole words; the rest stays over. The first number bounds the count. -/
def wholeWords : Nat → List Byte → List W64 × List Byte
  | 0, bs => ([], bs)
  | k + 1, bs =>
    if bs.length < 8 then ([], bs)
    else
      let (ws, rest) := wholeWords k (bs.drop 8)
      (BitVec.ofNat 64 (ofLe (bs.take 8)) :: ws, rest)

/-! ### Units -/

/-- Bytes of a record (R9, R258). -/
def recBytes (r : Rec) : List Byte := leBytes 6 (r.source % 64 * 2 ^ 42 + r.flags.toNat * 2 ^ 36 + r.value.toNat)
/-- Event codes that set FAULT of a packet: the fault event codes and those of their clearing (R143, R259). -/
def faultEvent (r : Rec) : Bool := r.source == 62 && decide (0x1400 ≤ r.value.toNat ∧ r.value.toNat < 0x1500)
/-- Event codes that set ECC. -/
def eccEvent (r : Rec) : Bool :=
  r.source == 62 && (r.value.toNat == 0x1200 || decide (0x1540 ≤ r.value.toNat ∧ r.value.toNat ≤ 0x1557))
/-- Signed difference of corrected times modulo 2^64 (R357). -/
def timeDiff (a b : Nat) : Int := (BitVec.ofNat 64 a - BitVec.ofNat 64 b).toInt
/-- Nanoseconds, scaled by 384, of `k` output periods at the clock in force (R260). -/
def State.periodNs384 (s : State) (k d : Nat) (ep : Nat) : Int :=
  ((k * d * s.tPerM * (if s.onPll then 1000 else 1024) * 15625 : Nat) : Int) * (2 ^ 40 + cellGet s.tim.rates ep 0) / (1000 * 2 ^ 40)
/-- How the record of a stream unit is dated in a packet: with a stamp pair or by implication, and the packet's anchors after it
(R260, R261). -/
def State.dateIn (s : State) (k : Pkt) (u : RUnit) : Bool × List Anchor :=
  let rest := k.anchors.filter fun a => decide (a.src ≠ u.src)
  let fresh : Anchor := { src := u.src, t := u.tm.t, k := 0, ep := u.tm.ep }
  match k.anchors.find? fun a => a.src == u.src with
  | none => (true, fresh :: rest)
  | some a =>
    let off := timeDiff u.tm.t a.t * 384 - s.periodNs384 (a.k + 1) u.period a.ep
    if u.tm.ep ≠ k.ep ∨ 15625 < |off| then (true, fresh :: rest) else (false, { a with k := a.k + 1 } :: rest)
/-- The records that a unit adds to a packet, and the anchors after it: none yet in a new packet, whose first record the time word
dates. -/
def State.unitIn (s : State) (k : Option Pkt) (u : RUnit) : List Rec × List Anchor :=
  match k with
  | none =>
    let first : List Anchor := if u.src < 40 then [{ src := u.src, t := u.tm.t, k := 0, ep := u.tm.ep }] else []
    (u.recs, first)
  | some k =>
    if u.stamped ∨ 40 ≤ u.src then (u.recs, k.anchors)
    else let (pair, an) := s.dateIn k u; (u.recs ++ (if pair then stampPair u.tm else []), an)
/-- A unit closes the open packet before it enters: later epoch, SYN, or PKT_MAX (R261, R262). -/
def State.unitCloses (s : State) (q : Nat) (k : Pkt) (u : RUnit) : Bool :=
  (decide (u.src < 40) && decide (k.ep < u.tm.ep)) ||
  (u.recs.any fun r => decide (r.flags &&& flagSYN ≠ 0) && k.srcs.contains r.source) ||
  decide (s.fld (.weirPkt q) 31 16 < k.count + (s.unitIn (some k) u).1.length)
/-- The first record of a packet, with those that join it, that has a mark. -/
def Pkt.firstOf (k : Pkt) (old : Option Nat) (recs : List Rec) (p : Rec → Bool) : Option Nat :=
  old <|> (recs.findIdx? p).map (· + k.count)
/-- A mover writes a unit that fits into a queue: a packet opens where none is open, whole words are written, the rest is kept
(R258, R259, R262, R282). -/
def State.writeUnit (s : State) (m q : Nat) (u : RUnit) : State :=
  let x := s.queue q
  let (recs, anchors) := s.unitIn x.pkt u
  let opening := x.pkt.isNone
  let k : Pkt := x.pkt.getD { slot := x.w, ep := u.tm.ep, trunc := x.truncNext, flushed := x.flushNext }
  let done := 6 * k.count / 8
  let (ws, rest) := wholeWords (recs.length + 1) (k.part ++ recs.flatMap recBytes)
  let k' : Pkt := { k with count := k.count + recs.length, part := rest, anchors := anchors, srcs := recs.map (·.source) ++ k.srcs
                           fault := k.firstOf k.fault recs fun r => decide (r.flags &&& flagFLT ≠ 0) || faultEvent r
                           ecc := k.firstOf k.ecc recs eccEvent }
  let s := if opening then s.modQueue q fun x => { x with truncNext := false, flushNext := false } else s
  let head : Nat × List W64 := if opening then (k.slot + 1, BitVec.ofNat 64 u.tm.t :: ws) else (k.slot + 2 + done, ws)
  let (s, bad) := s.putWords q head.1 head.2
  match bad with
  | some p => (s.abortPkt m q k' p 1 (s.qAddr q p)).markCheck q
  | none => (s.modQueue q fun x => { x with pkt := some k' }).setW q (k.slot + 2 + ceilDiv (6 * k'.count) 8)
/-- Words that the queue would occupy up to after a unit (R263). -/
def State.wAfter (s : State) (q : Nat) (u : RUnit) : Nat :=
  let x := s.queue q
  let n := (s.unitIn x.pkt u).1.length
  match x.pkt with
  | some k => k.slot + 2 + ceilDiv (6 * (k.count + n)) 8
  | none => x.w + 2 + ceilDiv (6 * n) 8
/-- A mover stores a unit in a queue, or drops it (R257, R262, R263, R282). -/
def State.storeUnit (s : State) (m q : Nat) (u : RUnit) : State :=
  if !s.qOn q then s
  else if (s.queue q).whalt then (s.qDrop q u.recs.length).modQueue q fun x => { x with dropS := true }
  else
    let s := match (s.queue q).pkt with
      | some k => if s.unitCloses q k u then s.closePkt m q false else s
      | none => s
    if (s.queue q).whalt then (s.qDrop q u.recs.length).modQueue q fun x => { x with dropS := true }
    else if s.wAfter q u - (s.queue q).f ≤ s.sizeW q then (s.writeUnit m q u).thrEval q
    else
      let s := if (s.queue q).pkt.isSome then s.closePkt m q true else s.modQueue q fun x => { x with truncNext := true }
      (((s.qDrop q u.recs.length).modQueue q fun x => { x with dropS := true }).irqFire 56).thrEval q

/-! ### Flush, close, commit -/

/-- The window of a port. -/
def State.win (s : State) (p : Port) : Window := match p with | .a => s.weir.winA | .b => s.weir.winB
/-- Replace the window of a port. -/
def State.setWin (s : State) (p : Port) (x : Window) : State :=
  match p with
  | .a => { s with weir := { s.weir with winA := x } }
  | .b => { s with weir := { s.weir with winB := x } }
/-- Empty the windows bound to a queue (R274). -/
def State.emptyWin (s : State) (q : Nat) : State :=
  [Port.a, Port.b].foldl (fun s p => if (s.win p).q = some q then s.setWin p { s.win p with words := [] } else s) s
/-- A flush takes effect (R271). -/
def State.flushNow (s : State) (q : Nat) : State :=
  (s.modQueue q fun x =>
    { x with f := x.w, r := x.w, c := x.w, pkt := none, closed := [], ends := [], markValid := false, flushNext := true, flushPend := false
             closePend := false, commitPend := false }).emptyWin q
/-- Units that wait at MV0: one that goes to several queues, which stand in ascending order, is one (R257, R281; log entry 123). -/
def unitCount : List (Nat × RUnit) → Nat
  | [] => 0
  | [_] => 1
  | a :: b :: l => (if a.2 = b.2 ∧ a.1 < b.1 then 0 else 1) + unitCount (b :: l)
/-- Units that MV0 holds (R281). -/
def State.mv0Units (s : State) : Nat := unitCount s.weir.mv0
/-- MV0 is writing a unit of a queue (log entry 40). -/
def State.inProgress (s : State) (q : Nat) : Bool := match s.weir.mv0 with | (n, _) :: _ => n == q | [] => false
/-- Write of FLUSH (R271). -/
def State.flushReq (s : State) (q : Nat) : State :=
  if s.inProgress q then s.modQueue q fun x => { x with flushPend := true } else s.flushNow q
/-- The unit in progress ends in the discard sink, and the deferred flush takes effect (R271). -/
def flushEffect (q : Nat) (s : State) : State :=
  if !(s.queue q).flushPend then s
  else if s.inProgress q then ({ s with weir := { s.weir with mv0 := s.weir.mv0.drop 1 } }.flushNow q).thrEval q
  else (s.flushNow q).thrEval q
/-- The open packet closes by request (R262, R277). -/
def State.closeNow (s : State) (q : Nat) : State :=
  ((s.closePkt 0 q false).modQueue q fun x => { x with closePend := false }).thrEval q
/-- C advances over every closed packet; whether it moved (R265). -/
def State.commit (s : State) (q : Nat) : State :=
  let x := s.queue q
  match x.closed.getLast? with
  | none => s
  | some (e, n) =>
    let keep := x.ends.filter fun p => decide (x.w < p + s.sizeW q)
    let s := s.setQueue q { x with c := e, lastSeq := n, closed := [], ends := keep ++ x.closed.map (·.1) }
    let s := if s.fld (.weirThr q) 31 30 = 1 ∧ !x.fired then (s.modQueue q fun y => { y with fired := true }).thrFire q else s
    s.thrEval q
/-- UNIT_STORE: MV0 finishes the first unit that waits for it; a close that waited for it takes effect (R257, R262, R263, R280). -/
def unitStore (s : State) : State :=
  match s.weir.mv0 with
  | [] => s
  | (q, u) :: rest =>
    if (s.queue q).flushPend then flushEffect q s
    else
      let t := ({ s with weir := { s.weir with mv0 := rest } }).storeUnit 0 q u
      if !(t.queue q).closePend then t
      else if !(t.queue q).commitPend then t.closeNow q
      else ((t.closeNow q).modQueue q fun x => { x with commitPend := false }).commit q
/-- What a tick boundary does to a queue (R26, R262, R265). -/
def State.qTick (s : State) (q : Nat) : State :=
  if !s.qOn q then s
  else
    let more (k : Pkt) : Pkt := { k with ticks := k.ticks + 1 }
    (s.modQueue q fun x => { x with fired := false, pkt := x.pkt.map more }).commit q
/-- A close of a queue's open packet is requested: the unit in progress still belongs to the packet, and a flush that waits for the same
unit boundary discards the packet instead (R262, R272). -/
def State.closeReq (s : State) (q : Nat) : State :=
  if !s.qOn q || (s.queue q).flushPend then s
  else if s.inProgress q then s.modQueue q fun x => { x with closePend := true }
  else s.closeNow q
/-- PKT_TICKS_CLOSE: a packet that has stood open for PKT_TICKS tick boundaries closes, and C advances over it (R262, R265). -/
def pktTicksClose (q : Nat) (s : State) : State :=
  match (s.queue q).pkt with
  | some k =>
    let n := s.fld (.weirPkt q) 15 0
    if s.qOn q && decide (n ≠ 0) && decide (n ≤ k.ticks) then
      let t := s.closeReq q
      if (t.queue q).closePend then t.modQueue q fun x => { x with commitPend := true } else t.commit q
    else s
  | none => s
/-- The consumer "Mark Qn", or MARK_W (R267). -/
def State.markAt (s : State) (q : Nat) (slot : Option Nat) : State :=
  s.modQueue q fun x => { x with m := slot.getD x.w, markValid := true }

/-! ### Registers of a queue -/

/-- Blocks of a queue's area. -/
def State.qBlocks (s : State) (q : Nat) : List Nat :=
  (List.range (s.fld (.weirArea q) 25 16)).map fun i => s.fld (.weirArea q) 9 0 + i
/-- The area of a queue allows its enable (R278). -/
def State.areaOk (s : State) (q : Nat) : Bool :=
  let base := s.fld (.weirArea q) 9 0
  let size := s.fld (.weirArea q) 25 16
  decide (1 ≤ size) && decide (base + size ≤ 1024) && decide (64 * s.fld .regionBound 3 0 ≤ base) &&
  ((List.range 16).all fun n => !(s.qOn n && decide (n ≠ q) && decide (base < s.fld (.weirArea n) 9 0 + s.fld (.weirArea n) 25 16 ∧
    s.fld (.weirArea n) 9 0 < base + size))) &&
  (s.qBlocks q).all fun b => (s.region b).1 % 4 == 3
/-- A queue in conflict (R304). -/
def State.qConflict (s : State) (q : Nat) : Rej := s.conflict (0x20 + q) (s.qOn q).toNat
/-- A queue's contents and its window are discarded, with its units at MV0; what an enable resets stays until then (R278). -/
def State.discardQ (s : State) (q : Nat) : State :=
  let s := { s with weir := { s.weir with mv0 := s.weir.mv0.filter fun u => decide (u.1 ≠ q) } }
  (s.modQueue q fun x =>
    { x with f := x.w, r := x.w, c := x.w, pkt := none, closed := [], ends := [], flushPend := false, closePend := false, commitPend := false }).emptyWin q
/-- Write of WEIR_Qn_CFG (R278). -/
def queueEnable (q : Nat) (v : W32) (s : State) : Except Rej State :=
  let t := s.setReg (.weirCfg q) (v &&& 0xe0000000)
  if s.qOn q then
    if bits v.toNat 30 29 ≠ s.qOwner q then .error (s.qConflict q)
    else if v.getLsbD 31 then .ok t
    else .ok (t.discardQ q)
  else if v.getLsbD 31 then
    if !s.areaOk q then .error (.badParam, [])
    else if !s.bit .bootStatus 0 then .error (s.conflict 0xfe 0)
    else .ok ((t.setQueue q { thrHigh := (t.setQueue q {}).thrSide q }).emptyWin q)
  else .ok t
/-- Write of WEIR_Qn_AREA. -/
def weirAreaWrite (q : Nat) (v : W32) (s : State) : Except Rej State :=
  if s.qOn q then .error (s.qConflict q) else .ok (s.setReg (.weirArea q) (v &&& 0x3ff03ff))
/-- Write of WEIR_Qn_PKT. -/
def weirPktWrite (q : Nat) (v : W32) (s : State) : Except Rej State :=
  if bits v.toNat 31 16 = 0 then .error (.badParam, []) else .ok (s.setReg (.weirPkt q) v)
/-- Write of WEIR_Qn_THR: the threshold takes the present side (R277). -/
def weirThrWrite (q : Nat) (v : W32) (s : State) : State :=
  let t := s.setReg (.weirThr q) (v &&& 0xc007ffff)
  t.modQueue q fun x => { x with thrHigh := t.thrSide q }
/-- Write of REWIND (R269). -/
def State.rewindReq (s : State) (q : Nat) : Except Rej State :=
  let x := s.queue q
  if !x.markValid then .error (.markStale, [])
  else if x.c < x.m ∨ s.qOwner q = 3 then .error (s.qConflict q)
  else .ok ((s.setQueue q { x with r := x.m, f := min x.f x.m, rhalt := false }).emptyWin q)
/-- Write of SKIP (R270). -/
def State.skipReq (s : State) (q : Nat) : Except Rej State :=
  let x := s.queue q
  if s.qOwner q = 3 ∨ x.r = x.c then .error (s.qConflict q)
  else .ok ((s.setQueue q { x with r := (x.ends.find? fun e => decide (x.r < e)).getD x.c, rhalt := false }).emptyWin q)
/-- Write of RESUME (R282). -/
def State.resumeReq (s : State) (q : Nat) : Except Rej State :=
  if (s.qBlocks q).any fun b => (s.region b).1 % 2 == 0 then .error (.badParam, [])
  else .ok (if (s.queue q).whalt then s.modQueue q fun x => { x with whalt := false, truncNext := true } else s)
/-- Write of WEIR_Qn_CTRL: its bits in the order of R272; a refusal of one changes nothing. A CLOSE with a FLUSH falls on the same unit
boundary: the packet is discarded and spends no SEQ. -/
def weirCtrlWrite (q : Nat) (v : W32) (s : State) : Except Rej State := do
  let slot := (s.queue q).pkt.map (·.slot)
  let on (i : Nat) : Bool := v.getLsbD i
  if on 4 && s.qOwner q == 3 then throw (s.qConflict q)
  let s := if on 1 && !on 2 then s.closeReq q else s
  let s := if on 2 then s.flushReq q else s
  let s := if on 3 then s.markAt q slot else s
  let s := if on 4 then s.modQueue q fun x => { x with m := x.r, markValid := true } else s
  let s := if on 5 then s.modQueue q fun x => { x with markValid := false } else s
  let s ← if on 6 then s.rewindReq q else pure s
  let s ← if on 7 then s.skipReq q else pure s
  let s ← if on 8 then s.resumeReq q else pure s
  let s := if on 9 then s.modQueue q fun x => { x with dropS := false, abortS := false, underrun := false, markOver := false } else s
  let s := if on 2 && !(s.queue q).flushPend then s.modQueue q fun x => { x with markValid := false } else s
  pure (s.thrEval q)
/-- Write of WEIR_Qn_REL (R266). -/
def weirRelWrite (q : Nat) (v : W32) (s : State) : Except Rej State :=
  let x := s.queue q
  let n := bits v.toNat 18 0
  if !v.getLsbD 31 ∧ x.r - x.f < n then .error (.badParam, [])
  else if s.qOwner q = 3 then .error (s.qConflict q)
  else .ok ((s.setQueue q { x with f := if v.getLsbD 31 then x.r else x.f + n }).thrEval q)
/-- WEIR_Qn_STATUS. -/
def State.weirStatusWord (s : State) (q : Nat) : W32 :=
  let x := s.queue q
  BitVec.ofNat 32 (x.lastSeq % 256 * 2 ^ 24 + x.dropS.toNat * 256 + x.abortS.toNat * 128 + x.underrun.toNat * 64 + x.markOver.toNat * 32
    + (x.markValid && decide (x.m < x.f)).toNat * 16 + x.markValid.toNat * 8 + x.rhalt.toNat * 4 + x.whalt.toNat * 2 + x.pkt.isSome.toNat)

/-! ### Reading -/

/-- Words of a queue that replies not yet sent will consume (R275). -/
def State.owed (s : State) (q : Nat) : Nat :=
  (s.proto.replies.filterMap fun r => r.q.bind fun x => if x.1 = q then some x.2.1 else none).sum
/-- Up to `n` committed words from a word count; the count of the first that cannot be read: QR is denied, or it lies `bad` words
in and has an uncorrectable error. -/
def State.readWords (s : State) (q : Nat) : Nat → Nat → Option Nat → List W64 × Option (Nat × Nat)
  | _, 0, _ => ([], none)
  | p, n + 1, bad =>
    if (s.queue q).c ≤ p then ([], none)
    else if !s.allows (s.qAddr q p) 1 then ([], some (p, 1))
    else if bad = some 0 then ([], some (p, 2))
    else
      let (ws, f) := s.readWords q (p + 1) n (bad.map (· - 1))
      (s.qWord q p :: ws, f)
/-- A reading mover meets a fault: the queue's read side halts (R283). -/
def State.readFault (s : State) (m q : Nat) (f : Option (Nat × Nat)) : State :=
  match f with
  | none => s
  | some (p, cause) => (s.moverFault m cause q (s.qAddr q p)).modQueue q fun x => { x with rhalt := true }
/-- WINDOW_PREFETCH: the mover of a port fills its window from the bound queue; `bad`: the first word it reads that has an uncorrectable
error; `fixed`: how many it corrects (R21, R274, R283). -/
def windowPrefetch (p : Port) (bad : Option Nat) (fixed : Nat) (s : State) : State :=
  let w := s.win p
  match w.q with
  | none => s
  | some q =>
    if !s.qOn q ∨ (s.queue q).rhalt then s
    else
      let start := (s.queue q).r + s.owed q + w.words.length
      let (ws, f) := s.readWords q start (64 - w.words.length) bad
      ((s.sramFixed fixed).setWin p { w with words := w.words ++ ws }).readFault (1 + portIx p) q f
/-- Last word delivered from a queue to a port (R275). -/
def Queue.last (x : Queue) (p : Port) : W64 := match p with | .a => x.lastA | .b => x.lastB
/-- R advances by delivered words (R275). -/
def State.advR (s : State) (q k : Nat) : State :=
  if s.qOn q then (s.modQueue q fun x => { x with r := min x.c (x.r + k) }).thrEval q else s
/-- QUEUE_READ (R275): `shown` slots find a word in the window; `bad` is the first word with an uncorrectable error. -/
def queueReadBody (h : Hdr) (q n shown : Nat) (bad : Option Nat) (s : State) : Res :=
  if 16 ≤ q ∨ n = 0 ∨ 4096 < n then .no (.badParam, [])
  else if !s.qOn q then .no (s.qConflict q)
  else
    let p := srcPort h.src
    let s := if (s.win p).q = some q then s else s.setWin p { q := some q }
    let staged := (s.win p).words
    let start := (s.queue q).r + s.owed q
    let m := if p = .a then 1 else 2
    let want := min n shown
    let (ws, f) := if (s.queue q).rhalt then ([], none) else s.readWords q (start + staged.length) (want - staged.length) bad
    let got := (staged ++ ws).take want
    let k := got.length
    let s := (s.setWin p { q := some q, words := staged.drop k }).readFault m q f
    let before := (s.queue q).last p
    let last := got.getLast?.getD before
    let s := s.modQueue q fun x =>
      { x with underrun := x.underrun || decide (k < n), lastA := if p = .a then last else x.lastA, lastB := if p = .b then last else x.lastB }
    let trailer := (decide (k < n)).toNat * 2 ^ 31 + (s.queue q).rhalt.toNat * 2 ^ 30 + k
    let data := (got ++ List.replicate (n - k) last).flatMap (fun w => leBytes 8 w.toNat) ++ leBytes 4 trailer
    match h.src with
    | .port _ => .okQ s data (some (q, k, before))
    | .link _ _ => .ok (s.advR q k) data

/-! ### Packets built whole by another mover -/

/-- MV6 builds a packet of its own from units, dated as R260 dates them (R280, R382). -/
def State.storePacket (s : State) (m q : Nat) (us : List RUnit) : State :=
  let s := us.foldl (fun s u => s.storeUnit m q u) (s.closePkt m q false)
  (s.closePkt m q false).thrEval q

end Sys2Proof.Machine
end

