-- ==== Sys2Proof/Machine/Engine.lean ====
section
/-! DEFINITION. The Sluice engine: outputs that become ready at a boundary, work items in the order of R31, records that leave, and
outputs that are abandoned (R31 to R35, R150 to R178). -/

namespace Sys2Proof.Machine

/-! ### The chain's engine stages -/

/-- Inputs of the newest-first history `h`, as many as `k`, with zeros for what the clear at the latest reset took (R170). -/
def padded (k : Nat) (h : List Smp) : List Smp := (h ++ List.replicate (k - h.length) (default : Smp)).take k
/-- The mark of an output: its own limit and the marks of its inputs (R158, R162). -/
def outOf (v : Int × Bool) (h : List Smp) : Smp := { v := v.1, lim := v.2 || h.any (·.lim), bad := h.any (·.bad) }
/-- A half-band output over its 43 inputs (R153). -/
def halfband (h : List Smp) : Smp :=
  let x (i : Nat) : Int := (h.getD i {}).v
  let acc := (List.range 11).foldl (fun a k =>
    a + (halfbandWord k).toInt * (x (20 - 2 * k) + x (22 + 2 * k))) (x 21 * 2 ^ 34)
  outOf (sat36 (rshift acc 35)) h
/-- Σ c_k x_(n−k). -/
def convolve : List Int → List Smp → Int
  | c :: cs, x :: xs => c * x.v + convolve cs xs
  | _, _ => 0
/-- Insert into an ascending list. -/
def insertUp (v : Int) : List Int → List Int
  | [] => [v]
  | a :: l => if v ≤ a then v :: a :: l else a :: insertUp v l
/-- The input of a rank among the last L (R155). -/
def ranked (k : Nat) (h : List Smp) : Smp :=
  outOf (((h.map (·.v)).foldl (fun l v => insertUp v l) []).getD k 0, false) h
/-- The two halves of a kept IIR output (R156; log entry 37). -/
def halves (y : Int) : Int × Int := (y / 2 ^ 35, y % 2 ^ 35)
/-- What fits the two halves. -/
def clamp70 (y : Int) : Int := max (-(2 ^ 70)) (min (2 ^ 70 - 1) y)
/-- The output of an accumulator that a shift brings to 36 bits, before it is kept in two halves (R156, R158). -/
def sat70 (y : Int) : Int × Bool := sat36 (rshift y 35)
/-- One step of the IIR section: its new state and its output (R156, R158; log entry 37). -/
def State.iirStep (s : State) (n bank : Nat) (x : Smp) (f : Iir) : Iir × Smp :=
  let c (k : Nat) : Int := s.iirCoef n bank k
  let sh := s.fld (.sluSh n) 13 8
  let (h1, l1) := halves f.y1
  let (h2, l2) := halves f.y2
  let scaleUp (a : Int) : Int := a * 2 ^ 35 / 2 ^ sh
  let (y, out) :=
    if s.iirMode n = 1 then
      let y := f.y1 + scaleUp (c 0 * (x.v - h1) - c 0 * l1 / 2 ^ 35)
      (clamp70 y, sat70 y)
    else
      let acc := c 0 * x.v + c 1 * f.x1 + c 2 * f.x2 - c 3 * h1 - c 4 * h2 - c 3 * l1 / 2 ^ 35 - c 4 * l2 / 2 ^ 35
      (clamp70 (scaleUp acc), sat36 (rshift acc sh))
  let age (now : Bool) (a : Option Nat) : Option Nat := if now then some 0 else a.map (· + 1)
  let recent (a : Option Nat) : Bool := a.elim false fun k => decide (k < (s.iirLen n bank).getD 1)
  let la := age x.lim f.limAge
  let ba := age x.bad f.badAge
  ({ x1 := x.v, x2 := f.x1, y1 := y, y2 := f.y1, limAge := if out.2 then some 0 else la, badAge := ba },
   { v := out.1, lim := out.2 || recent la, bad := recent ba })

/-- Inputs that one output of a stage takes. -/
def State.stageTake (s : State) (n : Nat) : Stage → Nat
  | .hb1 | .hb2 => 2
  | .fir => s.firF n
  | _ => 1
/-- Inputs that a windowed stage looks at (R153 to R155). -/
def State.stageLen (s : State) (n : Nat) : Stage → Nat
  | .fir => s.firT n
  | .rank => s.rankL n
  | _ => 43
/-- History of a windowed stage. -/
def Filt.hist (f : Filt) : Stage → List Smp
  | .hb1 => f.hb1
  | .hb2 => f.hb2
  | .fir => f.fir
  | .rank => f.rank
  | _ => []
/-- Replace the history of a windowed stage. -/
def Filt.setHist (f : Filt) (st : Stage) (h : List Smp) : Filt :=
  match st with
  | .hb1 => { f with hb1 := h }
  | .hb2 => { f with hb2 := h }
  | .fir => { f with fir := h }
  | .rank => { f with rank := h }
  | _ => f
/-- Empty what a stage keeps (R170). -/
def Filt.clearStage (f : Filt) : Stage → Filt
  | .iir => { f with iir := {} }
  | .scl => { f with dec := [], lastDec := {} }
  | st => f.setHist st []
/-- A stage takes the oldest inputs of its leg: the window of its item, newest first (R153 to R155). -/
def State.stageOpen (s : State) (n : Nat) (l : Leg) : State × List Smp :=
  let f := if l.fresh then (s.ch n).filt.clearStage l.st else (s.ch n).filt
  let got := (l.inp.take (s.stageTake n l.st)).reverse
  if l.st = .iir then (s.modCh n fun c => { c with filt := f }, got)
  else
    let h := padded (s.stageLen n l.st) (got ++ f.hist l.st)
    (s.modCh n fun c => { c with filt := f.setHist l.st h }, h)
/-- What an item of a windowed stage makes of its window (R153 to R155, R158). -/
def State.stageValue (s : State) (n bank : Nat) (st : Stage) (h : List Smp) : Smp :=
  match st with
  | .fir => outOf (sat36 (rshift (convolve (s.firCoefs n bank) h) (s.fld (.sluSh n) 5 0))) h
  | .rank => ranked (s.rankK n) h
  | _ => halfband h
/-- The output of a filter item whose window is `h`; the IIR section moves on (R153 to R156). -/
def State.stageClose (s : State) (n : Nat) (j : Job) (st : Stage) (h : List Smp) : State × Smp :=
  let f := (s.ch n).filt
  let (f, o) :=
    if st = .iir then let (i, o) := s.iirStep n j.bank (h.headD {}) f.iir; ({ f with iir := i }, o)
    else (f, s.stageValue n j.bank st h)
  let o := { o with bad := o.bad || j.bad }
  (s.modCh n fun c => { c with filt := f, sat := c.sat || o.lim }, o)

/-- Weight i of P cascaded Q-point boxcars (R157). -/
def blockWeight (p q i : Nat) : Int :=
  (List.range (p + 1)).foldl (fun a k =>
    if k * q ≤ i then a + (-1) ^ k * Nat.choose p k * Nat.choose (i - k * q + p - 1) (p - 1) else a) 0
/-- The output decimator over its newest-first inputs (R157). -/
def blockOut (p q : Nat) (h : List Smp) : Smp :=
  let h := padded (p * (q - 1) + 1) h
  outOf (divRound (convolve ((List.range h.length).map (blockWeight p q)) h) (q ^ p), false) h
/-- The inputs of a chain output enter the output decimator, which gives the chain output. -/
def State.decimate (s : State) (n : Nat) (inp : List Smp) : State × Smp :=
  let p := s.decP n
  let q := s.decQ n
  let h := (inp.reverse ++ (s.ch n).filt.dec).take (p * (q - 1) + 1)
  let s := s.modCh n fun c => { c with filt := { c.filt with dec := h, lastDec := h.headD {} } }
  (s, if q = 1 then h.headD {} else blockOut p q h)

/-! ### Cost and order -/

/-- Lane-cycles of the item at the head of a job (R28). -/
def State.itemCost (s : State) (j : Job) : Stage → Nat
  | .hb1 | .hb2 => 12
  | .fir => s.firT j.source + 4
  | .rank => s.rankL j.source + 4
  | .iir => 4 * s.iirMode j.source
  | .scl | .det _ => 4
  | .ds => (s.dsSlots (j.source - 24)).length + 4
  | .lin => s.linCost j.source
  | .stat _ => 6
  | .loop => 16
  | .overhead => 1024
  | .wait => 0
/-- A stage that makes several outputs for one chain output, each an item of its own. -/
def Stage.windowed : Stage → Bool
  | .hb1 | .hb2 | .fir | .rank | .iir => true
  | _ => false
/-- Items that a leg still has to start, given the inputs still to reach it. -/
def State.legItems (s : State) (j : Job) (k : Nat) (l : Leg) : Nat :=
  if l.st.windowed then (l.inp.length + k) / max 1 (s.stageTake j.source l.st) else if j.runs.any (·.st == l.st) then 0 else 1
/-- Lane-cycles of the items that the stages of a job have still to start, given the inputs still to reach the first. -/
def State.owedCost (s : State) (j : Job) : Nat → List Leg → Nat
  | _, [] => 0
  | k, l :: rest =>
    let m := s.legItems j k l
    m * s.itemCost j l.st + s.owedCost j (m + (j.runs.filter fun r => r.st == l.st).length) rest
/-- Lane-cycles that a job still needs: items to start, and what is left of those that run. -/
def State.jobCost (s : State) (j : Job) : Nat :=
  s.owedCost j 0 j.todo + ((j.runs.filter (·.lane.isSome)).map fun r => s.itemCost j r.st - r.spent).sum

/-- Place of an item of a job in the order of R31: class, tick, then the order within a tick, the overhead first (R31, R191; log
entry 122). -/
def State.itemKey (s : State) (j : Job) (st : Stage) : List Nat :=
  let n := j.source
  let place : List Nat :=
    match st with
    | .overhead => []
    | .ds => [1, n, j.b]
    | .lin => [2, if s.couples n then 64 + n else n, j.b]
    | .det x => [3, x, j.b]
    | .stat i => [4, i, j.b]
    | _ => [0, n, j.b]
  (if j.prio && !j.ripe then 0 else 1) :: j.tick :: place
/-- Lexicographic order. -/
def keyLt : List Nat → List Nat → Bool
  | [], [] => false
  | [], _ => true
  | _, [] => false
  | a :: l, b :: m => decide (a < b) || (decide (a = b) && keyLt l m)
/-- A stage whose item changes the chain's histories: outputs of one chain pass it in order. -/
def Stage.filters : Stage → Bool
  | .hb1 | .hb2 | .fir | .rank | .iir | .scl => true
  | _ => false
/-- The job has one of the chain's filters before it. -/
def Job.filtering (j : Job) : Bool := j.todo.any (·.st.filters)
/-- All inputs of a stage of a job have gone into items, or it has no such stage. -/
def Job.passed (j : Job) (st : Stage) : Bool :=
  match j.todo with
  | [] => true
  | l :: _ => if l.st = st then (if st.windowed then l.inp.isEmpty else j.runs.any (·.st == st)) else !j.owes st
/-- A cold-junction record of a boundary at or before a job's is still to come whose value the job has to wait for: not of a PRIO output,
and among streams with cold junctions only of one before it in the order of R191. -/
def State.cjDue (s : State) (j : Job) : Bool :=
  let n := j.source
  s.couples n && !j.prio && (!s.couples (s.cj n) || decide (s.cj n < n)) && s.toCome (s.cj n) j.b fun o => !o.ripe
/-- The inputs of a leg's next item are ready (R31). An item of a filter needs all that older outputs of its chain put into that filter,
the IIR section the older result, detectors, statistics and the loop their older item; a first item of a PRIO output waits until the
older output has left the filters, so that its items can run back to back (R32); an IIR item or what has one item runs once. -/
def State.legReady (s : State) (i : Nat) (j : Job) (k : Nat) (l : Leg) : Bool :=
  let older := (s.eng.jobs.take i).filter fun o => o.source == j.source
  let head := decide (k = 0)
  let once := !j.runs.any (·.st == l.st)
  !(j.prio && j.filtering && older.any (·.filtering)) &&
  match l.st with
  | .hb1 | .hb2 | .fir | .rank => decide (max 1 (s.stageTake j.source l.st) ≤ l.inp.length) && older.all (·.passed l.st)
  | .iir => !l.inp.isEmpty && once && older.all fun o => !o.owes .iir
  | .scl => head && once && older.all (·.passed .scl)
  | .ds | .overhead => once
  | .lin => head && once && !s.cjDue j
  | st => once && older.all fun o => !o.owes st
/-- The next item of a job: the first of its legs, in data-path order, whose inputs are ready; none while a PRIO output has an item
running (R31, R32). -/
def State.nextLeg (s : State) (i : Nat) (j : Job) : Option (Leg × Nat) :=
  if j.prio && !j.ripe && !j.runs.isEmpty then none else j.todo.zipIdx.find? fun p => s.legReady i j p.2 p.1
/-- Index of the job whose item is dispatched next (R31). -/
def State.nextItem (s : State) : Option Nat :=
  (s.eng.jobs.zipIdx.foldl (fun (best : Option (Nat × List Nat)) (p : Job × Nat) =>
    match s.nextLeg p.2 p.1 with
    | none => best
    | some l =>
      let k := s.itemKey p.1 l.1.st
      match best with
      | none => some (p.2, k)
      | some b => if keyLt k b.2 then some (p.2, k) else some b) none).map (·.1)
/-- Replace the job at a place. -/
def State.setJob (s : State) (i : Nat) (j : Job) : State := { s with eng := { s.eng with jobs := s.eng.jobs.set i j } }
/-- The scaling item starts: the output decimator combines, and the registers of the scaling are read now (R157, R178 to R180). -/
def State.sclStart (s : State) (j : Job) (l : Leg) : State × Job :=
  let n := j.source
  let s := if l.fresh then s.modCh n fun c => { c with filt := c.filt.clearStage .scl } else s
  let (s, o) := s.decimate n l.inp
  let j := { j with val := o.v, lim := j.lim || o.lim, bad := j.bad || o.bad || (s.ch n).ecc }
  let (y, lim) := s.scaleOf n j
  (s, { j with val := y, lim := j.lim || lim })
/-- The item of leg `k` of a job starts on a lane (R31). -/
def State.startItem (s : State) (i : Nat) (j : Job) (l : Leg) (k lane : Nat) : State :=
  let run : Run := { st := l.st, lane := some lane, since := s.clk.mclk }
  let leg (x : Leg) : Job := { j with todo := j.todo.set k x }
  if l.st.windowed then
    let (s, h) := s.stageOpen j.source l
    let j := leg { l with inp := l.inp.drop (max 1 (s.stageTake j.source l.st)), fresh := false }
    s.setJob i { j with runs := j.runs ++ [{ run with win := h }] }
  else if l.st = .scl then
    let (s, j) := s.sclStart (leg { st := .scl }) l
    s.setJob i { j with runs := j.runs ++ [{ run with win := l.inp }] }
  else s.setJob i { j with runs := j.runs ++ [run] }
/-- The next item of a job starts on a lane. -/
def State.startNext (s : State) (i lane : Nat) : State :=
  match s.eng.jobs[i]? with
  | none => s
  | some j => match s.nextLeg i j with
    | none => s
    | some (l, k) => s.startItem i j l k lane
/-- Something of a job holds a lane. -/
def Job.onLane (j : Job) (lane : Nat) : Bool := j.runs.any fun r => r.lane == some lane
/-- A lane that runs nothing takes the next item (R31). -/
def State.fillLane (s : State) (lane : Nat) : State :=
  if s.eng.jobs.any (·.onLane lane) then s else s.nextItem.elim s fun i => s.startNext i lane
/-- The four lanes take what is ready (R31). -/
def State.fillLanes (s : State) : State := (List.range 4).foldl State.fillLane s
/-- Lane-cycles since the edge from which a running item is charged, at the lowest capacity of the tick (R27, R74). -/
def State.laneTime (s : State) (r : Run) : Nat :=
  if r.lane.isSome then (s.clk.mclk - r.since) * min s.eng.capNow s.sPerM else 0

/-! ### Output boundary -/

/-- Filter stages of a chain that are on, then scaling and its curve (R15, R150, R177). -/
def State.chainStages (s : State) (n : Nat) : List Stage :=
  (if 1 ≤ s.hbN n then [.hb1] else []) ++ (if 2 ≤ s.hbN n then [.hb2] else []) ++ (if s.firOn n then [.fir] else []) ++
  (if s.rankOn n then [.rank] else []) ++ (if s.iirMode n ≠ 0 then [.iir] else []) ++ [.scl] ++
  (if s.curve n ≠ 0 then [.lin] else [])
/-- Flags of a chain output at its boundary, but for faults and limits (R11, R75, R126, R167, R168, R170). -/
def State.boundaryFlags (s : State) (n b : Nat) : BitVec 6 :=
  let c := s.ch n
  let w := s.winNow n
  let eff := max (b - w) c.resetAt
  let ovr := c.ovrs.any (ivHit · eff b)
  flagIf (c.vrefWait || decide (b < c.settleAt + w)) flagUNS |||
  flagIf (match c.disAt with | some e => decide (eff ≤ e ∧ e < b) | none => false) flagDIS ||| flagIf ovr flagOVR |||
  flagIf c.synNext flagSYN ||| flagIf (s.clk.offPll.any (ivHit · eff b) || s.offAt b) flagCLK
/-- The job of a chain output at its boundary (R166, R169, R170). -/
def State.outputJob (s : State) (n b : Nat) (os : List Int) : Job :=
  let c := s.ch n
  let cap := s.frcAt b
  let measF := 16 * cap - s.tau16 n (s.bank n) * s.tPerM
  { source := n, tick := if s.eng.tickAt + s.eng.div ≤ b then s.eng.tickAt + s.eng.div else s.eng.tickAt, b := b, org := c.origin
    meas := s.stampAt cap ((measF + 8) / 16) (s.offAt b), measF := measF, flags := s.boundaryFlags n b
    wins := [(n, max (b - s.winNow n) c.resetAt, b)], bank := s.bank n
    todo := (s.chainStages n).zipIdx.map fun p =>
      { st := p.1, inp := if p.2 = 0 then os.map fun v => { v := v } else [], fresh := c.fresh && p.1.filters }
    prio := s.eng.prioMask / 2 ^ n % 2 == 1
    bad := c.ecc, period := s.decimD n }

/-! ### Records -/

/-- The kept form of an output: its value and flags as they stand. -/
def State.pastOfJob (s : State) (j : Job) : Past :=
  { b := j.b, val := j.val, flags := s.flagsNow j, meas := j.meas, measF := j.measF, period := j.period, org := j.org }
/-- Detector and statistics items that take the records of a source (R195, R199). -/
def State.takers (s : State) (n : Nat) : List Stage :=
  ((List.range 8).filter fun x => s.bit (.dtCfg x) 31 && s.fld (.dtCfg x) 13 8 == n).map Stage.det ++ s.statsOf n
/-- A chain's record without UNS, newer than the latest restart, moves it from SETTLING to RUNNING (R169). -/
def State.settled (s : State) (n : Nat) (j : Job) : State :=
  let c := s.ch n
  if c.st = .settling ∧ j.flags &&& flagUNS = 0 ∧ c.settleAt ≤ j.b then (s.modCh n fun c => { c with st := .running }).milestone n 0
  else s
/-- A record leaves the engine: to its queues and the Meld units, with its flags fixed (R142, R204, R229, R257, R401). -/
def State.leave (s : State) (j : Job) : State :=
  let n := j.source
  let fs := s.flagsNow j ||| flagIf (j.stampIt && j.meas.clk) flagCLK
  let r : Rec := { source := n, flags := fs, value := BitVec.ofInt 36 j.val }
  let u : RUnit := { src := n, recs := r :: (if j.stampIt then stampPair j.meas else []), tm := j.meas, stamped := j.stampIt
                     period := j.period }
  let s := (s.settleRef j.ref fs).emit u (s.queuesFor [n])
  let s := s.meldInput n { val := j.val, flags := fs, tm := j.meas, frc := (j.measF + 8) / 16, b := j.b }
  let p : Past := { s.pastOfJob j with flags := fs }
  if n < 24 then ((s.milestone n 1).settled n j).beoRecord n p
  else if n < 40 then s.beoRecord n p
  else s
/-- Streams whose records' flags go into the records of a stream: sources of a derived stream, the cold junction (R178, R191). -/
def State.flagSrcs (s : State) (n : Nat) : List Nat :=
  (if 24 ≤ n ∧ n < 40 then (s.dsSlots (n - 24)).map (·.2.src) else []) ++ (if s.couples n then [s.cj n] else [])
/-- Streams whose flags reach the records of a stream, itself among them. -/
def State.flagsFrom (s : State) (n : Nat) : List Nat :=
  (List.range 40).foldl (fun l _ => (l ++ l.flatMap s.flagSrcs).dedup) [n]
/-- The records that a job takes flags from are produced or abandoned, but for those that wait for flags of its own stream (R178; log entry
155). -/
def State.flagsReady (s : State) (j : Job) : Bool :=
  j.refs.all fun r => !(s.eng.jobs.any fun o => decide (o.ref = r.1) && !o.fin) || (s.flagsFrom r.1.1).contains j.source
/-- A stream record is produced: it is kept, and detectors and statistics take it (R177, R178). -/
def State.complete (s : State) (i : Nat) (j : Job) : State :=
  let j := { j with fin := true }
  let ts := s.takers j.source
  (s.keepPast (64 + j.source) (s.pastOfJob j)).setJob i
    { j with todo := legsOf ts, runs := if j.prio || ts.isEmpty then j.runs else [] }
/-- MV0 has a place for a unit of a source (R281; log entry 123). -/
def State.roomFor (s : State) (n : Nat) : Bool := (s.queuesFor [n]).isEmpty || decide (s.mv0Units < 64)
/-- Nothing stands before the leaving of a job's record: for a PRIO record its detectors and statistics come after it (R32, R204). -/
def Job.readyToLeave (j : Job) : Bool := !j.left && (j.prio || j.todo.isEmpty)
/-- A record leaves as soon as nothing is left to do for it, once MV0 has a place; a lane that held it is charged the wait (R32, R281). -/
def State.tryLeave (s : State) (i : Nat) (j : Job) : State :=
  if j.fin && j.readyToLeave && s.roomFor j.source then
    let held := ((j.runs.filter fun r => r.st == .wait).map s.laneTime).sum
    ({ s with eng := { s.eng with used := s.eng.used + held } }.leave j).setJob i
      { j with left := true, runs := j.runs.filter fun (r : Run) => !(r.st == Stage.wait) }
  else s
/-- One job: its record is produced once the flags are final, and leaves (R177, R178, R281). -/
def State.sweepJob (s : State) (i : Nat) : State :=
  let step (s : State) (f : State → Nat → Job → State) : State := s.eng.jobs[i]?.elim s (f s i)
  let s := step s fun s i j => if j.ripe && !j.fin && s.flagsReady j then s.complete i j else s
  step s State.tryLeave
/-- Jobs with nothing left to do are gone. -/
def Job.over (j : Job) : Bool := j.todo.isEmpty && j.runs.isEmpty && (j.left || (!j.ripe && !j.fin))
/-- Every job in its turn; then jobs with nothing left to do are gone. -/
def State.sweep (s : State) : State :=
  let s := (List.range s.eng.jobs.length).foldl State.sweepJob s
  { s with eng := { s.eng with jobs := s.eng.jobs.filter fun j => !j.over } }
/-- Ending periods and boundaries that waited for work settle (R185, R197, R200). -/
def State.settleWork (s : State) : State :=
  let s := (List.range 8).foldl State.detSettle s
  let s := (List.range 32).foldl State.statSettle s
  s.dsMisses
/-- The tick's overhead is done when its lane has spent 1,024 lane-cycles on it (R28, R31). -/
def State.overheadDone (s : State) : State :=
  let full (r : Run) : Bool := r.st == .overhead && decide (1024 ≤ s.laneTime r + r.spent)
  let done (j : Job) : Bool := j.runs.any full
  { s with eng := { s.eng with used := s.eng.used + ((s.eng.jobs.flatMap (·.runs)).filter full |>.map fun r => 1024 - r.spent).sum
                               jobs := s.eng.jobs.filter fun j => !done j } }
/-- The engine goes on after anything that can change what it holds: records leave, periods settle, lanes take what is ready. -/
def State.engineRun (s : State) : State := s.overheadDone.sweep.settleWork.sweep.fillLanes

/-- OUTPUT_BOUNDARY: D modulator outputs later the FRC is captured and the output's work becomes ready; a swap that is due has its edge
there, behind the output (R163, R166, R169, R173). -/
def outputBoundary (n : Nat) (xs : List Int) (s : State) : State :=
  let c := s.ch n
  if c.st = .idle ∨ !c.live ∨ xs.length ≠ s.decimD n then s
  else
    let b := c.lastB + s.decimD n
    let s := s.advanceTo b
    let s := if c.swapAt.isSome then s.takeSwap n b else s
    let (f, os) := s.frontRun n c.lastB xs c.filt
    let j := s.outputJob n b os
    let s := s.modCh n fun c => { c with lastB := b, filt := f, fresh := false, synNext := false
                                         swapAt := if c.swap && decide (c.swapFrom ≤ b) then some b else none }
    { s with eng := { s.eng with jobs := s.eng.jobs ++ [j] } }.engineRun

/-! ### Items -/

/-- A stage is finished when its inputs have all become outputs that went on. -/
def Job.skipDone (j : Job) : Job :=
  { j with todo := j.todo.dropWhile fun l => l.st.windowed && l.inp.isEmpty && !j.runs.any (·.st == l.st) }
/-- Finished items of a stage hand their outputs to the next in their order (R31). -/
def Job.deliver (j : Job) (st : Stage) : Job :=
  let mine := j.runs.filter fun r => r.st == st
  let out := (mine.takeWhile (·.lane.isNone)).map (·.out)
  let k := (j.todo.findIdx? fun l => l.st == st).elim 0 (· + 1)
  { j with runs := (j.runs.filter fun (r : Run) => !(r.st == st)) ++ mine.drop out.length
           todo := j.todo.modify k fun l => { l with inp := l.inp ++ out } }.skipDone
/-- An item leaves its stage: the stage is finished. -/
def Job.finish (j : Job) (st : Stage) : Job :=
  { j with todo := j.todo.filter fun l => !(l.st == st), runs := j.runs.filter fun r => !(r.st == st) }
/-- A filter item completes (R31). -/
def State.filterItem (s : State) (j : Job) (r : Run) : State × Job :=
  let (s, o) := s.stageClose j.source j r.st r.win
  (s, { j with runs := j.runs.map fun q => if q = r then { r with lane := none, out := o } else q }.deliver r.st)
/-- The scaling item of a chain output completes (R157, R177 to R180). -/
def State.sclItem (s : State) (j : Job) : State × Job :=
  let n := j.source
  let j := j.finish .scl
  let s := s.keepPast n (s.pastOfJob j)
  let s := State.loopInput (s.dsNotify n j.b j.org j.tick) n j.b j.tick j.val (s.flagsNow j)
  (s, { j with ripe := j.todo.isEmpty })
/-- The item of a derived stream: its value is a source for higher streams, then its curve (R183, R188). -/
def State.dsDone (s : State) (j : Job) : State × Job :=
  let (s, j) := s.dsItem (j.source - 24) (j.finish .ds)
  let s := (s.keepPast j.source (s.pastOfJob j)).dsNotify j.source j.b j.org j.tick
  (s, { j with ripe := j.todo.isEmpty })
/-- The linearisation item (R188 to R192); a record whose cold-junction record is still in the engine refers to it (R191). -/
def State.linItem (s : State) (j : Job) : State × Job :=
  let n := j.source
  let (y, o, fs) := s.linOf n j
  let more := if s.couples n then (s.coldJunction n j).toList.map fun p => ((s.cj n, p.b, p.org), cjFlags) else []
  (s, { j.finish .lin with val := y, lim := j.lim || o, flags := j.flags ||| fs, refs := j.refs ++ more, ripe := true })
/-- One item of a job. -/
def State.runItem (s : State) (j : Job) (r : Run) : State × Job :=
  match r.st with
  | .scl => s.sclItem j
  | .ds => s.dsDone j
  | .lin => s.linItem j
  | .det x => (s.detItem x j, j.finish r.st)
  | .stat i => (s.statItem i j, j.finish r.st)
  | .loop => (s.loopItem j, j.finish r.st)
  | .overhead | .wait => (s, j)
  | _ => s.filterItem j r
/-- Memory errors met by an item: a corrected one is noted; an uncorrectable coefficient error puts the chain in FAULTED; an
uncorrectable table error flags the record (R21, R162). -/
def State.itemEcc (s : State) (j : Job) (st : Stage) (e : EccEvent) : State × Job :=
  let n := j.source
  match e, st with
  | .corrected, .fir => (s.coefFixed true, j)
  | .corrected, .iir => (s.coefFixed true, j)
  | .coef i, .fir => (s.coefError n j.bank i, { j with bad := true })
  | .coef i, .iir => (s.coefError n j.bank i, { j with bad := true })
  | .corrected, .lin => if 13 ≤ s.curve n then (s.sramFixed 1, j) else (s, j)
  | .table, .lin =>
    if 13 ≤ s.curve n then ((s.event 0x1200 s.now s.queuesAll).irqFire 2, { j with bad := true }) else (s, j)
  | _, _ => (s, j)
/-- A record that MV0 has no place for holds the lane of its last item (R281). -/
def State.holdLane (s : State) (j : Job) (lane : Nat) : Job :=
  if j.ripe && j.readyToLeave && !s.roomFor j.source then
    { j with runs := j.runs ++ [{ st := .wait, lane := some lane, since := s.clk.mclk }] }
  else j
/-- The item that runs on a lane: not the tick's overhead, not a record that waits there for a place. -/
def Job.itemOn (j : Job) (lane : Nat) : Option Run :=
  j.runs.find? fun r => r.lane == some lane && r.st != .overhead && r.st != .wait
/-- ENGINE_ITEM: the item on a lane completes, with the stall cycles it met; a PRIO output goes on there, else the lane takes the next
(R28, R31, R32). -/
def engineItem (lane stall : Nat) (e : EccEvent) (s : State) : State :=
  match s.eng.jobs.zipIdx.find? fun p => (p.1.itemOn lane).isSome with
  | none => s
  | some (j, i) =>
    match j.itemOn lane with
    | none => s
    | some r =>
      let s := { s with eng := { s.eng with used := s.eng.used + (s.itemCost j r.st + stall - r.spent) } }
      let (s, j) := s.itemEcc j r.st e
      let (s, j) := s.runItem j r
      let s := s.setJob i (s.holdLane j lane)
      (if j.prio && !j.ripe then s.startNext i lane else s).engineRun

/-! ### Abandoned work -/

/-- A half-band or FIR history goes on over what an abandoned output would have put into it: the outputs that it would have given. -/
def State.passLeg (s : State) (j : Job) (l : Leg) (more : List Smp) : State × List Smp :=
  let n := j.source
  let mine := (j.runs.filter fun r => r.st == l.st).map fun r => if r.lane.isNone then r.out else s.stageValue n j.bank l.st r.win
  let inp := l.inp ++ more
  let k := max 1 (s.stageTake n l.st)
  let step (p : State × Leg × List Smp) (_ : Nat) : State × Leg × List Smp :=
    let (t, h) := p.1.stageOpen n p.2.1
    (t, { p.2.1 with inp := p.2.1.inp.drop k, fresh := false }, p.2.2 ++ [t.stageValue n j.bank l.st h])
  let (t, _, os) := (List.range (inp.length / k)).foldl step (s, { l with inp := inp }, [])
  (t, mine ++ os)
/-- The filter items of a job are passed over: the half-band and FIR histories go on, the rank window and the IIR state keep their
values, the output decimator gets its last value for what is missing (R34; log entry 38). -/
def State.passOver (s : State) (j : Job) : State :=
  let n := j.source
  let (s, _) := j.todo.foldl (fun (p : State × List Smp) l =>
    match l.st with
    | .hb1 | .hb2 | .fir => p.1.passLeg j l p.2
    | st => (if l.fresh then p.1.modCh n fun c => { c with filt := c.filt.clearStage st } else p.1, [])) (s, [])
  if j.runs.any (·.st == .scl) then s
  else
    let got := (j.todo.find? fun l => l.st == .scl).elim [] (·.inp)
    let last := got.getLastD (s.ch n).filt.lastDec
    let more := got ++ List.replicate (s.decQ n - got.length) last
    (s.decimate n more).1.modCh n fun c => { c with filt := { c.filt with lastDec := last } }
/-- SYN of an output that is not produced goes to the chain's next record (R11, R170). -/
def State.passSyn (s : State) (j : Job) : State :=
  if 24 ≤ j.source ∨ j.flags &&& flagSYN = 0 then s
  else match s.eng.jobs.findIdx? fun o => o.source == j.source && !o.fin && decide (j.b < o.b) with
    | some i => { s with eng := { s.eng with jobs := s.eng.jobs.modify i fun o => { o with flags := o.flags ||| flagSYN } } }
    | none => s.modCh j.source fun c => { c with synNext := decide (c.st ≠ .idle) }
/-- One job of a tick that ended a tick ago is abandoned: the chain output, the derived-stream or linearisation item, or what detectors and
statistics slots had still to take; an abandoned item counts once and those behind it are not counted; the overhead and the loop's item
count in no counter (R34; log entry 124). -/
def State.abandon (s : State) (j : Job) : State :=
  if 100 ≤ j.source then s
  else if j.filtering then ((s.passOver j).satAdd (.engDrop j.source) 31 0 1).passSyn j
  else if j.fin then s.satAdd .engDropAux 31 0 j.todo.length
  else (s.satAdd .engDropAux 31 0 1).passSyn j
/-- A job whose own tick ended a tick ago and that is not done (R34). -/
def Job.late (j : Job) (old : Nat) : Bool := decide (j.tick < old) && !j.todo.isEmpty
/-- The items of a late job are gone; a produced record stays until it has left. -/
def dropItems (old : Nat) (js : List Job) : List Job :=
  (js.filter fun j => !j.late old || j.fin).map fun j => if j.late old then { j with todo := [], runs := j.runs.filter fun r => r.st == .wait } else j
/-- The drop check of R34 at a tick boundary; `old`: the start of the ending tick. -/
def State.dropLate (s : State) (old : Nat) : State :=
  let late := s.eng.jobs.filter (·.late old)
  let s := { s with eng := { s.eng with jobs := dropItems old s.eng.jobs } }
  let s := late.foldl State.abandon s
  let chains := (List.range 24).filter fun n => late.any fun j => j.source == n && j.filtering
  let aux := late.filter fun j => !j.filtering && decide (j.source < 100)
  let s := chains.foldl (fun s n => s.event (0x1100 + n) s.now (s.queuesFor [n])) s
  let s := if aux.isEmpty then s else s.event 0x1118 s.now (s.queuesFor (aux.map (·.source)))
  if late.isEmpty then s
  else
    let s := if s.bit .engStatus 2 then s else s.produce 59
    (s.setBit .engStatus 2 true).irqFire 1
/-- Outputs to come from the outputs of ticks up to `old` that are not yet scaled or summed: source, boundary, origin. -/
def State.openOutputs (s : State) (old : Nat) : List Ref :=
  (s.eng.jobs.filter fun j => decide (j.tick ≤ old) && (j.owes .scl || j.owes .ds)).map Job.ref
/-- Derived-stream outputs still to come from the outputs of ticks up to `old` that are not yet scaled or summed. -/
def State.dsToCome (s : State) (old : Nat) : List Ref :=
  ((List.range 16).foldl (fun (acc : List Ref × List Ref) d =>
    let srcs := (s.dsSlots d).map (·.2.src)
    let seen (b o : Nat) : List Nat := ((s.dsr d).seen.find? fun e => e.1 == b && e.2.1 == o).elim [] (·.2.2)
    let hits := if s.bit (.dsCfg d) 31 then (acc.1.filter fun p => srcs.contains p.1).map (·.2) else []
    let full := hits.dedup.filter fun p => srcs.all fun k => acc.1.contains (k, p) || (seen p.1 p.2).contains k
    let new := full.map fun p => (24 + d, p)
    (acc.1 ++ new, acc.2 ++ new)) (s.openOutputs old, [])).2
/-- Iterations of the balance loop still to come from outputs that are not yet scaled (R405). -/
def State.loopsToCome (s : State) (old : Nat) : Nat :=
  if s.loop.st = 0 ∨ !s.bit .beoLoopCfg 31 then 0
  else
    let mine := (s.openOutputs old).filter fun p => s.loopSrcs.contains p.1
    ((mine.map (·.2.1)).dedup.filter fun b => s.loopSrcs.all fun n =>
      (mine.any fun p => p.1 == n && p.2.1 == b) || s.loop.inp.any fun e => e.1 == b && e.2.1 == n).length
/-- Records that detector x will put out after `m` more inputs (R196). -/
def State.detYield (s : State) (x m : Nat) : Nat :=
  let d := s.det x
  if s.dtMode x = 1 then (d.n + m) / s.dtBlock x
  else match s.fld (.dtCfg x) 29 28 with
    | 0 => m
    | 1 => (d.count + m) / 2 ^ s.fld (.dtCfg x) 23 20 - d.count / 2 ^ s.fld (.dtCfg x) 23 20
    | _ => 0
/-- Work that is carried over a tick boundary: what is left of each job; the linearisations, derived streams and loop iterations still to
come; the detector and statistics items of all records still to be produced, those of detectors among them (R33; log entry 125). -/
def State.carried (s : State) (old : Nat) : Nat :=
  let mine := s.eng.jobs.filter fun j => decide (j.tick ≤ old)
  let ds := s.dsToCome old
  let recs := ((mine.filter fun j => !j.fin && decide (j.source < 100)).map (·.source)) ++ ds.map (·.1)
  let inputs (x : Nat) : Nat := (mine.filter fun j => j.fin && j.owes (.det x)).length +
    (if s.bit (.dtCfg x) 31 then recs.countP (· == s.fld (.dtCfg x) 13 8) else 0)
  let taken (n : Nat) : Nat := ((s.takers n).map fun t => match t with | .det _ => 4 | _ => 6).sum
  (mine.map s.jobCost).sum + (ds.map fun p => (s.dsSlots (p.1 - 24)).length + 4 + s.linCost p.1).sum + 16 * s.loopsToCome old +
  (recs.map taken).sum + ((List.range 8).map fun x => s.detYield x (inputs x) * 6 * (s.statsOf (40 + x)).length).sum
/-- Running lanes are charged to the ending tick up to the present edge (R31, R33). -/
def State.chargeLanes (s : State) : State :=
  let charge (r : Run) : Run := { r with spent := r.spent + s.laneTime r, since := s.clk.mclk }
  { s with eng := { s.eng with used := s.eng.used + ((s.eng.jobs.flatMap (·.runs)).map s.laneTime).sum
                               jobs := s.eng.jobs.map fun j => { j with runs := j.runs.map charge } } }
/-- Engine accounting at a tick boundary (R33, R34, R41, R74); `old`: the start of the ending tick. -/
def State.closeTick (s : State) (old : Nat) : State :=
  let cap := capacityOf (min s.eng.capNow s.sPerM) s.eng.div
  let s := s.overheadDone.chargeLanes
  let load := loadFrac s.eng.used cap
  let s := s.setFld .engLoadLast 16 0 load
  let s := s.setFld .engLoadMax 16 0 (max load (s.fld .engLoadMax 16 0))
  let s := s.dropLate old
  let s := s.setFld .engLate 16 0 (loadFrac (s.carried old) cap)
  if s.eng.jobs.any fun j => decide (j.tick = old) && !j.todo.isEmpty then
    let s := if s.bit .engStatus 0 then s else s.produce 59
    (s.setBit .engStatus 0 true).irqFire 0
  else s

/-! ### Events at the engine's edges -/

/-- DETECTOR_LATCH: the oldest waiting reset finds its latch edge (R197). -/
def detectorLatch (x : Nat) (s : State) : State := (s.detLatch x).engineRun
/-- STAT_LATCH_EDGE: the oldest requested latch finds its edge (R200). -/
def statLatchEdge (i : Nat) (s : State) : State := (s.statLatch i).engineRun
/-- UNIT_STORE: the place that frees takes a record that the engine held (R281). -/
def unitStoreRun (s : State) : State := (unitStore s).engineRun
/-- The deferred flush takes effect and may free a place (R271, R281). -/
def flushEffectRun (q : Nat) (s : State) : State := (flushEffect q s).engineRun

end Sys2Proof.Machine
end

