-- ==== Sys2Proof/Machine/Time.lean ====
section
/-! DEFINITION. Corrected time: epochs, steps, TIME commands, registers (R357 to R363), the servo and the election of a master (R364
to R367). -/

namespace Sys2Proof.Machine

/-! ### Epochs -/

/-- OFFSET after a step S and a change of RATE at FRC `f` (R358), in 2^−16 ns within its 80 bits. -/
def newOffset (t : Tim) (f : Nat) (step rate : Int) : Int :=
  (BitVec.ofInt 80 (t.ofs + step + divRound (f * 15625 * (t.rate - rate)) (384 * 2 ^ 24))).toInt
/-- A change of OFFSET or RATE starts a new epoch at the next TCLK period (R261, R358). -/
def State.newEpoch (s : State) (step rate : Int) : State :=
  let t := s.tim
  { s with tim := { ofs := newOffset t (s.clk.frc + 1) step rate, rate := rate, epoch := t.epoch + 1
                    rates := cellSet t.rates (t.epoch + 1) rate
                    ended := t.ended ++ [(s.clk.frc + 1, t.epoch, t.ofs, t.rate)] } }
/-- A signed quantity limited to a 32-bit register. -/
def sat32 (v : Int) : W32 := BitVec.ofInt 32 (max (-(2 ^ 31)) (min (2 ^ 31 - 1) v))
/-- A software stamp from a sample of FRC: the nominal 1.1 µs is subtracted (R358, R365, R367). -/
def State.softTime (s : State) (f : Nat) : Nat := ((s.stampAt f f false).t + (2 ^ 64 - 1100)) % 2 ^ 64
/-- A software stamp taken now (R367; log entry 45). -/
def State.softNow (s : State) : Stamp := { s.now with t := s.softTime s.clk.frc }
/-- A software stamp of an event that happens now: the sample is taken up to 9 µs later, which the spec bounds and does not fix (R37, R367;
log entry 45). -/
def State.softLate (s : State) : State × Stamp :=
  let (t, late) := s.draw 8
  (t, { s.now with t := s.softTime (s.clk.frc + min 221 late.toNat) })
/-- A time event to every enabled queue (R362). -/
def State.timeEvent (s : State) (code : Nat) : State := s.event code s.now s.queuesAll
/-- Whole ns of a step in 2^−16 ns, downwards. -/
def stepNs (step : Int) : Int := step / 65536
/-- A step lies beyond TIME_JUMP_LIMIT (R360). -/
def State.beyond (s : State) (step : Int) : Bool := decide (((s.reg .timeJumpLimit).toNat : Int) * 65536 < |step|)
/-- A refused step (R362). -/
def State.refuseStep (s : State) (step : Int) : State :=
  (((s.setReg .timeLastStep (sat32 (stepNs step))).setBit .timeSrvStat 19 true).irqFire 72).timeEvent 0x1901
/-- An accepted step, with the rate that goes with it (R358, R362). -/
def State.acceptStep (s : State) (step rate : Int) : State :=
  let s := (s.newEpoch step rate).setReg .timeLastStep (sat32 (stepNs step))
  if step = 0 then s
  else
    let tm : Stamp := { s.now with t := s.timeOf (s.clk.frc + 1), ep := s.tim.epoch }
    (s.satAdd .timeCnt 23 16 1).event 0x1900 tm s.queuesAll

/-! ### Commands -/

/-- Servo state (R366). -/
def State.servoState (s : State) : Nat := s.fld .timeSrvStat 25 23
/-- TIME_SET and TIME_ADJUST are refused while a servo that is not MASTER holds the time (R363). -/
def State.timeHeld (s : State) : Bool := s.bit .timeSrvCfg 31 && s.servoState != 5
/-- A step by command: on a MASTER it counts in STEPSEQ (R363). -/
def State.hostStep (s : State) (step rate : Int) : State :=
  let forced := s.beyond step
  let s := (s.acceptStep step rate).setBit .timeSrvStat 22 forced
  if s.servoState = 5 then
    { s.setFld .timeSrvStat 7 0 ((s.fld .timeSrvStat 7 0 + 1) % 256) with servo := { s.servo with flag := forced } }
  else s
/-- TIME_READ (R359). -/
def timeReadBody (s : State) : Res := .ok s (leBytes 8 s.now.t ++ leBytes 8 s.clk.frc)
/-- TIME_SET (R360, R363). -/
def timeSetBody (h : Hdr) (t frac : Nat) (force : Bool) (s : State) : Res :=
  if s.timeHeld then .no (s.conflict 0xfe 0)
  else
    let step := timeDiff t (s.timeOf h.rx) * 65536 + frac
    if s.beyond step && !force then .part (s.refuseStep step) (.jumpRefused, [])
    else .ok (s.hostStep step s.tim.rate) []
/-- TIME_ADJUST (R361, R363). -/
def timeAdjustBody (st : Int) (frac : Nat) (rate : Int) (sel : Nat) (s : State) : Res :=
  let stepped := sel % 2 == 1
  let rated := sel / 2 % 2 == 1
  let step := st * 65536 + frac
  let r := if rated then rate else s.tim.rate
  if !stepped && !rated then .no (.badParam, [])
  else if s.timeHeld then .no (s.conflict 0xfe 0)
  else if stepped then
    if s.beyond step then .part (s.refuseStep step) (.jumpRefused, []) else .ok (s.hostStep step r) []
  else .ok (s.newEpoch 0 r) []

/-! ### Frames -/

/-- A frame of few bytes that goes before regular ones (R341). -/
def urgentFrame (f : Frame) : Bool := f.type == 0x04 || (decide (8 ≤ f.type) && decide (f.type ≤ 0x0c))
/-- Credits of a frame (R340). -/
def frameCredits (f : Frame) : Nat := if f.payload.isEmpty then 1 else ceilDiv (10 + f.payload.length) 16
/-- A frame of this node waits at a port that is UP. -/
def State.sendOut (s : State) (p : Nat) (f : Frame) : State := if s.portUp p then s.linkTx p (urgentFrame f) none f else s
/-- Own address as frames carry it. -/
def State.ownByte (s : State) : Nat := s.fld .linkNode 7 0
/-- TIME_SRV_CFG in force: a write takes effect at the next block (R365, register table). -/
def State.srvCfg (s : State) : W32 := (s.servo.held.map (·.1)).getD (s.reg .timeSrvCfg)
/-- A field of it. -/
def State.srv (s : State) (hi lo : Nat) : Nat := bits s.srvCfg.toNat hi lo
/-- TIME_SRV_PRI.PRI in force. -/
def State.srvPri (s : State) : Nat := bits ((s.servo.held.map (·.2)).getD (s.reg .timeSrvPri)).toNat 7 0
/-- The TIM frame that the node sends: a MASTER names itself, a follower its master (R341, R363, R364). -/
def State.timFrameOut (s : State) : Frame :=
  let (pri, m) := if s.fld .timeSrvStat 25 23 = 5 then (s.srvPri, s.ownByte) else s.servo.best.getD (s.srvPri, s.ownByte)
  { type := 0x0a, dest := 0x7f, src := s.ownByte
    payload := leBytes 8 s.now.t ++ [BitVec.ofNat 8 m, BitVec.ofNat 8 pri, BitVec.ofNat 8 (s.fld .timeSrvStat 15 8 + 1),
      BitVec.ofNat 8 (s.fld .timeSrvStat 7 0), BitVec.ofNat 8 s.servo.flag.toNat, 0, 0, 0] }
/-- TIM_SEND: a MASTER sends TIM out of each UP port every 2^PER ms (R364). -/
def timSend (s : State) : State :=
  let due := s.servo.sent.all fun t => decide (t + 2 ^ s.srv 30 28 * msT ≤ s.clk.frc)
  if s.servoState = 5 ∧ due = true then
    { (s.sendOut 0 s.timFrameOut).sendOut 1 s.timFrameOut with servo := { s.servo with sent := some s.clk.frc } }
  else s

/-! ### Servo -/

/-- The servo enters a state. -/
def State.setServo (s : State) (st : Nat) : State := s.setFld .timeSrvStat 25 23 st
/-- The node as a candidate: PRI and address (R364). -/
def State.selfBid (s : State) : Option (Nat × Nat) :=
  if s.bit .timeSrvCfg 31 ∧ s.srvPri < 255 then some (s.srvPri, s.ownByte) else none
/-- A candidate goes before another: by PRI, then by address (R364). -/
def bidBefore (b c : Nat × Nat) : Bool := decide (b.1 < c.1 ∨ (b.1 = c.1 ∧ b.2 < c.2))
/-- No block is in progress: what was written for the next one is in force (R365). -/
def Servo.noBlock (v : Servo) : Servo := { v with es := [], held := none }
/-- A bid is better than the master in force, or than the node itself where it follows none (R364). -/
def State.betterBid (s : State) (b : Nat × Nat) : Bool :=
  match (if s.servo.masterPort.isSome then s.servo.best else s.selfBid) with
  | some c => bidBefore b c
  | none => true
/-- A change of master (R366). -/
def State.newMaster (s : State) (node hops : Nat) : State :=
  (((s.setFld .timeSrvStat 31 26 node).setFld .timeSrvStat 15 8 hops).setBit .timeSrvStat 21 true |>.irqFire 74).timeEvent 0x1904
/-- MASTER as it shows the own address: 0x3F while it is unassigned (R366). -/
def State.ownMaster (s : State) : Nat := if s.ownByte = 0xff then 0x3f else s.ownByte
/-- The node becomes MASTER (R364, R366). -/
def State.becomeMaster (s : State) : State :=
  let s := { s with servo := { s.servo.noBlock with masterPort := none, forced := false, flag := false, sent := none } }
  let s := { s with servo := { s.servo with best := s.selfBid } }
  (s.setServo 5).newMaster s.ownMaster 0
/-- A follower that is a better candidate than its master becomes MASTER: its PRI or address has changed, or its master's (R364; DESIGN
CHOICE, log entry 177). -/
def State.elect (s : State) : State :=
  match s.selfBid, s.servo.best with
  | some b, some c => if s.servo.masterPort.isSome && decide (s.servoState ≠ 5) && bidBefore b c then s.becomeMaster else s
  | _, _ => s
/-- TCLK periods of HOLD intervals (R364, R366). -/
def State.holdT (s : State) : Nat := s.srv 15 12 * 2 ^ s.srv 30 28 * msT
/-- MASTER_TIMEOUT: no TIM for the set time (R364, R366). -/
def masterTimeout (s : State) : State :=
  let late (k : Nat) : Bool := decide (s.servo.since + k * s.holdT ≤ s.clk.frc) && decide (s.srvPri < 255)
  if (s.servoState = 1 && late 1) || (s.servoState = 4 && late 2) then s.becomeMaster else s
/-- HOLDOVER_TIMEOUT: a follower has accepted no TIM for the set time (R366). -/
def holdoverTimeout (s : State) : State :=
  if (s.servoState = 2 || s.servoState = 3) && decide (s.servo.since + s.holdT ≤ s.clk.frc) then
    let s := { (s.newEpoch 0 s.servo.i).setServo 4 with servo := { s.servo.noBlock with since := s.clk.frc } }
    ((s.setBit .timeSrvStat 20 true).irqFire 73).timeEvent 0x1902
  else s
/-- Nanoseconds of a TIM frame's 28 symbols at the rate of a port (R337, R365). -/
def State.timFrameNs (s : State) (p : Nat) : Nat := 28 * (400 / 2 ^ s.fld (.linkPStat p) 5 4)
/-- The master that TIME_SRV_STAT shows; none where it shows no other node (R366). -/
def State.shownMaster (s : State) : Option Nat := if s.fld .timeSrvStat 15 8 = 0 then none else some (s.fld .timeSrvStat 31 26)
/-- A TIM is accepted on port p: state, master, hops, error of the block, and its passing on (R364 to R366). -/
def State.acceptTim (s : State) (p : Nat) (f : Frame) (rx : Nat) : State :=
  let byte (i : Nat) : Nat := (f.payload.getD i 0).toNat
  let node := byte 8
  let hops := byte 10
  let seq := byte 11
  let forced := byte 12 % 2 == 1
  let old := s.servoState
  let changed := decide (s.shownMaster ≠ some (node % 64))
  let fresh := changed || old == 5 || decide (s.servo.masterPort ≠ some p)
  let jump := !changed && forced && decide (seq ≠ s.fld .timeSrvStat 7 0)
  let e := timeDiff (ofLe (f.payload.take 8)) (s.softTime rx) + s.fld (.linkPDly p) 15 0 + s.timFrameNs p
  let v := if fresh then s.servo.noBlock else s.servo
  let s := { s with servo := { v with masterPort := some p, best := some (byte 9, node), since := s.clk.frc, es := v.es ++ [e]
                                      forced := !changed && (s.servo.forced || jump), flag := forced } }
  let s := (s.satAdd .timeCnt 15 0 1).setFld .timeSrvStat 7 0 seq
  let s := if changed then s.newMaster node hops else s.setFld .timeSrvStat 15 8 hops
  let est : Bool := s.bit .rstCause 10
  if old = 4 then (s.setServo 2).timeEvent 0x1903
  else if changed && est then s.setServo 1
  else if old = 5 then s.setServo 2
  else if old = 2 then s.sendOut (1 - p) s.timFrameOut
  else s
/-- A TIM arrives: from the port that faces the master, or from a better master (R364). -/
def State.timArrives (s : State) (p : Nat) (f : Frame) (rx : Nat) : State :=
  let bid := ((f.payload.getD 9 0).toNat, (f.payload.getD 8 0).toNat)
  if s.servoState = 0 then s
  else if s.servo.masterPort = some p || s.betterBid bid then (s.acceptTim p f rx).elect
  else s
/-- Length of a block in ns (R365). -/
def State.blockNs (s : State) : Nat := 2 ^ (s.srv 27 25 + s.srv 30 28) * 1000000
/-- A rate within its 32 bits (R365). -/
def limRate (v : Int) : Int := max (-(2 ^ 31)) (min (2 ^ 31 - 1) v)
/-- The block steps or adjusts the rate, by the largest error of the block; REFUSED stays until an error within STEP_THR or a forced step
(R365, R366). -/
def State.servoAct (s : State) (e : Int) : State :=
  let st := s.servoState
  let forced := s.servo.forced
  let s := { s.setReg .timeErr (sat32 e) with servo := { s.servo with es := [], forced := false } }
  let thr : Int := s.srv 11 0
  if thr < |e| then
    let step := e * 65536
    if st = 1 ∨ forced ∨ !s.beyond step then
      ((s.acceptStep step s.tim.rate).setBit .timeSrvStat 22 forced).setServo (if st = 3 ∧ !forced then 3 else 2)
    else ((s.refuseStep step).satAdd .timeCnt 31 24 1).setServo 3
  else
    let p := s.blockNs
    let i := limRate (s.servo.i + divRound (e * 2 ^ 40) (p * 2 ^ s.srv 19 16))
    let r := limRate (i + divRound (e * 2 ^ 40) (p * 2 ^ s.srv 23 20))
    ({ s.newEpoch 0 r with servo := { s.servo with i := i } }).setServo 2
/-- SERVO_BLOCK: the end of a block of 2^MINF messages; what was written since it began is in force from here on (R365). -/
def servoBlock (s : State) : State :=
  let st := s.servoState
  match s.servo.es with
  | [] => s
  | e :: es =>
    if (st = 1 ∨ st = 2 ∨ st = 3) ∧ 2 ^ s.srv 27 25 ≤ (e :: es).length then
      let t := s.servoAct (es.foldl max e)
      ({ t with servo := t.servo.noBlock } : State).elect
    else s

/-! ### Registers -/

/-- A block in progress goes on by the registers as they were when it began (R365). -/
def State.keepBlock (s : State) : State :=
  if s.servo.es.isEmpty ∨ s.servo.held.isSome then s
  else { s with servo := { s.servo with held := some (s.reg .timeSrvCfg, s.reg .timeSrvPri) } }
/-- Write of TIME_SRV_CFG: EN starts or ends the servo at once, the other fields act at the next block (R365, R366; log entry 93). -/
def srvCfgWrite (v : W32) (s : State) : Except Rej State :=
  if 4 < bits v.toNat 27 25 ∨ bits v.toNat 15 12 < 2 then .error (.badParam, [])
  else
    let was := s.bit .timeSrvCfg 31
    let s := s.keepBlock.setReg .timeSrvCfg (v &&& 0xfeffffff)
    let fresh : Servo := { i := s.servo.i, since := s.clk.frc }
    .ok (if v.getLsbD 31 && !was then { s.setServo 1 with servo := fresh }
      else if !v.getLsbD 31 && was then { s.setServo 0 with servo := fresh }
      else s)
/-- Write of TIME_SRV_PRI: in force from the next block on (R364; log entry 177). -/
def srvPriWrite (v : W32) (s : State) : State := (s.keepBlock.setReg .timeSrvPri (v &&& 0xff)).elect
/-- Write of TIME_CTRL (R362, R366). -/
def timeCtrlWrite (v : W32) (s : State) : State :=
  let s := if v.getLsbD 0 then s.setReg .timeCnt 0 else s
  let s := if v.getLsbD 1 then s.setFld .timeSrvStat 21 19 0 else s
  if v.getLsbD 2 ∧ s.servoState ≠ 0 then
    { s.setServo 1 with servo := { s.servo.noBlock with forced := false, since := s.clk.frc, masterPort := none, best := none } }
  else s
/-- The words of OFFSET. -/
def State.ofsWord (s : State) (k : Nat) : W32 :=
  match k with
  | 0 => BitVec.ofInt 32 (s.tim.ofs % 65536)
  | 1 => BitVec.ofInt 32 (s.tim.ofs / 65536)
  | _ => BitVec.ofInt 32 (s.tim.ofs / 65536 / 2 ^ 32)
/-- The words of the present time and FRC (R359). -/
def State.nowWords (s : State) : List (Reg × W32) :=
  [(.timeNowHi, BitVec.ofNat 32 (s.now.t / 2 ^ 32)), (.timeFrcLo, BitVec.ofNat 32 s.clk.frc),
   (.timeFrcHi, BitVec.ofNat 32 (s.clk.frc / 2 ^ 32))]
/-- Read of TIME_NOW_LO: captures the rest for the reading source (R359). -/
def timeNowRead (src : Src) (s : State) : State := s.capture src s.nowWords
/-- Read of TIME_OFS_LO: captures OFS_HI and OFS_F. -/
def timeOfsRead (src : Src) (s : State) : State := s.capture src [(.timeOfsHi, s.ofsWord 2), (.timeOfsF, s.ofsWord 0)]
/-- The word of a time register for a source. -/
def State.timeReg (s : State) (src : Src) (r : Reg) : W32 :=
  match r with
  | .timeOfsF => s.captured src r (s.ofsWord 0)
  | .timeOfsLo => s.ofsWord 1
  | .timeOfsHi => s.captured src r (s.ofsWord 2)
  | .timeRate => BitVec.ofInt 32 s.tim.rate
  | .timeRateI => BitVec.ofInt 32 s.servo.i
  | .timeNowLo => BitVec.ofNat 32 s.now.t
  | .timeNowHi | .timeFrcLo | .timeFrcHi =>
    s.captured src r ((s.nowWords.find? fun w => decide (w.1 = r)).elim 0 (·.2))
  | r => s.reg r

end Sys2Proof.Machine
end

