-- ==== Sys2Proof/Machine/Link.lean ====
section
/-! DEFINITION. The Acnar link: port states, credits, frames that leave and arrive, addresses, records, events, syncs (R336 to R356). A
frame that has its credits leaves in one step of the idle time base: line time is left out (log entry 41). -/

namespace Sys2Proof.Machine

/-! ### Ports -/

/-- A link port: 0 upstream, 1 downstream. -/
def State.lport (s : State) (p : Nat) : LinkPort := if p = 0 then s.link.up else s.link.dn
/-- Replace a link port. -/
def State.setLport (s : State) (p : Nat) (x : LinkPort) : State :=
  if p = 0 then { s with link := { s.link with up := x } } else { s with link := { s.link with dn := x } }
/-- State of a port: 0 DOWN, 1 TRAIN, 2 UP (R338). -/
def State.pState (s : State) (p : Nat) : Nat := s.fld (.linkPStat p) 1 0
/-- A port is enabled (LINK_CFG). -/
def State.pEnabled (s : State) (p : Nat) : Bool := s.bit .linkCfg p
/-- Credits held (R345). -/
def LinkPort.credits (x : LinkPort) : Nat := 16 - (x.sent + 256 - x.last % 256) % 256
/-- The receiver frees credits (R345). -/
def State.freeCredits (s : State) (p k : Nat) : State := s.setLport p { s.lport p with freed := ((s.lport p).freed + k) % 256 }
/-- LINK_Pp_STAT; CREDITS while the port is UP. -/
def State.linkStatWord (s : State) (p : Nat) : W32 :=
  putBits (s.reg (.linkPStat p)) 12 8 (if s.portUp p then (s.lport p).credits else 0)
/-- LINK_STATUS; ROOT while the upstream port is not UP (R336). -/
def State.linkStatusWord (s : State) : W32 := putBits (s.reg .linkStatus) 0 0 (!s.portUp 0).toNat

/-! ### Frames on their way -/

/-- A CMD of an own host that cannot go on is answered here: the RPL would be for this node itself (R343, R349). -/
def State.ownTimeout (s : State) (f : Frame) : State :=
  let port : Port := if (f.payload.getD 1 0).getLsbD 1 then .b else .a
  let isIt (x : Hdr × LongOp) : Bool :=
    x.1.tag == (f.payload.getD 6 0).toNat && decide (x.1.src = .port port) && (match x.2 with | .forward n _ _ => n == f.dest | _ => false)
  match s.proto.longs.find? isIt with
  | none => s
  | some x =>
    ({ s with proto := { s.proto with longs := s.proto.longs.filter fun y => decide (y ≠ x) } } : State).answer x.1 .linkTimeout []
/-- A CMD which cannot go on is answered with LINK_TIMEOUT, in an RPL to its origin (R343); only a first fragment shows its TAG. -/
def State.answerUnreachable (s : State) (f : Frame) (own : Bool) : State :=
  if f.type = 0x01 ∧ f.payload.headD 1 = 0 then
    if own || decide (s.nodeAddr = some f.src) then s.ownTimeout f
    else
      let port : Port := if (f.payload.getD 1 0).getLsbD 1 then .b else .a
      s.reply { src := .link f.src port, tag := (f.payload.getD 6 0).toNat, node := s.nodeAddr.getD 0x40, status := .linkTimeout
                data := [], frees := false }
  else s
/-- A frame, of this node or forwarded, whose port is not UP is answered or discarded (R343). -/
def State.unreachable (s : State) (p : Nat) (f : Frame) (own : Bool := false) : State :=
  if f.type = 0x01 then s.answerUnreachable f own else s.satAdd (.linkPErr p) 7 0 1
/-- A type that *Frame types* gives (R341). -/
def frameTypes : List Nat := [0x01, 0x02, 0x03, 0x04, 0x08, 0x09, 0x0a, 0x0b, 0x0c]
/-- A frame for another node goes to the port that its address gives (R343, R344). -/
def State.passOn (s : State) (p : Nat) (f : Frame) : State :=
  let q := match s.nodeAddr with
    | none => 1 - p
    | some a => if a < f.dest then 1 else 0
  if s.portUp q then s.linkTx q (urgentFrame f) (some p) f else (s.freeCredits p (frameCredits f)).unreachable q f
/-- FRAME_FORWARD: a frame arrives that is not for this node; one of a reserved type is discarded and counted, for whatever node it is
(R341, R343, R344). -/
def frameForward (p : Nat) (f : Frame) (s : State) : State :=
  if !s.portUp p then s
  else if !frameTypes.contains f.type then (s.freeCredits p (frameCredits f)).satAdd (.linkPErr p) 23 16 1
  else if f.dest = 0x7f ∨ s.nodeAddr = some f.dest then s
  else s.passOn p f
/-- A frame of a type arrives: taken when it is for this node, taken and passed on when it is broadcast, else passed on; ENU, HEL
and TIM go from neighbour to neighbour (R343, R348, R350, R364). -/
def State.takeFrame (s : State) (p type : Nat) (f : Frame) (use : State → State) : State :=
  if !s.portUp p ∨ f.type ≠ type then s
  else if 0x0a ≤ type then use (s.freeCredits p (frameCredits f))
  else if f.dest = 0x7f then
    let s := if s.portUp (1 - p) then s.linkTx (1 - p) (urgentFrame f) (some p) f else s.freeCredits p (frameCredits f)
    use s
  else if s.nodeAddr = some f.dest then use (s.freeCredits p (frameCredits f))
  else s.passOn p f

/-- Order of a waiting frame: urgent before regular, forwarded before own (R344). -/
def txClass (x : Bool × Option Nat × Frame) : Nat := (if x.1 then 0 else 2) + if x.2.1.isSome then 0 else 1
/-- Index of the frame at the head of a port. -/
def headFrame (tx : List (Bool × Option Nat × Frame)) : Option Nat :=
  (List.range 4).findSome? fun c => tx.findIdx? fun x => txClass x == c
/-- What the leaving of a frame does: a REC of this node moves R of its queue, and its END starts the wait for the ACK (R351, R353); a
forwarded frame leaves the buffer of the port by which it came (R345). -/
def State.frameLeft (s : State) (via : Option Nat) (f : Frame) : State :=
  match via with
  | some p => s.freeCredits p (frameCredits f)
  | none =>
    if f.type = 0x03 then
      let b := (f.payload.headD 0).toNat
      let mark (u : SentPkt) : SentPkt :=
        if b / 32 % 2 = 1 ∧ u.q = b % 16 ∧ u.seq = (f.payload.getD 1 0).toNat then { u with at_ := some s.clk.frc } else u
      { s.advR (b % 16) ((f.payload.length - 4) / 8) with link := { s.link with unacked := s.link.unacked.map mark } }
    else s
/-- A frame as it leaves: hardware puts the corrected time of its SOF into a TIM frame (R364). -/
def State.atSof (s : State) (f : Frame) : Frame :=
  if f.type = 0x0a then { f with payload := leBytes 8 s.now.t ++ f.payload.drop 8 } else f
/-- The head frame of a port leaves when its credits are held; a regular one must leave two (R345). -/
def State.sendHead (s : State) (p : Nat) : State :=
  let x := s.lport p
  if !s.portUp p then s
  else
    match headFrame x.tx with
    | none => s
    | some i =>
      match x.tx[i]? with
      | none => s
      | some (urgent, via, f) =>
        let c := frameCredits f
        if (if urgent then c else c + 2) ≤ x.credits then
          (s.setLport p { x with tx := x.tx.eraseIdx i, sent := (x.sent + c) % 256, stuck := none, out := some (s.atSof f) }).frameLeft via f
        else s.setLport p { x with stuck := some (x.stuck.getD s.clk.frc) }
/-- One step of the idle time base: the clocks advance and each port may send a frame (log entries 3, 41). -/
def State.idle (s : State) : State := (s.advance.sendHead 0).sendHead 1
/-- Frames of remote consumers that have not left their port: of equal frames, which leave in their order, the latest (R236). -/
def State.remotesLeft (s : State) : List (Nat × Frame) :=
  let waiting (f : Frame) : Nat :=
    let k (l : LinkPort) : Nat := l.tx.countP fun x => x.2.1.isNone && decide (x.2.2 = f)
    max (k s.link.up) (k s.link.dn)
  let rec keep : List (Nat × Frame) → List (Nat × Frame)
    | [] => []
    | x :: xs => if xs.countP (fun y => decide (y.2 = x.2)) < waiting x.2 then x :: keep xs else keep xs
  keep s.route.remotes
/-- Remote consumer r is busy: its message has not left its port (R236, R354). -/
def State.remoteBusy (s : State) (r : Nat) : Bool :=
  s.remotesLeft.any fun x => x.1 == r
/-- The consumer "Remote REr" sends its EVT frame; one for the own address is taken here (R343, R354). -/
def State.remoteSend (s : State) (r : Nat) : State :=
  let f : Frame := { type := 0x08, dest := s.fld (.routeRem r) 6 0, src := s.ownByte
                     payload := [BitVec.ofNat 8 (s.fld (.routeRem r) 9 8), 0] }
  if s.nodeAddr = some f.dest then s.produce (52 + s.fld (.routeRem r) 9 8)
  else { s.linkSend true f with route := { s.route with remotes := s.remotesLeft ++ [(r, f)] } }

/-! ### Changes of port state -/

/-- A HEL frame of this node (R350). -/
def State.helFrameOut (s : State) : Frame :=
  { type := 0x0c, dest := 0x7f, src := s.ownByte, payload := [BitVec.ofNat 8 s.ownByte, BitVec.ofNat 8 (s.fld .linkNode 23 16)] }
/-- A node lies beyond a port (R349). -/
def State.beyondPort (s : State) (p n : Nat) : Bool :=
  match s.nodeAddr with
  | none => true
  | some a => if p = 0 then decide (n < a) else decide (a < n)
/-- The ownership of a source beyond a port ends (R308, R349). -/
def State.endOwnerBeyond (s : State) (p : Nat) : State :=
  match s.proto.owner with
  | some (.link n _) => if s.beyondPort p n then s.expireSem else s
  | _ => s
/-- A port changes state, with its interrupt, its event record at a change to or from UP, and HEL upstream for a downstream port
(R338, R350). -/
def State.portState (s : State) (p st : Nat) : State :=
  let old := s.pState p
  if old = st then s
  else
    let s := (s.setFld (.linkPStat p) 1 0 st).irqFire (68 + p)
    let s := s.setLport p { s.lport p with since := s.clk.frc, rateAt := s.clk.frc, cap := 2 }
    let s := if old = 2 then let (s, tm) := s.softLate; s.event (0x1910 + p) tm s.queuesAll
      else if st = 2 then let (s, tm) := s.softLate; s.event (0x1912 + p) tm s.queuesAll else s
    if p = 1 then s.sendOut 0 s.helFrameOut else s
/-- A port whose counts start anew, with nothing waiting (R346). -/
def LinkPort.fresh (x : LinkPort) : LinkPort := { since := x.since, rateAt := x.rateAt, cap := x.cap, out := x.out }
/-- What waits at a port that is no longer UP is answered or discarded, and counts start anew (R343, R346). -/
def State.clearPort (s : State) (p : Nat) : State :=
  let tx := (s.lport p).tx
  let s := s.setLport p (s.lport p).fresh
  tx.foldl (fun s x => (match x.2.1 with | some q => s.freeCredits q (frameCredits x.2.2) | none => s).unreachable p x.2.2 x.2.1.isNone) s
/-- A port goes to TRAIN at the lowest rate; `lost` frames are lost (R338, R346). -/
def State.retrain (s : State) (p lost : Nat) : State :=
  if !s.portUp p then s
  else (((s.portState p 1).setFld (.linkPStat p) 5 4 0).satAdd (.linkPErr p) 31 24 (1 + lost)).clearPort p
/-- A port goes DOWN (R338, R349). -/
def State.portDown (s : State) (p : Nat) : State :=
  if s.pState p = 0 then s
  else
    let s := if p = 1 then s.setFld .linkNode 23 16 0xff else s
    (((s.portState p 0).setFld (.linkPStat p) 5 4 0).clearPort p).endOwnerBeyond p
/-- The path from this node to the sink leads through a port (R353). -/
def State.sinkVia (s : State) (p : Nat) : Bool := s.beyondPort p (s.fld .linkCfg 31 26)
/-- Whether a waiting frame is a REC frame of this node for a queue. -/
def ownRec (q : Nat) (x : Bool × Option Nat × Frame) : Bool :=
  x.2.1.isNone && x.2.2.type == 0x03 && (x.2.2.payload.headD 0).toNat % 16 == q
/-- The REC frames of a queue that wait at either port are dropped. -/
def State.dropRecs (s : State) (drop : Bool × Option Nat × Frame → Bool) : State :=
  let keep (l : LinkPort) : LinkPort := { l with tx := l.tx.filter fun x => !drop x }
  { s with link := { s.link with up := keep s.link.up, dn := keep s.link.dn } }
/-- R of a link-owned queue returns to F; its packets are sent again, and an ACK that comes before that still names them (R353). -/
def State.resend (s : State) (q : Nat) : State :=
  let s := ((s.modQueue q fun x => { x with r := x.f }).thrEval q).dropRecs (ownRec q)
  { s with link := { s.link with unacked := s.link.unacked.map fun u => if u.q = q then { u with at_ := none } else u } }
/-- A path to the sink is UP again (R353). -/
def State.resendAll (s : State) : State := ((List.range 16).filter fun q => s.qOn q && s.qOwner q == 3).foldl State.resend s
/-- PORT_SIGNAL_DETECT: an enabled DOWN port starts training (R338). -/
def portSignalDetect (p : Nat) (s : State) : State :=
  if s.pEnabled p && s.pState p == 0 && s.pwr.st != .ebb && s.pwr.st != .hold && s.pwr.st != .off then
    (s.setFld (.linkPStat p) 5 4 0).portState p 1
  else s
/-- TCLK periods of 100 µs, rounded up. -/
def us100T : Nat := 2458
/-- TRAIN_RETRY: a port that has been DOWN for 10 ms tries again (R338). -/
def trainRetry (p : Nat) (s : State) : State :=
  if (s.lport p).since + 10 * msT ≤ s.clk.frc then portSignalDetect p s else s
/-- TRAIN_COMPLETE: training at a rate is done; the hop moves up to `rate`, the partner's limit, limited by BAUD_MAX and by rates at which
training has failed, or the port becomes UP (R338, R346, R350, R353). -/
def trainComplete (p rate : Nat) (s : State) : State :=
  let top := min (min rate (s.fld .linkCfg 25 24)) (s.lport p).cap
  if s.pState p ≠ 1 then s
  else if s.fld (.linkPStat p) 5 4 < top then (s.setFld (.linkPStat p) 5 4 top).setLport p { s.lport p with rateAt := s.clk.frc }
  else
    let s := (s.setLport p (s.lport p).fresh).portState p 2
    let s := s.sendOut p s.helFrameOut
    if s.sinkVia p then s.resendAll else s
/-- TRAIN_TIMEOUT: 100 µs at a rate give the next lower rate, 1 ms in TRAIN gives DOWN (R338). -/
def trainTimeout (p : Nat) (s : State) : State :=
  let x := s.lport p
  let r := s.fld (.linkPStat p) 5 4
  if s.pState p ≠ 1 then s
  else if x.since + msT ≤ s.clk.frc then s.portDown p
  else if r ≠ 0 ∧ x.rateAt + us100T ≤ s.clk.frc then
    (s.setFld (.linkPStat p) 5 4 (r - 1)).setLport p { x with rateAt := s.clk.frc, cap := r - 1 }
  else s
/-- SIGNAL_LOSS (R338, R349). -/
def signalLoss (p : Nat) (s : State) : State := s.portDown p
/-- HEADER_CRC_ERROR: a header error, or code errors beyond their limit, retrain the port (R338, R342). -/
def headerCrcError (p lost codes : Nat) (s : State) : State :=
  if s.portUp p then (s.satAdd (.linkPErr p) 15 8 codes).retrain p lost else s
/-- FRAME_CRC_ERROR: a frame is discarded and its credits returned (R342). -/
def frameCrcError (p credits codes : Nat) (s : State) : State :=
  if s.portUp p then (((s.satAdd (.linkPErr p) 15 8 codes).satAdd (.linkPErr p) 23 16 1).freeCredits p credits).irqFire 70 else s
/-- CRD: the partner's count of freed credits; a count above 16 retrains the port, which cuts `lost` frames (R345, R346). -/
def crd (p n lost : Nat) (s : State) : State :=
  if !s.portUp p then s
  else
    let x := { s.lport p with last := n % 256, stuck := none }
    let s := s.setLport p x
    if 16 < (x.sent + 256 - n % 256) % 256 then s.retrain p lost else s
/-- CREDIT_TIMEOUT: the head frame has lacked its credits for 100 µs with no CRD (R346). -/
def creditTimeout (p lost : Nat) (s : State) : State :=
  if (s.lport p).stuck.any fun t => decide (t + us100T ≤ s.clk.frc) then s.retrain p lost else s

/-! ### Addresses -/

/-- A node takes an address, which may change the master, or the name under which it is its own (R348, R364, R366). -/
def State.setNode (s : State) (a : Nat) : State :=
  if s.ownByte = a then s
  else
    let s := (s.setFld .linkNode 7 0 a).irqFire 71
    if s.servoState = 5 then s.setFld .timeSrvStat 31 26 s.ownMaster else s.elect
/-- An ENU frame (R348). -/
def State.enuOut (s : State) (a kind : Nat) : Frame :=
  { type := 0x0b, dest := 0x7f, src := s.ownByte, payload := [BitVec.ofNat 8 a, BitVec.ofNat 8 kind] }
/-- LINK_ENUM: the root takes address 0 and asks downstream (R348). -/
def linkEnumBody (h : Hdr) (s : State) : Res :=
  if s.portUp 0 then .no (s.conflict 0xfe 0)
  else
    let s := s.setNode 0
    if s.portUp 1 then
      let s := s.sendOut 1 (s.enuOut 1 0)
      .later { s with proto := { s.proto with longs := s.proto.longs ++ [(h, .linkEnum)] }, link := { s.link with enumAt := s.clk.frc } }
    else .ok (s.setFld .linkNode 15 8 1) [1]
/-- A long command ends: it is removed and its header returned. -/
def State.endLong (s : State) (isIt : LongOp → Bool) : Option (Hdr × State) :=
  match s.proto.longs.find? fun x => isIt x.2 with
  | none => none
  | some x => some (x.1, { s with proto := { s.proto with longs := s.proto.longs.filter fun y => decide (y ≠ x) } })
/-- Enumeration ends with a count (R348; log entry 42). -/
def State.enumDone (s : State) (count : Nat) : State :=
  match s.endLong fun x => x == .linkEnum with
  | none => s
  | some (h, s) =>
    let s := s.setFld .linkNode 15 8 count
    let s := if 64 ≤ count then s.setBit .linkStatus 1 true else s
    s.respond h .ok [BitVec.ofNat 8 count] true
/-- ENU_FRAME: an address to take, or the count on its way to the root (R348). -/
def enuFrame (p : Nat) (f : Frame) (s : State) : State :=
  s.takeFrame p 0x0b f fun s =>
    let a := (f.payload.getD 0 0).toNat
    if f.payload.getD 1 0 = 0 then
      if 64 ≤ a then s.sendOut 0 (s.enuOut 64 1)
      else
        let s := s.setNode a
        if s.portUp 1 then s.sendOut 1 (s.enuOut (a + 1) 0) else s.sendOut 0 (s.enuOut (a + 1) 1)
    else if s.portUp 0 then s.sendOut 0 (s.enuOut a 1)
    else s.enumDone a
/-- ENUM_TIMEOUT: done has not come within 10 ms (R348). -/
def enumTimeout (s : State) : State :=
  if s.clk.frc < s.link.enumAt + 10 * msT then s
  else
    match s.endLong fun x => x == .linkEnum with
    | none => s
    | some (h, s) => s.respond h .linkTimeout [] true
/-- HEL_FRAME: the neighbour's address; LAST from downstream, on towards the root. A LAST that takes in the sink again is a path that is UP
again (R349, R350, R353). -/
def helFrame (p : Nat) (f : Frame) (s : State) : State :=
  s.takeFrame p 0x0c f fun s =>
    let a := (f.payload.getD 0 0).toNat
    let last := (f.payload.getD 1 0).toNat
    let s := s.setLport p { s.lport p with far := if a = 0xff then none else some a }
    let fits := match s.nodeAddr with
      | none => false
      | some n => if p = 0 then a + 1 == n else a == n + 1
    let s := if fits then s else (s.setBit .linkStatus 2 true).irqFire 71
    if p = 1 then
      let was := s.fld .linkNode 23 16
      let s := s.setFld .linkNode 23 16 (if last = 0xff then a else last)
      let s := s.sendOut 0 s.helFrameOut
      let sink := s.fld .linkCfg 31 26
      let reaches (l : Nat) : Bool := decide (l ≠ 0xff ∧ sink ≤ l)
      if s.sinkVia 1 && !reaches was && reaches (s.fld .linkNode 23 16) then s.resendAll else s
    else s

/-! ### Records over the link -/

/-- Words of a queue that wait in REC frames of this node. -/
def State.recWaiting (s : State) (q : Nat) : Nat :=
  ((s.link.up.tx ++ s.link.dn.tx).map fun x =>
    if ownRec q x then (x.2.2.payload.length - 4) / 8 else 0).sum
/-- Cut words into pieces of 25. -/
def pieces : Nat → List W64 → List (List W64)
  | 0, _ => []
  | k + 1, ws => if ws.length ≤ 25 then [ws] else ws.take 25 :: pieces k (ws.drop 25)
/-- The REC frames of a packet's words (R341, R351). -/
def State.recFrames (s : State) (q seq : Nat) (ws : List W64) (abort : Bool) : List Frame :=
  let ps := pieces (ws.length + 1) ws
  ps.zipIdx.map fun (p, i) =>
    let last := i + 1 == ps.length
    let b := q + (decide (i = 0)).toNat * 16 + last.toNat * 32 + (last && abort).toNat * 64
    { type := 0x03, dest := s.fld .linkCfg 31 26, src := s.ownByte
      payload := [BitVec.ofNat 8 b, BitVec.ofNat 8 seq] ++ leBytes 2 (25 * i) ++ p.flatMap fun w => leBytes 8 w.toNat }
/-- Frames of this node that carry records, with those of several queues in turn: the k-th waiting frame of each queue comes before the
(k + 1)-th of any (R351). -/
def recTurns (fs : List Frame) : List Frame :=
  let q (f : Frame) : Nat := (f.payload.headD 0).toNat % 16
  let ranked := fs.zipIdx.map fun (f, i) => ((fs.take i).countP (fun g => q g == q f), f)
  (List.range fs.length).flatMap fun k => (ranked.filter fun x => x.1 == k).map (·.2)
/-- A packet's REC frames join those that wait at a port; their frames take the places of REC frames in turn (R344, R351). -/
def State.linkRecs (s : State) (p : Nat) (fs : List Frame) : State :=
  let own (x : Bool × Option Nat × Frame) : Bool := x.2.1.isNone && x.2.2.type == 0x03
  let tx := (s.lport p).tx
  let rec place : List (Bool × Option Nat × Frame) → List Frame → List (Bool × Option Nat × Frame)
    | [], rs => rs.map fun f => (false, none, f)
    | x :: xs, rs => if own x then (match rs with | r :: rs => (false, none, r) :: place xs rs | [] => place xs []) else x :: place xs rs
  s.setLport p { s.lport p with tx := place tx (recTurns (((tx.filter own).map (·.2.2)) ++ fs)) }
/-- Queues of OWNER 3 that have a committed packet left to send (R351). -/
def State.sendable (s : State) (q : Nat) : Bool :=
  s.qOn q && s.qOwner q == 3 && !(s.queue q).rhalt && decide ((s.queue q).r + s.recWaiting q < (s.queue q).c)
/-- REC_SEND: MV3 takes the next committed packet, queues in ascending number, one packet each in turn; `bad`: the first word that
cannot be read; `fixed`: how many errors it corrects (R21, R280, R283, R351, R353). -/
def recSend (bad : Option Nat) (fixed : Nat) (s : State) : State :=
  let sink := s.fld .linkCfg 31 26
  let port : Nat := if s.beyondPort 0 sink then 0 else 1
  if s.nodeAddr = some sink ∨ !s.portUp port then s
  else
    match ((List.range 16).map fun k => (s.link.lastQ + 1 + k) % 16).find? s.sendable with
    | none => s
    | some q =>
      let start := (s.queue q).r + s.recWaiting q
      let head := (s.qWord q start).toNat
      let n := 2 + ceilDiv (6 * bits head 47 32) 8
      let (ws, f) := s.readWords q start n bad
      let sent : SentPkt := { q := q, seq := bits head 63 56, till := start + ws.length }
      let s := { (s.sramFixed fixed).readFault 3 q f with link := { s.link with lastQ := q, unacked := (s.link.unacked.filter fun (u : SentPkt) => !(u.q == q && u.till == sent.till)) ++ [sent] } }
      s.linkRecs port (s.recFrames q (bits head 63 56) ws f.isSome)
/-- ACK_TIMEOUT: no ACK within 4 × TMO of the END of a packet, so the queue is sent again from F (R353). -/
def ackTimeout (q : Nat) (s : State) : State :=
  let late (t : Nat) : Bool := decide (t + 4 * s.fld .cmdLink 15 0 * msT ≤ s.clk.frc)
  if s.link.unacked.any fun u => u.q == q && u.at_.any late then s.resend q else s
/-- An ACK for a packet of this node: F moves to its end, and what waits of it and of those before it need not go (R353; DESIGN CHOICE, log
entry 175). -/
def State.acked (s : State) (q seq : Nat) : State :=
  match s.link.unacked.find? fun u => u.q == q && u.seq == seq with
  | none => s
  | some u =>
    let done := s.link.unacked.filter fun v => v.q == q && decide (v.till ≤ u.till)
    let s : State := { s with link := { s.link with unacked := s.link.unacked.filter fun v => !(v.q == q && decide (v.till ≤ u.till)) } }
    let s := s.dropRecs fun x => ownRec q x && done.any fun v => v.seq == (x.2.2.payload.getD 1 0).toNat
    (s.modQueue q fun x => { x with f := max x.f u.till, r := max x.r u.till }).thrEval q
/-- ACK_FRAME (R353). -/
def ackFrame (p : Nat) (f : Frame) (s : State) : State :=
  s.takeFrame p 0x04 f fun s => s.acked (f.payload.getD 0 0).toNat (f.payload.getD 1 0).toNat
/-- Records that bytes spell (R9, R258). -/
def recsOf : Nat → List Byte → List Rec
  | 0, _ => []
  | k + 1, bs =>
    if bs.length < 6 then []
    else
      let v := ofLe (bs.take 6)
      { source := bits v 47 42, flags := BitVec.ofNat 6 (bits v 41 36), value := BitVec.ofNat 36 v } :: recsOf k (bs.drop 6)
/-- The unit that a received packet becomes: the event record of its origin, then its records, under its time word (R352). -/
def remoteUnit (origin : Nat) (ws : List W64) : RUnit :=
  let body := (ws.drop 2).flatMap fun w => leBytes 8 w.toNat
  let first : Rec := { source := 62, flags := 0, value := BitVec.ofNat 36 (0x1a00 + origin) }
  { src := 62, recs := first :: recsOf (bits (ws.headD 0).toNat 47 32) body, tm := { t := (ws.getD 1 0).toNat }, stamped := true }
/-- The flags of a received packet join those of the local one (R352). -/
def orFlags (head : W64) (abort : Bool) (k : Pkt) : Pkt :=
  let first (old : Option Nat) (b : Bool) : Option Nat := if b then some 0 else old
  { k with fault := first k.fault (head.getLsbD 51), ecc := first k.ecc (head.getLsbD 52), trunc := k.trunc || head.getLsbD 50
           flushed := k.flushed || head.getLsbD 49, aborted := abort || head.getLsbD 48 }
/-- A received packet joins the local queue as one packet (R352): whatever is open closes first; a packet that does not fit is dropped
whole. MV4 meets an uncorrectable error at word `bad` of its buffer: it stops there, and the packet closes with ABORTED and ECC
(R282). The place of the buffer in B00 is free (log entry 1). -/
def State.storeRemote (s : State) (origin : Nat) (ws : List W64) (abort : Bool) (bad : Option Nat) : State :=
  let lq := s.fld .linkRxq 3 0
  let s := s.closePkt 4 lq false
  let slot := (s.queue lq).w
  let u := remoteUnit origin (match bad with | some k => ws.take k | none => ws)
  let fits := decide (s.wAfter lq u - (s.queue lq).f ≤ s.sizeW lq) && !(s.queue lq).whalt
  match bad with
  | some k =>
    if !fits then s.storeUnit 4 lq u
    else
      let s := if k < 2 then s.modQueue lq fun x => { x with pkt := some { slot := slot, trunc := x.truncNext, flushed := x.flushNext } }
        else s.storeUnit 4 lq u
      let (s, at_) := s.draw 15
      match (s.queue lq).pkt with
      | none => s
      | some p => (s.abortPkt 4 lq (orFlags ((ws.take k).headD 0) abort p) (slot + k) 2 (0x10000000 + 8 * at_.toNat)).thrEval lq
  | none =>
    let s := (s.storeUnit 4 lq u).modQueue lq fun x => { x with pkt := x.pkt.map (orFlags (ws.headD 0) abort) }
    (s.closePkt 4 lq false).thrEval lq
/-- A complete packet of an origin and queue: stored and acknowledged; a duplicate is only acknowledged (R352). -/
def State.recDone (s : State) (origin q seq : Nat) (ws : List W64) (abort : Bool) (bad : Option Nat) : State :=
  let last := s.link.acc.find? fun a => a.1 == origin && a.2.1 == q
  let dup := last.elim false fun a => decide ((a.2.2 + 256 - seq) % 256 < 128)
  let s := if dup then s
    else
      let rest := s.link.acc.filter fun a => !(a.1 == origin && a.2.1 == q)
      { s.storeRemote origin ws abort bad with link := { s.link with acc := rest ++ [(origin, q, seq)] } }
  if s.nodeAddr = some origin then s.acked q seq
  else s.linkSend true { type := 0x04, dest := origin, src := s.ownByte, payload := [BitVec.ofNat 8 q, BitVec.ofNat 8 seq] }
/-- REC_FRAME: a frame joins the packet of its origin and queue; at END the packet is stored. `bad`: MV4 meets an uncorrectable
error at that word of its buffer; `fixed`: how many errors it corrects (R21, R282, R341, R352). -/
def recFrame (p : Nat) (f : Frame) (bad : Option Nat) (fixed : Nat) (s : State) : State :=
  s.takeFrame p 0x03 f fun s =>
    let b := (f.payload.getD 0 0).toNat
    let q := b % 16
    let seq := (f.payload.getD 1 0).toNat
    let rec words : Nat → List Byte → List W64
      | 0, _ => []
      | k + 1, bs => if bs.length < 8 then [] else BitVec.ofNat 64 (ofLe (bs.take 8)) :: words k (bs.drop 8)
    let new := words 26 (f.payload.drop 4)
    let old := if b / 16 % 2 = 1 then []
      else (s.link.recs.find? fun r => r.origin == f.src && r.queue == q).elim [] (·.words)
    let rest := s.link.recs.filter fun r => !(r.origin == f.src && r.queue == q)
    let ws := old ++ new
    if ofLe ((f.payload.drop 2).take 2) ≠ old.length then { s with link := { s.link with recs := rest } }
    else if b / 32 % 2 = 0 then { s with link := { s.link with recs := rest ++ [{ origin := f.src, queue := q, words := ws }] } }
    else
      let s := { s with link := { s.link with recs := rest } }
      if !(s.bit .linkRxq 31 && s.qOn (s.fld .linkRxq 3 0)) then s
      else (s.sramFixed fixed).recDone f.src q seq ws (b / 64 % 2 == 1) (bad.filter fun k => decide (k < ws.length))

/-! ### Events, syncs, time -/

/-- EVT_FRAME: the producer of the event fires (R354). -/
def evtFrame (p : Nat) (f : Frame) (s : State) : State :=
  s.takeFrame p 0x08 f fun s => s.produce (52 + (f.payload.getD 0 0).toNat % 4)
/-- Groups of a mask that accept link syncs (R355). -/
def State.linkGroups (s : State) (m : Nat) : Nat :=
  (List.range 8).foldl (fun a g => if m / 2 ^ g % 2 = 1 ∧ s.bit (.sluSgrp g) 2 then a + 2 ^ g else a) 0
/-- A group sync waits for its corrected time (R355). -/
def State.linkSync (s : State) (m t : Nat) : State :=
  let k := s.linkGroups m
  if k = 0 then s else { s with link := { s.link with syns := s.link.syns ++ [(k, t)] } }
/-- The first MCLK edge at or after a corrected time that has come (R171). -/
def State.edgeFrom (s : State) (t : Nat) : Nat :=
  let e := s.nextEdge
  e - ((List.range (min 4096 e)).takeWhile fun k => decide (0 ≤ timeDiff (s.stampEdge (e - 1 - k)).t t)).length
/-- Link syncs whose time has come become requests (R171, R355). -/
def State.dueSyncs (s : State) : State :=
  let due (x : Nat × Nat) : Bool := decide (0 ≤ timeDiff s.now.t x.2)
  let ready := s.link.syns.filter due
  ready.foldl (fun s x => s.syncFor x.1 false (s.edgeFrom x.2)) { s with link := { s.link with syns := s.link.syns.filter fun x => !due x } }
/-- SYN_FRAME: a request for T_s, or at once with SYNC_LATE (R355). -/
def synFrame (p : Nat) (f : Frame) (s : State) : State :=
  s.takeFrame p 0x09 f fun s =>
    let m := (f.payload.getD 0 0).toNat
    let t := ofLe ((f.payload.drop 1).take 8)
    if 0 ≤ timeDiff s.now.t t then ((s.setBit .linkStatus 3 true).timeEvent 0x1905).linkSync m t else s.linkSync m t
/-- A group sync is sent: SYN to every node, and here (R355). -/
def State.groupSync (s : State) (m : Nat) : State :=
  let t := (s.now.t + s.fld .linkSynctx 31 16 * 1000) % 2 ^ 64
  (s.linkSend true { type := 0x09, dest := 0x7f, src := s.ownByte, payload := BitVec.ofNat 8 m :: leBytes 8 t }).linkSync m t
/-- TIM_FRAME (R364, R365). -/
def timFrame (p : Nat) (f : Frame) (rx : Nat) (s : State) : State := s.takeFrame p 0x0a f fun s => s.timArrives p f rx
/-- SYNC_EDGE: link syncs whose time has come count as requests; then the group's edge (R170, R171, R355). -/
def syncEdgeAll (g : Nat) (xs : List (Nat × List Int)) (s : State) : State := syncEdge g xs s.dueSyncs
/-- SYNC_PIN_RISE: a rising edge of SYNC in input mode, after which the pin stays high for `high` TCLK periods. It is taken where it stays
high for 2 MCLK periods and the pin has been low for as long; its sync edge is the 4th after the first edge at which it is sampled high
(R171, R172, R228, R355; log entry 160). -/
def syncPinRise (high : Nat) (s : State) : State :=
  if s.bit .sluSyncCtrl 4 || !s.vioS then s
  else
    let g := s.fld .sluSyncCtrl 2 0
    let ph := s.clk.mclkPh + high
    let low := decide (s.syncFall.1 + 2 < s.clk.mclk ∨ (s.syncFall.1 + 2 = s.clk.mclk ∧ s.syncFall.2 ≤ s.clk.mclkPh))
    let t := { s with syncFall := (s.clk.mclk + ph / s.tPerM, ph % s.tPerM) }
    if !low || decide (high < 2 * s.tPerM) then t
    else
      let t := t.produce 56
      let t := if t.bit (.sluSgrp g) 0 then t.syncFor (2 ^ g) false (s.nextEdge + 4) else t
      if t.bit .linkSynctx 0 then t.groupSync (2 ^ g) else t

/-! ### Registers -/

/-- Write of LINK_CFG: a port that is disabled goes DOWN (R338). -/
def linkCfgWrite (v : W32) (s : State) : Except Rej State :=
  if bits v.toNat 25 24 = 3 then .error (.badParam, [])
  else
    let s := s.setReg .linkCfg (v &&& 0xff000003)
    let s := if v.getLsbD 0 then s else s.portDown 0
    .ok (if v.getLsbD 1 then s else s.portDown 1)
/-- Write of LINK_CTRL; a retraining cuts the frames that are on their way (R338, R342, R346, R350). -/
def linkCtrlWrite (h : Hdr) (v : W32) (s : State) : State :=
  let s := if v.getLsbD 2 then (s.setReg (.linkPErr 0) 0).setReg (.linkPErr 1) 0 else s
  let s := if v.getLsbD 3 then s.setFld .linkStatus 3 2 0 else s
  let s := if v.getLsbD 0 then s.retrain 0 h.cut.1 else s
  if v.getLsbD 1 then s.retrain 1 h.cut.2 else s
/-- Write of LINK_SYNCTX (R355). -/
def linkSynctxWrite (v : W32) (s : State) : Except Rej State :=
  if bits v.toNat 31 16 = 0 then .error (.badParam, [])
  else
    let s := s.setReg .linkSynctx (v &&& 0xffff0001)
    .ok (if bits v.toNat 15 8 = 0 then s else s.groupSync (bits v.toNat 15 8))

end Sys2Proof.Machine
end

