-- ==== Sys2Proof/Machine/Start.lean ====
section
/-! DEFINITION. CHAN_START, CHAN_STOP and CHAN_SYNC, and the routed starts and stops that act as them (R30, R315, R316, R236). -/

namespace Sys2Proof.Machine

/-- A chain of a start is in conflict: not IDLE with no stop pending, or IDLE with a start pending (R315). -/
def State.startConflict (s : State) (n : Nat) : Bool :=
  let c := s.ch n
  (decide (c.st ≠ .idle) && !c.stopPend) || (decide (c.st = .idle) && c.startPend)
/-- The configuration of a chain allows its start with the chains of a mask (R32, R89, R113, R115, R151, R193, R209). -/
def State.startConfigOk (s : State) (m n : Nat) : Bool :=
  s.chainOk n (s.bank n) && s.portsOk m n && s.frontOk n && !(s.bit .engPrio n && s.prioTooDear n) && s.userOk n && !s.muForbids n
/-- The first refusal of a start of the chains of a mask: conflicts, then the configuration of each, then the budget (R30, R315). -/
def State.startRefusal (s : State) (m : Nat) : Option Rej :=
  match (maskChains m).filter s.startConflict with
  | n :: ns => some (s.chConflict (n :: ns))
  | [] =>
    if !(maskChains m).all (s.startConfigOk m) then some (.badParam, [])
    else if overBudget (s.loadWith fun n => m / 2 ^ n % 2 == 1) s.capacity then some (.budget, [])
    else none
/-- An accepted start: every chain of the mask becomes start-pending and the device enters RUN (R297, R316). -/
def State.startAll (s : State) (m : Nat) : State :=
  let s := (maskChains m).foldl State.startChain s
  if m % 2 ^ 24 = 0 then s else { s with proto := { s.proto with dev := .run } }
/-- An accepted stop of the chains of a mask (R316). -/
def State.stopAll (s : State) (m : Nat) : State := (maskChains m).foldl State.stopChain s
/-- SYS_TICK_COUNT at the next tick boundary, as reply data. -/
def State.nextTick (s : State) : List Byte := leBytes 4 (((s.reg .sysTickCount).toNat + 1) % 2 ^ 32)

/-- CHAN_START (R21, R162, R315, R316). -/
def chanStartBody (e : MemErr) (m : Nat) (s : State) : Res :=
  match s.startRefusal m with
  | some r => .part (s.memErr e) r
  | none => .ok ((s.startAll m).memErr e) s.nextTick
/-- CHAN_STOP (R315, R316). -/
def chanStopBody (m : Nat) (s : State) : Res := .ok (s.stopAll m) s.nextTick
/-- CHAN_SYNC (R171). -/
def chanSyncBody (m : Nat) (s : State) : Res := .ok (s.syncReq m false) []

/-- A routed start of the IDLE chains of a mask (R236), with the memory errors of its check: whether it was refused. In a device state in
which CHAN_START is not legal it is refused (log entry 44). -/
def State.routedStart (s : State) (e : MemErr) (m : Nat) : State × Bool :=
  let named := chainMask fun n => m / 2 ^ n % 2 == 1 && decide ((s.ch n).st = .idle)
  if s.proto.dev ≠ .config ∧ s.proto.dev ≠ .run then (s, true)
  else match s.startRefusal named with
    | some _ => (s.memErr e, true)
    | none => ((s.startAll named).memErr e, false)
/-- A routed stop of the chains of a mask that are not IDLE (R236, R316). -/
def State.routedStop (s : State) (m : Nat) : State :=
  s.stopAll (chainMask fun n => m / 2 ^ n % 2 == 1 && decide ((s.ch n).st ≠ .idle))

end Sys2Proof.Machine
end

