-- ==== Sys2Proof/Machine/Route.lean ====
section
/-! DEFINITION. The event routing fabric: producers, firings, consumers, gate latches, Hands, budgets, EVT pins (R227 to R241). -/

namespace Sys2Proof.Machine

/-! ### Wiring -/

/-- Consumer indices of the slots of a channel, slot 0 first (R228, R236). -/
def fanout (cc : Nat) : List Nat :=
  if cc < 32 then
    let u := cc / 2
    if cc % 2 = 0 then [80 + u % 8, 88 + u % 8, 64 + (u + 1) % 16, 48 + u % 8, 60 + u % 4, 112 + u, 16 + u, 96 + u % 8]
    else [80 + u % 8, 88 + u % 8, 64 + (u + 1) % 16, 48 + u % 8, 48 + (u + 4) % 8, 128 + u, 32 + u, 104 + u % 8]
  else if cc < 40 then
    let p := cc - 32
    [64 + p, 72 + p, p, 8 + p % 4, 56, 48 + p, 57, 88 + p]
  else if cc < 44 then
    let k := cc - 40
    [k, 4 + k, 8 + k, 12 + k, 16 + k, 20 + k, 56, 88 + k]
  else if cc = 44 then [56, 16, 17, 0, 60, 87, 79, 95]
  else if cc < 47 then
    let j := cc - 45
    [24 + j, 40 + j, 54 + j, 62 + j, 78 + j, 86 + j, 94 + j, 102 + j]
  else if cc = 47 then [58, 59, 15, 86, 111, 126, 93, 63]
  else if cc < 52 then
    let q := cc - 48
    [88 + q, 57, 60 + q, 84 + q, 104 + q, 120 + q, 12 + q]
  else if cc < 56 then
    let r := cc - 52
    [r, 8 + r, 12 + r, 64 + r, 56, 57, 80 + r, 88 + r]
  else if cc = 56 then [56, 8, 64, 16, 57, 60, 88]
  else if cc = 57 then [57, 9, 96, 89]
  else if cc = 58 then [86, 111, 15, 63, 90]
  else if cc = 59 then [91, 85, 62]
  else
    let k := cc - 60
    [96 + 2 * k, 104 + 2 * k, 97 + 2 * k, 105 + 2 * k, 8 + k, 12 + k, k, 4 + k]
/-- Consumers of a channel whose slots are enabled. -/
def State.targets (s : State) (cc : Nat) : List Nat :=
  ((fanout cc).zipIdx.filter fun p => s.bit (.routeCh cc) p.2).map (·.1)
/-- A channel is exempt from its Hand (R235). -/
def State.exempt (s : State) (cc : Nat) : Bool := s.bit (.routeCh cc) 31 || (s.bit (.routeCh cc) 30 && s.sl.sealed)
/-- Conditions 1 and 2 of R230. -/
def State.passes (s : State) (cc : Nat) : Bool :=
  (s.exempt cc || s.bit .routeHand (s.fld (.routeCh cc) 26 24)) &&
  (!s.bit (.routeCh cc) 23 || (s.gateLevel (s.fld (.routeCh cc) 19 16) != s.bit (.routeCh cc) 22))

/-! ### Consumers -/

/-- A bit of a mask set or cleared. -/
def putBit {w : Nat} (v : BitVec w) (i : Nat) (b : Bool) : BitVec w :=
  if b then v ||| BitVec.ofNat w (2 ^ i) else v &&& ~~~ BitVec.ofNat w (2 ^ i)
/-- Replace the routing record. -/
def State.modRoute (s : State) (g : Route → Route) : State := { s with route := g s.route }
/-- Consumer `c` is busy (R236). -/
def State.consumerBusy (s : State) (c : Nat) : Bool :=
  if c < 8 then s.syncs.any fun x => x.1 == c && x.2.1
  else if c < 12 then s.route.startBusy.getLsbD (c - 8)
  else if c < 16 then s.route.stopBusy.getLsbD (c - 12)
  else if c < 32 then (s.queue (c - 16)).closePend
  else if c < 48 then false
  else if c < 56 then (s.det (c - 48)).pend.any (·.2)
  else if c = 56 then decide (s.clk.mclk < s.route.statEdge)
  else if c < 60 then false
  else if c < 64 then s.remoteBusy (c - 60)
  else if c < 80 then decide (4 ≤ (s.meld (c - 64)).arms.length)
  else if c < 88 then s.route.evtRun.getLsbD (c - 80) || !s.bit (.routeEvt (c - 80)) 31
  else false
/-- An EVT pin in output mode takes an event; a pulse lasts PW × 128 SYSCLK cycles, at full clock 16 TCLK periods each (R239). -/
def State.evtEvent (s : State) (p : Nat) : State :=
  match s.fld (.routeEvt p) 29 28 with
  | 0 => s.modRoute fun r => { r with evtOut := putBit r.evtOut p true, evtRun := putBit r.evtRun p true
                                      evtEnd := cellSet r.evtEnd p (s.clk.frc + 16 * s.fld (.routeEvt p) 19 0) }
  | 1 => s.modRoute fun r => { r with evtOut := putBit r.evtOut p (!r.evtOut.getLsbD p) }
  | 2 => s.modRoute fun r => { r with evtOut := putBit r.evtOut p true }
  | _ => s
/-- A gate latch is set or cleared; no effect where the gate's source is not the latch (R232). -/
def State.latchSet (s : State) (k : Nat) (on : Bool) : State :=
  if s.fld (.routeGsrc k) 7 0 = 0 then s.modRoute fun r => { r with latch := putBit r.latch k on } else s
/-- The action of consumer `c` (R236); `start` is the state at the start of the cycle, whose open packet a mark names (R267); `err` is what
a start's checks meet in the memories (R162). -/
def State.consume (start s : State) (err : MemErr) (c : Nat) : State :=
  if c < 8 then (if s.bit (.sluSgrp c) 1 then s.syncReq (2 ^ c) true else s)
  else if c < 12 then
    let (t, refused) := s.routedStart err (s.fld (.routeSet (c - 8)) 23 0)
    if refused then t.setBit (.routeCstat c) 17 true
    else t.modRoute fun r => { r with startBusy := putBit r.startBusy (c - 8) true }
  else if c < 16 then
    (s.routedStop (s.fld (.routeSet (c - 12)) 23 0)).modRoute fun r => { r with stopBusy := putBit r.stopBusy (c - 12) true }
  else if c < 32 then s.closeReq (c - 16)
  else if c < 48 then s.markAt (c - 32) ((start.queue (c - 32)).pkt.map (·.slot))
  else if c < 56 then s.detReset (2 ^ (c - 48)) true
  else if c = 56 then s.statEvent.modRoute fun r => { r with statEdge := s.latchEdge }
  else if c = 57 then s
  else if c < 60 then s.beoEvent (c - 58)
  else if c < 64 then s.remoteSend (c - 60)
  else if c < 80 then s.armReq (2 ^ (c - 64))
  else if c < 88 then s.evtEvent (c - 80)
  else if c < 96 then s.irqFire (96 + (c - 88))
  else if c < 104 then s.setBit .routeHand (c - 96) true
  else if c < 112 then s.setBit .routeHand (c - 104) false
  else if c < 128 then s.latchSet (c - 112) true
  else s.latchSet (c - 128) false
/-- `k` events reach consumer `c` in one cycle: they merge, and meet its busy condition once (R236, R237). -/
def State.receive (start s : State) (err : MemErr) (c k : Nat) : State :=
  if k = 0 then s
  else
    let s := s.satAdd (.routeCstat c) 15 0 (k - 1)
    if s.consumerBusy c then (s.setBit (.routeCstat c) 16 true).irqFire 7 else start.consume s err c
/-- The order in which the consumers of one cycle act: gate clears before gate sets, Hand enables before disables (R232, R234). -/
def consumerOrder : List Nat := ((List.range 16).map (128 + ·)) ++ List.range 128

/-! ### Firings -/

/-- A channel's event that passes its Hand and gate: a firing that counts, or a suppression (R230, R238). -/
def State.countFiring (s : State) (e : REvent) : State × Bool :=
  let cc := e.cc
  let n := s.fld (.routeStat cc) 7 0
  if n < (e.seen.map (·.2.1)).getD (s.fld (.routeCh cc) 15 8) then (s.setFld (.routeStat cc) 7 0 (n + 1), true)
  else
    let s := ((s.setBit (.routeStat cc) 16 true).setBit (if cc < 32 then .routeBudg0 else .routeBudg1) (cc % 32) true).irqFire 8
    if s.route.said.contains cc then (s, false)
    else ((s.event (0x1700 + cc) ((e.seen.map (·.2.2)).getD s.now) s.queuesAll).modRoute fun r => { r with said := cc :: r.said }, false)
/-- The firings among some channels' events of one cycle. -/
def State.countFirings (s : State) : List REvent → State × List Nat
  | [] => (s, [])
  | e :: rest =>
    let (s, fired) := s.countFiring e
    let (s, more) := s.countFirings rest
    (s, if fired then e.cc :: more else more)
/-- What R230 asks of a channel's event: Hand and gate let it pass; its BUDGET. -/
def State.asked (s : State) (cc : Nat) : Bool × Nat := (s.passes cc, s.fld (.routeCh cc) 15 8)
/-- What R230 asks at the start of the cycle of the latest MCLK edge; `old` is the state before the command (R229). -/
def State.edgeAsked (old s : State) : List (Bool × Nat) :=
  if old.clk.mclk < s.clk.mclk then [44, 45, 46].map old.asked else s.route.edge
/-- An event is judged as its cycle began: by the state before the command; by that at the latest MCLK edge; one that comes after an edge,
once the time has gone on (R229, R230, R232, R234). -/
def State.judgeOne (old s : State) (e : REvent) : REvent :=
  let a : Option (Bool × Nat) := match e.seen, e.cycle with
    | some _, _ => none
    | none, .now => some (old.asked e.cc)
    | none, .edge => some ((old.edgeAsked s)[e.cc - 44]?.getD (old.asked e.cc))
    | none, .after f => if s.clk.frc = f then none else some (old.asked e.cc)
  match a with
  | some (ok, budget) => { e with seen := some (ok, budget, s.now) }
  | none => e
/-- Events that a command or event has brought to channels meet conditions 1 to 3 of R230 as they were at the start of their cycle; `old` is
the state before (R230, R232, R234). -/
def State.judge (old s : State) : State :=
  s.modRoute fun r => { r with pend := r.pend.map (old.judgeOne s), edge := old.edgeAsked s }
/-- One event for each channel of a cycle. -/
def onePerChannel : List REvent → List REvent
  | [] => []
  | e :: es => e :: (onePerChannel es).filter fun x => x.cc != e.cc
/-- ROUTE_FIRING: the first `n` waiting events are those of one cycle; the firings among them reach, in the next cycle, the consumers that
the channels' slots then enable (R230, R236 to R238); `err` is what the checks of a start meet in the memories. While the fabric's clock is
off the events are lost (R240). -/
def routeFiring (n : Nat) (err : MemErr) (s : State) : State :=
  let evs := onePerChannel (s.route.pend.take n)
  let s := s.modRoute fun r => { r with pend := r.pend.drop n }
  if !s.fabricOn then s
  else
    let (s, fired) := s.countFirings (evs.filter fun e => (e.seen.map (·.1)).getD (s.passes e.cc))
    let hits := fired.flatMap s.targets
    consumerOrder.foldl (fun t c => s.receive t err c (hits.count c)) s

/-! ### Producers and pins -/

/-- EVT_PULSE_END: not before the length of the pulse at full clock; on HFRC it lasts longer (R239, R70). -/
def evtPulseEnd (p : Nat) (s : State) : State :=
  if s.route.evtRun.getLsbD p && decide (cellGet s.route.evtEnd p 0 ≤ s.clk.frc) then
    s.modRoute fun r => { r with evtOut := putBit r.evtOut p false, evtRun := putBit r.evtRun p false }
  else s
/-- GP_EDGE: the filtered level of a pin changes; the producer fires on the edges that EDGE selects; in EBB and HOLD the always-on
path to the Ebb wake is all that is left (R229, R240). An isolated pin of an absent VIO_S keeps its latest filtered level (R44; DESIGN
CHOICE, log entry 161). -/
def gpEdge (p : Nat) (level : Bool) (s : State) : State :=
  if s.route.gp.getLsbD p = level ∨ s.vioS = false then s
  else
    let s := s.modRoute fun r => { r with gp := putBit r.gp p level }
    let sel := match s.fld (.routePin p) 1 0 with
      | 0 => level
      | 1 => !level
      | 2 => true
      | _ => false
    if !sel then s
    else if s.fabricOn then s.produce (32 + p)
    else if s.bit (.routeCh (32 + p)) 6 then s.wakeLatch 1 else s
/-- WAKE_N_FALL: a falling edge at WAKE_N fires EC57 or is a wake source (R49, R229, R240, R376). -/
def wakeNFall (s : State) : State :=
  let s := s.wakeLatch 0
  if s.fabricOn then s.produce 57 else if s.bit (.routeCh 57) 0 then s.wakeLatch 1 else s
/-- TD_FIRE: N tick boundaries have been counted (R229). -/
def tdFire (s : State) : State :=
  let n := s.fld .routeTdiv 23 0
  if n ≠ 0 ∧ n ≤ s.route.tdCnt then (s.modRoute fun r => { r with tdCnt := r.tdCnt - n }).produceAt 44 .edge else s
/-- What a tick boundary does to the fabric (R229, R236, R238). -/
def State.routeTick (s : State) : State :=
  let s := (List.range 64).foldl (fun s cc =>
    if s.fld (.routeStat cc) 15 0 = 0 then s else s.setFld (.routeStat cc) 15 0 (s.fld (.routeStat cc) 7 0 * 256)) s
  s.modRoute fun r => { r with tdCnt := r.tdCnt + 1, said := [], startBusy := 0, stopBusy := 0 }

/-! ### Register writes -/

/-- Software firings of one write reach their channels in its cycle, and meet R230 as that cycle begins: the words of a block are
separate writes (R233, R312). -/
def State.fireAll (s : State) (cs : List Nat) : State :=
  let es : List REvent := cs.map fun cc => { cc := cc, seen := some ((s.asked cc).1, (s.asked cc).2, s.now) }
  if s.fabricOn then s.modRoute fun r => { r with pend := r.pend ++ es } else s
/-- Write of ROUTE_FIRE0 or ROUTE_FIRE1 (R233). -/
def routeFireWrite (w : Nat) (v : W32) (s : State) : Except Rej State :=
  let cs := ((List.range 32).filter fun i => v.getLsbD i).map (32 * w + ·)
  if cs.any fun cc => s.bit (.routeCh cc) 31 then .error (s.conflict 0xfe 0)
  else if s.sl.sealed && cs.any fun cc => s.bit (.routeCh cc) 30 then .error (.sealed, [])
  else .ok (s.fireAll cs)
/-- Enable bits of the slots that are wired (R227). -/
def wiredMask (cc : Nat) : Nat := 2 ^ (fanout cc).length - 1
/-- Write of ROUTE_CHcc (R227, R235, R238). -/
def routeChWrite (cc : Nat) (v : W32) (s : State) : Except Rej State :=
  let old := s.reg (.routeCh cc)
  let new := (v &&& 0xc7cfff00) ||| (v &&& BitVec.ofNat 32 (wiredMask cc))
  if bits v.toNat 15 8 = 0 then .error (.badParam, [])
  else if old.getLsbD 31 && decide (new &&& 0x7fffffff ≠ old &&& 0x7fffffff) then .error (s.conflict 0xfe 0)
  else .ok (s.setReg (.routeCh cc) (new ||| (old &&& 0x80000000)))
/-- Write of ROUTE_GSRCk (R232). -/
def routeGsrcWrite (k : Nat) (v : W32) (s : State) : Except Rej State :=
  if 57 ≤ bits v.toNat 7 0 then .error (.badParam, []) else .ok (s.setReg (.routeGsrc k) (v &&& 0xff))
/-- Write of ROUTE_TDIV: the count restarts (R229). -/
def routeTdivWrite (v : W32) (s : State) : State := (s.setReg .routeTdiv (v &&& 0xffffff)).modRoute fun r => { r with tdCnt := 0 }
/-- Write of ROUTE_SETk (R236). -/
def routeSetWrite (k : Nat) (v : W32) (s : State) : Except Rej State :=
  match ((maskChains (s.reg (.routeSet k) ||| v).toNat).filter s.chBusy) with
  | n :: ns => .error (s.chConflict (n :: ns))
  | [] => .ok (s.setReg (.routeSet k) (v &&& 0xffffff))
/-- Write of ROUTE_PINp: EDGE 3 is reserved (R4). -/
def routePinWrite (p : Nat) (v : W32) (s : State) : Except Rej State :=
  if bits v.toNat 1 0 = 3 then .error (.badParam, []) else .ok (s.setReg (.routePin p) (v &&& 0xff03))
/-- Write of ROUTE_EVTp (R4, R239). -/
def routeEvtWrite (p : Nat) (v : W32) (s : State) : Except Rej State :=
  let mode := bits v.toNat 29 28
  if mode = 3 ∨ (mode = 0 ∧ bits v.toNat 19 0 = 0) then .error (.badParam, [])
  else
    let old := s.reg (.routeEvt p)
    let quiet := decide ((old ^^^ v) &&& 0xf0000000 ≠ 0) || (v.getLsbD 27 && decide (mode = 2) && v.getLsbD 31)
    let s := s.setReg (.routeEvt p) (v &&& 0xf60fffff)
    .ok (if quiet then s.modRoute fun r => { r with evtOut := putBit r.evtOut p false, evtRun := putBit r.evtRun p false } else s)
/-- Write of ROUTE_REMr: nodes 64 to 126 are reserved (R4). -/
def routeRemWrite (r : Nat) (v : W32) (s : State) : Except Rej State :=
  let n := bits v.toNat 6 0
  if 64 ≤ n ∧ n ≠ 127 then .error (.badParam, []) else .ok (s.setReg (.routeRem r) (v &&& 0x37f))
/-- Write of ROUTE_CTRL (R237, R238). -/
def routeCtrlWrite (v : W32) (s : State) : State :=
  let s := if v.getLsbD 0 then
      (List.range 64).foldl (fun s cc => s.setBit (.routeStat cc) 16 false) ((s.setReg .routeBudg0 0).setReg .routeBudg1 0)
    else s
  if v.getLsbD 1 then (List.range 144).foldl (fun s c => s.setReg (.routeCstat c) 0) s else s
/-- Write of ROUTE_GSET or ROUTE_GCLR (R232). -/
def routeLatchWrite (v : W32) (on : Bool) (s : State) : State :=
  ((List.range 16).filter fun k => v.getLsbD k).foldl (fun s k => s.latchSet k on) s
/-- ROUTE_GLEVEL. -/
def State.glevelWord (s : State) : W32 := BitVec.ofNat 32 (sumTo 16 fun k => (s.gateLevel k).toNat * 2 ^ k)

end Sys2Proof.Machine
end

