-- ==== Sys2Proof/Machine/Irq.lean ====
section
/-! DEFINITION. The interrupt controller: views, delivery, claims, ends of interrupt, the sequencer's service, in-band interrupts
(R242 to R256). Target x is t = 0 for A, 1 for B, 2 for the sequencer; its code in TGT is t + 1. -/

namespace Sys2Proof.Machine

/-- A source number that never becomes pending (R242, R243). -/
def irqReserved (n : Nat) : Bool :=
  decide ((22 ≤ n ∧ n ≤ 31) ∨ (57 ≤ n ∧ n ≤ 63) ∨ (75 ≤ n ∧ n ≤ 95) ∨ (104 ≤ n ∧ n ≤ 111) ∨ 127 ≤ n)
/-- Bits of word w whose sources have target t (R245). -/
def State.viewBits (s : State) (t w : Nat) : W32 :=
  BitVec.ofNat 32 (sumTo 32 fun i => if s.tgt (32 * w + i) = t + 1 then 2 ^ i else 0)
/-- Word w of a source bitmap. -/
def wordOf (v : BitVec 128) (w : Nat) : W32 := (v >>> (32 * w)).setWidth 32
/-- Word w of a source bitmap with the bits of a view replaced. -/
def putWord (v : BitVec 128) (w : Nat) (sel new : W32) : BitVec 128 :=
  let m : BitVec 128 := sel.setWidth 128 <<< (32 * w)
  (v &&& ~~~ m) ||| ((new.setWidth 128 <<< (32 * w)) &&& m)
/-- The word of IRQ_CLAIM_x as a claim would return it now (R248). -/
def State.claimWord (s : State) (t : Nat) : W32 :=
  match s.peek t with
  | none => 0x7f
  | some n => BitVec.ofNat 32 (s.prio n * 256 + n)
/-- A claim at a target (R248). -/
def State.claim (s : State) (t : Nat) : State :=
  match s.peek t with
  | none => s
  | some n => s.modIrq fun r => { r with insv := putBit r.insv n true, claimedA := r.claimedA || t == 0, claimedB := r.claimedB || t == 1 }
/-- IRQ_LEVEL_x. -/
def State.levelWord (s : State) (t : Nat) : W32 :=
  BitVec.ofNat 32 ((s.line t).toNat * 2 ^ 31 + (s.irq.badEoi.getLsbD t).toNat * 2 ^ 30 + (s.peek t).getD 0x7f * 256
    + (s.level t).isSome.toNat * 16 + (s.level t).getD 0)
/-- A source's service at a target ends (R249). -/
def State.eoi (s : State) (t n : Nat) : State :=
  if n = 0x7f then s
  else if s.irq.insv.getLsbD n && s.tgt n == t + 1 then s.modIrq fun r => { r with insv := putBit r.insv n false }
  else s.modIrq fun r => { r with badEoi := putBit r.badEoi t true }
/-- IRQA_N or IRQB_N is driven low (R247). -/
def State.irqPin (s : State) (p : Port) : Bool := s.line (portIx p) && !s.bit (.irqCtrl (portIx p)) 1

/-! ### Writes -/

/-- Write of IRQ_PEND_xw: reserved numbers stay 0 (R243, R245). -/
def irqPendWrite (t w : Nat) (v : W32) (s : State) : State :=
  let live : W32 := BitVec.ofNat 32 (sumTo 32 fun i => if irqReserved (32 * w + i) then 0 else 2 ^ i)
  s.modIrq fun r => { r with pend := putWord r.pend w (s.viewBits t w) (v &&& live) }
/-- Write of IRQ_MASK_xw (R245). -/
def irqMaskWrite (t w : Nat) (v : W32) (s : State) : State :=
  s.modIrq fun r => { r with mask := putWord r.mask w (s.viewBits t w) v }
/-- Write of IRQ_CTRL_x (R249, R254). -/
def irqCtrlWrite (t : Nat) (v : W32) (s : State) : State :=
  let s := s.setReg (.irqCtrl t) (v &&& 3)
  if v.getLsbD 2 then s.modIrq fun r => { r with badEoi := putBit r.badEoi t false } else s
/-- Write of IRQ_CFGss: the mask of a source that becomes the sequencer's is kept at 0 (R253, R255). -/
def irqCfgWrite (n : Nat) (v : W32) (s : State) : Except Rej State :=
  if 112 ≤ n ∧ n ≤ 126 then .error (.badParam, [])
  else if s.irq.insv.getLsbD n then .error (s.conflict 0xfe 0)
  else
    let s := s.setReg (.irqCfg n) (v &&& 0x307)
    .ok (if bits v.toNat 9 8 = 3 then s.modIrq fun r => { r with mask := putBit r.mask n false } else s)
/-- The firmware clears the masks of the sequencer's sources (R253, R256). -/
def State.seqMasks (s : State) : State :=
  (List.range 128).foldl (fun s n => if s.tgt n = 3 then s.modIrq fun r => { r with mask := putBit r.mask n false } else s) s
/-- The controller's reset values with the sequencer's masks cleared: at a boot and at a wake from HOLD (R253, R256). -/
def State.irqReset (s : State) : State :=
  let s := { s with irq := {}, regs := s.regs.filter fun x => decide (¬ (0x90000 ≤ x.1 ∧ x.1 < 0xa0000)) }
  s.seqMasks

/-! ### Events -/

/-- SEQ_IRQ_SERVICE: after `late` TCLK periods the firmware claims a source of the sequencer, clears its pending bit, writes its
event record with a software stamp and ends its service (R253, R367). The sequencer runs in RUN and DOZE only. -/
def seqIrqService (late : Nat) (s : State) : State :=
  if !s.fabricOn then s
  else
    match s.peek 2 with
    | none => s
    | some n =>
      let s := (s.run late).modIrq fun r => { r with pend := putBit r.pend n false }
      if n < 112 then
        s.event (0x1800 + n) s.softNow (s.queuesAll.filter fun q => s.bit .irqSeqQmask q)
      else s
/-- IBI_REPEAT: the request has stayed 1 with no claim since the last in-band interrupt, 1 ms ago (R254). -/
def ibiRepeat (p : Port) (s : State) : State :=
  let claimed := match p with | .a => s.irq.claimedA | .b => s.irq.claimedB
  let last := match p with | .a => s.irq.ibiA | .b => s.irq.ibiB
  if s.line (portIx p) && !claimed && decide (last + msT ≤ s.clk.frc) then s.ibi p else s

end Sys2Proof.Machine
end

