-- ==== Sys2Proof/Machine/Crypto.lean ====
section
/-! DEFINITION. The two standards that the patch check names (R397): SHA-256 (FIPS 180-4) and ECDSA over P-256 (FIPS 186-4). The
spec cites them and does not repeat them; their text here is general knowledge (log entry 46). -/

namespace Sys2Proof.Machine

/-! ### SHA-256 -/

/-- The greatest number whose `e`-th power does not exceed `n`, by setting its bits from bit `k - 1` down. -/
def rootOf (e n : Nat) : Nat → Nat → Nat
  | 0, r => r
  | k + 1, r => rootOf e n k (if (r + 2 ^ k) ^ e ≤ n then r + 2 ^ k else r)
/-- The primes below 312: the first 64. -/
def shaPrimes : List Nat := (List.range 312).filter fun p => decide (2 ≤ p) && (List.range p).all fun d => decide (d < 2) || p % d != 0
/-- The first 32 bits of the fraction of a prime's `e`-th root: the standard's constants (e = 3) and initial words (e = 2). -/
def shaFraction (e p : Nat) : W32 := BitVec.ofNat 32 (rootOf e (p * 2 ^ (32 * e)) 38 0)
/-- Exclusive or of a word rotated right by several amounts. -/
def rotations (x : W32) (rs : List Nat) : W32 := rs.foldl (fun a r => a ^^^ x.rotateRight r) 0
/-- The eight working words a to h after a round with constant `k` and schedule word `w`. -/
def shaRound (k w : W32) : List W32 → List W32
  | [a, b, c, d, e, f, g, h] =>
    let choice := g ^^^ (e &&& (f ^^^ g))
    let majority := (a &&& b) ||| (c &&& (a ||| b))
    let t := h + rotations e [6, 11, 25] + choice + k + w
    [t + rotations a [2, 13, 22] + majority, a, b, c, d + t, e, f, g]
  | x => x
/-- The next schedule word from the last sixteen, oldest first. -/
def shaNext (ws : List W32) : W32 :=
  let mix (i r q n : Nat) : W32 := rotations (ws.getD i 0) [r, q] ^^^ (ws.getD i 0 >>> n)
  ws.getD 0 0 + mix 1 7 18 3 + ws.getD 9 0 + mix 14 17 19 10
/-- One block of sixteen words: the rounds over the constants, then the sum with what came before. -/
def shaBlock (x ws : List W32) : List W32 :=
  let y := (shaPrimes.map (shaFraction 3)).foldl (fun (p : List W32 × List W32) k =>
    (p.1.drop 1 ++ [shaNext p.1], shaRound k (p.1.headD 0) p.2)) (ws, x)
  List.zipWith (· + ·) x y.2
/-- The number that bytes spell, most significant first. -/
def ofBe (bs : List Byte) : Nat := bs.foldl (fun a b => 256 * a + b.toNat) 0
/-- Big-endian bytes of a number. -/
def beBytes (k v : Nat) : List Byte := ((List.range k).map fun i => BitVec.ofNat 8 (v / 256 ^ i)).reverse
/-- The sixteen words of 64 bytes. -/
def shaWords (bs : List Byte) : List W32 := (List.range 16).map fun i => BitVec.ofNat 32 (ofBe ((bs.drop (4 * i)).take 4))
/-- Blocks of a padded message. -/
def shaRun : Nat → List Byte → List W32 → List W32
  | 0, _, x => x
  | n + 1, bs, x => shaRun n (bs.drop 64) (shaBlock x (shaWords (bs.take 64)))
/-- SHA-256 as a number, first byte most significant. -/
def sha256 (m : List Byte) : Nat :=
  let z := (64 - (m.length + 9) % 64) % 64
  let bs := m ++ (0x80 : Byte) :: List.replicate z 0 ++ beBytes 8 (8 * m.length)
  (shaRun (bs.length / 64) bs ((shaPrimes.take 8).map (shaFraction 2))).foldl (fun a w => 2 ^ 32 * a + w.toNat) 0

/-! ### ECDSA over P-256 -/

/-- The field prime of P-256. -/
def ecP : Nat := 0xffffffff00000001000000000000000000000000ffffffffffffffffffffffff
/-- The order of the base point. -/
def ecN : Nat := 0xffffffff00000000ffffffffffffffffbce6faada7179e84f3b9cac2fc632551
/-- The curve's constant b; a is −3. -/
def ecB : Nat := 0x5ac635d8aa3a93e7b3ebbd55769886bc651d06b0cc53b0f63bce3c3e27d2604b
/-- The base point. -/
def ecG : Nat × Nat :=
  (0x6b17d1f2e12c4247f8bce6e563a440f277037d812deb33a0f4a13945d898c296,
   0x4fe342e2fe1a7f9b8ee7eb4a7c0f9e162bce33576b315ececbb6406837bf51f5)
/-- x^e modulo m by squaring; the first number bounds the bits of e. -/
def powMod (m : Nat) : Nat → Nat → Nat → Nat
  | 0, _, _ => 1
  | k + 1, x, e => let h := powMod m k (x * x % m) (e / 2); if e % 2 = 1 then x * h % m else h
/-- Inverse modulo a prime. -/
def invMod (m x : Nat) : Nat := powMod m 256 (x % m) (m - 2)
/-- Sum of two points; `none` is the point at infinity. -/
def ecAdd : Option (Nat × Nat) → Option (Nat × Nat) → Option (Nat × Nat)
  | none, q => q
  | p, none => p
  | some (x1, y1), some (x2, y2) =>
    if x1 = x2 ∧ (y1 + y2) % ecP = 0 then none
    else
      let l := if x1 = x2 then (3 * x1 * x1 + (ecP - 3)) * invMod ecP (2 * y1) % ecP
        else (y2 + ecP - y1) * invMod ecP (x2 + ecP - x1) % ecP
      let x3 := (l * l + 2 * ecP - x1 - x2) % ecP
      some (x3, (l * (x1 + ecP - x3) + ecP - y1) % ecP)
/-- k-fold sum of a point; the first number bounds the bits of k. -/
def ecMul : Nat → Nat → Option (Nat × Nat) → Option (Nat × Nat)
  | 0, _, _ => none
  | b + 1, k, p =>
    let h := ecMul b (k / 2) (ecAdd p p)
    if k % 2 = 1 then ecAdd p h else h
/-- A pair of coordinates is a point of the curve. -/
def ecOn (q : Nat × Nat) : Bool :=
  decide (q.1 < ecP) && decide (q.2 < ecP) && decide (q.2 * q.2 % ecP = (q.1 ^ 3 + (ecP - 3) * q.1 + ecB) % ecP)
/-- (r, s) is a valid signature over a hash under the public key q. -/
def ecdsaOk (q : Nat × Nat) (hash r s : Nat) : Bool :=
  if r = 0 ∨ ecN ≤ r ∨ s = 0 ∨ ecN ≤ s ∨ !ecOn q then false
  else
    let w := invMod ecN s
    match ecAdd (ecMul 256 (hash * w % ecN) (some ecG)) (ecMul 256 (r * w % ecN) (some q)) with
    | none => false
    | some (x, _) => decide (x % ecN = r)

end Sys2Proof.Machine
end

