-- ==== Sys2Proof/Machine/Seal.lean ====
section
/-! DEFINITION. The seal: the legally relevant set and its CRC, SEAL and UNSEAL, the audit counter and records in OTP, the software
identity and the patch (R384 to R398). -/

namespace Sys2Proof.Machine

/-! ### OTP -/

/-- A byte of OTP; unprogrammed bytes read 0 (R22). -/
def State.otpByte (s : State) (a : Nat) : Byte := cellGet s.otp a 0
/-- Bytes of OTP. -/
def State.otpBytes (s : State) (a n : Nat) : List Byte := (List.range n).map fun i => s.otpByte (a + i)
/-- Program bytes of OTP: a bit once 1 stays 1. -/
def State.otpProgram (s : State) : Nat → List Byte → State
  | _, [] => s
  | a, b :: bs => ({ s with otp := memSet s.otp a (s.otpByte a ||| b) 0 }).otpProgram (a + 1) bs
/-- A bit of the audit counter (R391). -/
def State.auditBit (s : State) (i : Nat) : Bool := (s.otpByte (0x20000800 + i / 8)).getLsbD (i % 8)
/-- The audit count: the index of the first unprogrammed bit (R391). -/
def State.auditCount (s : State) : Nat := ((List.range 2048).takeWhile s.auditBit).length
/-- A programmed bit lies above the count (R391). -/
def State.auditStray (s : State) : Bool := (List.range 2048).any fun i => decide (s.auditCount < i) && s.auditBit i
/-- Audit record k (R392). -/
def State.auditRec (s : State) (k : Nat) : List Byte := s.otpBytes (0x20000900 + 32 * k) 32
/-- Record k is stored. -/
def State.recStored (s : State) (k : Nat) : Bool := (s.auditRec k).any fun b => decide (b ≠ 0)
/-- The RCRC of record k is correct. -/
def State.recGood (s : State) (k : Nat) : Bool :=
  let r := s.auditRec k
  decide (ofLe (r.drop 28) = (crc32 (r.take 28)).toNat)
/-- Records stored (AUDIT_STATUS.RECS). -/
def State.auditRecs (s : State) : Nat := ((List.range 128).filter s.recStored).length

/-! ### Software identity -/

/-- Patch ID, 0 without a patch (R395). -/
def State.patchIdNow (s : State) : Nat := if s.sl.active then s.sl.patchId else 0
/-- Code CRC (R395). -/
def State.codeCrcNow (s : State) : W32 := if s.sl.active then s.sl.codeCrc else Sys2Proof.romCrc
/-- ROM version, patch ID and code CRC, 12 bytes (R388, R392, R395). -/
def State.swid (s : State) : List Byte := leBytes 4 Sys2Proof.romVersion.toNat ++ leBytes 4 s.patchIdNow ++ leBytes 4 s.codeCrcNow.toNat
/-- SWID_READ (R314, R395). -/
def swidReadBody (s : State) : Res := .ok s s.swid

/-! ### The legally relevant set -/

/-- The driver's group holds a metrological chain (R386). -/
def State.groupMetro (s : State) (x : Nat) : Bool := (List.range 24).any fun n => s.metro n && s.inGroup n x
/-- A metrological stream uses NTC set k (R194, R386). -/
def State.ntcMetro (s : State) (k : Nat) : Bool :=
  (List.range 40).any fun n => s.metroStream n && s.curve n == 5 && s.fld (.linCfg n) 5 4 == k
/-- METRO of a routing channel. -/
def State.chMetro (s : State) (cc : Nat) : Bool := s.bit (.routeCh cc) 30
/-- A metrological routing channel enables the start or stop consumer of set k (R235). -/
def State.setMetro (s : State) (k : Nat) : Bool :=
  (List.range 64).any fun cc => s.chMetro cc && (s.targets cc).any fun c => c == 8 + k || c == 12 + k
/-- A register belongs to the legally relevant set under its condition (R386). -/
def State.memberReg (s : State) (r : Reg) : Bool :=
  match r with
  | .sealMetro => true
  | .apChsel n | .afeCfg n | .monCm n => s.metro n
  | .afeTia n => s.metro (16 + n)
  | .monExcCtrl x | .monExcWin x | .monExcLearn x => s.groupMetro x
  | .sluCic n | .sluFir n | .sluRank n | .sluIir n | .sluRate n | .sluSh n | .sluBank n => s.metro n
  | .sclCfg n | .sclZeroLo n | .sclZeroHi n | .sclSpanLo n | .sclSpanHi n => s.metro n
  | .linCfg n | .linTbl n => s.metroStream n
  | .linNtcALo k | .linNtcAHi k | .linNtcBLo k | .linNtcBHi k | .linNtcCLo k | .linNtcCHi k => s.ntcMetro k
  | .dsCfg d | .dsOfsLo d | .dsOfsHi d => s.bit (.dsCfg d) 30
  | .meldCfg u | .meldGate u | .meldALo u | .meldAHi u | .meldBLo u | .meldBHi u | .meldP0 u | .meldP1 u | .meldP2 u | .meldP3 u =>
    s.bit (.meldCfg u) 30
  | .routeCh cc => s.chMetro cc
  | .routeGsrc k => (List.range 64).any fun cc => s.chMetro cc && s.fld (.routeCh cc) 19 16 == k
  | .routeCm k => s.chMetro (40 + k)
  | .routeSl j => s.chMetro (45 + j)
  | .routeQt q => s.chMetro (48 + q)
  | .routePin p => s.chMetro (32 + p)
  | .routeTdiv => s.chMetro 44
  | .routeSet k => s.setMetro k
  | .regionAddr e | .regionAttr e => decide (3 ≤ e) && s.bit (.regionAttr e) 30
  | _ => false
/-- The member fields of a register (R386). -/
def State.memberMask (s : State) (r : Reg) : W32 := if s.memberReg r then BitVec.ofNat 32 r.spec.rwl else 0
/-- Registers that hold a member field, by address (R388 item 3); SEAL_METRO is item 2. -/
def State.memberRegs (s : State) : List Reg :=
  (allRegs.filter fun r => s.memberReg r && decide (r ≠ .sealMetro)).mergeSort fun a b => decide (a.addr ≤ b.addr)
/-- The byte stream of the set (R388). -/
def State.setStream (s : State) : List Byte :=
  s.swid ++ leBytes 4 (s.reg .sealMetro).toNat ++
  (s.memberRegs.flatMap fun r => leBytes 4 r.addr ++ leBytes 4 (s.reg r &&& s.memberMask r).toNat) ++
  (((List.range 16).filter fun d => s.bit (.dsCfg d) 30).flatMap fun d =>
    (List.range 16).flatMap fun k =>
      let x : DsSlot := cellGet (s.dsr d).slots k {}
      leBytes 4 (x.en.toNat * 2 ^ 31 + x.src) ++ leBytes 4 (BitVec.ofInt 32 x.w).toNat) ++
  (((List.range 24).filter s.metro).flatMap fun n =>
    [0, 1].flatMap fun bank =>
      (List.range (s.firT n + 5)).flatMap fun k => leBytes 8 (BitVec.ofInt 36 (s.coefAt bank (s.coefBase n + k))).toNat) ++
  (((List.range 40).filter fun n => s.metroStream n && decide (13 ≤ s.curve n)).flatMap fun n => leBytes 8 (s.blockHead n).toNat)
/-- CRC-32 of the set (R388). -/
def State.setCrc (s : State) : W32 := crc32 s.setStream

/-! ### SEAL and UNSEAL -/

/-- An event of this chapter (R398). -/
def State.sealEvent (s : State) (code : Nat) : State := s.event code s.now s.queuesAll
/-- Reply data of SEAL (R389). -/
def State.sealData (s : State) : List Byte := leBytes 2 s.auditCount ++ leBytes 4 (s.reg .sealCrc).toNat
/-- The set is the reference (R389 step 3). -/
def State.setUnchanged (s : State) : Bool := s.sl.refValid && decide (s.reg .sealCrc = s.reg .sealRef)
/-- A command becomes long (R295). -/
def State.goLong (s : State) (h : Hdr) (op : LongOp) : State := { s with proto := { s.proto with longs := s.proto.longs ++ [(h, op)] } }
/-- SEAL: steps 1 to 4; the rest at its completion (R389). -/
def sealBody (h : Hdr) (s : State) : Res :=
  if s.sl.sealed then .ok s s.sealData
  else
    let s := s.setReg .sealCrc s.setCrc
    if s.setUnchanged then .later (s.goLong h .seal)
    else
      let refused (r : Rej) : Res := .part (({ s with sl := { s.sl with mismatch := true } }).sealEvent 0x1b03) r
      if s.auditCount = 2048 then refused (.auditFull, [])
      else if s.auditCount ≠ 0 ∧ !s.sl.jumper then refused (s.conflict 0xfe 0)
      else .later (s.goLong h .seal)
/-- UNSEAL: the refusals; the rest at its completion (R390). -/
def unsealBody (h : Hdr) (s : State) : Res :=
  if !s.sl.sealed then .ok s []
  else if !s.sl.jumper then .no (s.conflict 0xfe 0)
  else if s.auditCount = 2048 then .no (.auditFull, [])
  else .later (s.goLong h .unseal)
/-- The audit record of a count (R392), written before SEAL_REF changes; `c` is the count before. -/
def State.auditRecord (s : State) (c : Nat) : List Byte :=
  let prev := s.auditRec (c - 1)
  let differs := decide (c = 0) || !s.recStored (c - 1) || !s.recGood (c - 1) || decide ((prev.drop 16).take 12 ≠ s.swid)
  let approx := s.now.clk || s.bit .rstCause 10
  let body := leBytes 2 (c + 1) ++ [BitVec.ofNat 8 (differs.toNat + 2 * approx.toNat + 4 * (decide (c = 0)).toNat), 0x01] ++
    leBytes 4 (s.reg .sealCrc).toNat ++ leBytes 8 s.now.t ++ s.swid
  body ++ leBytes 4 (crc32 body).toNat
/-- Bytes as they are programmed where the bits of `stuck` do not take. -/
def programmed (bs stuck : List Byte) : List Byte := bs.zipIdx.map fun (b, i) => b &&& ~~~ (stuck.getD i 0)
/-- The audit write of a counted SEAL; a record whose RCRC fails its read-back sets REC_BAD and stays (R391, R392, R394). -/
def State.auditWrite (s : State) (stuck : List Byte) : State :=
  let c := s.auditCount
  let record := programmed (s.auditRecord c) stuck
  let s := s.otpProgram (0x20000800 + c / 8) [BitVec.ofNat 8 (2 ^ (c % 8))]
  let s := if c < 128 then
      let s := s.otpProgram (0x20000900 + 32 * c) record
      if s.recGood c then s else { s with sl := { s.sl with recBad := true } }
    else s
  if c = 127 ∨ c = 2047 then s.irqFire 16 else s
/-- SEAL_COMPLETE: the SEAL or UNSEAL in progress takes final effect and replies; a counter bit that has failed `fails` attempts
ends a counted SEAL at three, and the bits of `stuck` do not take in its record; `err` is what the reads of the set met in the memories
(R21, R162, R389 to R392). -/
def sealComplete (fails : Nat) (stuck : List Byte) (err : MemErr) (s : State) : State :=
  let busy := s.proto.longs.any fun x => decide (x.2 = .seal)
  let s := if busy then s.memErr err else s
  match s.endLong fun op => decide (op = .seal) with
  | some (h, s) =>
    if s.setUnchanged then
      let s := (({ s with sl := { s.sl with sealed := true } }).sealEvent 0x1b00).irqFire 15
      s.respond h .ok s.sealData true
    else if 3 ≤ fails then ({ s with sl := { s.sl with cntErr := true } }).respond h .auditFull [] true
    else
      let s := (s.auditWrite stuck).setReg .sealRef (s.reg .sealCrc)
      let s := (({ s with sl := { s.sl with sealed := true, refValid := true } }).sealEvent 0x1b01).irqFire 15
      s.respond h .ok s.sealData true
  | none =>
    match s.endLong fun op => decide (op = .unseal) with
    | some (h, s) => ((({ s with sl := { s.sl with sealed := false } }).sealEvent 0x1b02).irqFire 15).respond h .ok [] true
    | none => s
/-- SEAL_N_CHANGE (R385). -/
def sealNChange (high : Bool) (s : State) : State :=
  if high = s.sl.jumper then s else ({ s with sl := { s.sl with jumper := high, jmpS := true } }).irqFire 15
/-- Write of SEAL_CTRL (R385, R388). -/
def sealCtrlWrite (v : W32) (s : State) : State :=
  let s := if v.getLsbD 0 then { s with sl := { s.sl with jmpS := false, mismatch := false } } else s
  if v.getLsbD 1 then { s with sl := { s.sl with calcPend := true } } else s
/-- CALC_COMPLETE; `err` is what the reads of the set met in the memories (R21, R162, R388). -/
def calcComplete (err : MemErr) (s : State) : State :=
  if s.sl.calcPend then (({ s with sl := { s.sl with calcPend := false } }).setReg .sealCrc s.setCrc).memErr err else s
/-- What a boot reads of the audit memory (R391 to R393). -/
def State.auditLoad (s : State) : State :=
  let c := s.auditCount
  let bad := (List.range 128).any fun k => s.recStored k && !s.recGood k
  let ok := decide (1 ≤ c ∧ c ≤ 128) && s.recGood (c - 1) && decide (ofLe ((s.auditRec (c - 1)).take 2) = c)
  let s := { s with sl := { s.sl with cntErr := s.auditStray, recBad := bad, refValid := ok } }
  if ok then s.setReg .sealRef (BitVec.ofNat 32 (ofLe (((s.auditRec (c - 1)).drop 4).take 4))) else s
/-- SEAL_STATUS. -/
def State.sealStatusWord (s : State) : W32 :=
  let busy := s.sl.calcPend || s.proto.longs.any fun x => decide (x.2 = .seal ∨ x.2 = .unseal)
  BitVec.ofNat 32 (s.sl.refValid.toNat * 64 + s.sl.jmpS.toNat * 32 + busy.toNat * 16 + s.sl.mismatch.toNat * 8 + s.sl.prior.toNat * 4
    + s.sl.jumper.toNat * 2 + s.sl.sealed.toNat)
/-- AUDIT_STATUS (R391, R392, R394). -/
def State.auditStatusWord (s : State) : W32 :=
  BitVec.ofNat 32 (s.auditCount * 65536 + s.sl.cntErr.toNat * 2048 + s.sl.recBad.toNat * 1024 + (s.recStored 127).toNat * 512
    + (decide (s.auditCount = 2048)).toNat * 256 + s.auditRecs)

/-! ### Patch -/

/-- Window address of patch RAM (R19, R396). -/
def patchBase : Nat := 0x10040000
/-- Bytes of the patch image. -/
def State.patchBytes (s : State) (o n : Nat) : List Byte := (List.range n).map fun i => s.sramByte (patchBase + o + i)
/-- PATCH_LOAD (R397). -/
def patchLoadBody (ofs : Nat) (bs : List Byte) (s : State) : Res :=
  if 65536 < ofs + bs.length then .no (.badParam, [])
  else if s.sl.sealed then .no (.sealed, [])
  else if s.sl.active then .no (s.conflict 0xfe 0)
  else .ok (s.sramPut (patchBase + ofs) bs) []
/-- PATCH_ACTIVATE: the refusals; verification ends later (R397). -/
def patchActivateBody (h : Hdr) (s : State) : Res :=
  if s.sl.sealed then .no (.sealed, [])
  else if s.sl.active then .no (s.conflict 0xfe 0)
  else .later (s.goLong h .patchActivate)
/-- The first step of R397 that an image fails: 0 none. -/
def State.patchCheck (s : State) : Nat :=
  let word (o : Nat) : Nat := ofLe (s.patchBytes o 4)
  let len := word 12
  let qx := ofBe (s.patchBytes 0x10 32)
  let qy := ofBe (s.patchBytes 0x30 32)
  let hash := ofBe (s.otpBytes 0x20000700 32)
  if word 0 ≠ 0x48360a7c ∨ word 4 ≠ Sys2Proof.romVersion.toNat ∨ word 8 = 0 ∨ len < 4 ∨ 65376 < len ∨ len % 4 ≠ 0 then 1
  else if hash = 0 ∨ sha256 (s.patchBytes 0x10 64) ≠ hash then 2
  else if !ecdsaOk (qx, qy) (sha256 (s.patchBytes 0 16 ++ s.patchBytes 0xa0 len)) (ofBe (s.patchBytes 0x50 32)) (ofBe (s.patchBytes 0x70 32))
  then 3
  else 0
/-- PATCH_VERIFICATION_END; the reads of the image have corrected `fixed` words (R21, R397). -/
def patchVerificationEnd (fixed : Nat) (s : State) : State :=
  match s.endLong fun op => decide (op = .patchActivate) with
  | none => s
  | some (h, s) =>
    let s := s.sramFixed fixed
    match s.patchCheck with
    | 0 =>
      let len := ofLe (s.patchBytes 12 4)
      let crc := ~~~ crc32Run (~~~ Sys2Proof.romCrc) (s.patchBytes 0xa0 len)
      let s := { s with sl := { s.sl with active := true, patchId := ofLe (s.patchBytes 8 4), codeCrc := crc } }
      (s.sealEvent 0x1b04).respond h .ok (leBytes 4 s.sl.patchId ++ leBytes 4 crc.toNat) true
    | k =>
      let s := (({ s with sl := { s.sl with fail := k } }).irqFire 17).sealEvent 0x1b05
      s.respond h (if k = 1 then .badParam else .authFail) [] true

end Sys2Proof.Machine
end

