-- ==== Sys2Proof/Machine/Boot.lean ====
section
/-! DEFINITION. Supplies, clocks, resets, the boot and the always-on save area (R61 to R87), and the entry to FAULT (R298). -/

namespace Sys2Proof.Machine

/-! ### The save area -/

/-- The items of the AO save list as they stand (R84). -/
def State.aoItems (s : State) : AoItems :=
  { clk := (s.reg .clkCtrl &&& 0x1f1).toNat, ndiv := s.fld .clkPll 4 0, ofs := s.tim.ofs, rate := s.tim.rate, node := s.nodeAddr
    sealed := s.sl.sealed, owner := s.proto.owner, lease := s.fld .semCfg 15 0
    refuseCount := (s.reg .pwrRefuseCount).toNat, refuser := (s.reg .pwrRefuser).toNat }
/-- The valid copy with the higher SEQ (R86). -/
def State.newestCopy (s : State) : Option AoCopy :=
  match s.clk.copyA, s.clk.copyB with
  | some a, some b => if a.seq < b.seq then some b else some a
  | some a, none => some a
  | none, b => b
/-- A save writes the copy that is not the newest, with the next SEQ (R85). -/
def State.aoSave (s : State) : State :=
  let seq := (s.newestCopy.elim 0 (·.seq) + 1) % 2 ^ 32
  let c : AoCopy := { seq := seq, items := s.aoItems, ts := s.now.t, ls := s.clk.lf }
  let intoB := match s.clk.copyA with
    | none => false
    | some a => s.newestCopy == some a
  if intoB then { s with clk := { s.clk with copyB := some c, savedAt := some s.clk.frc } }
  else { s with clk := { s.clk with copyA := some c, savedAt := some s.clk.frc } }
/-- A save that has not had its 2 µs is cut short: the copy that it writes is not valid, the other stands (R85). -/
def State.cutSave (s : State) : State :=
  let late := s.clk.savedAt.any fun t => decide (s.clk.frc - t < 50)
  if !late then s
  else if s.newestCopy.isSome && s.newestCopy == s.clk.copyA then { s with clk := { s.clk with copyA := none } }
  else { s with clk := { s.clk with copyB := none } }
/-- A change of a listed item saves (R85). -/
def State.saveIfChanged (old s : State) : State := if s.aoItems = old.aoItems then s else s.aoSave
/-- AO_SAVE_PERIODIC: every 32,768 LFCLK periods, 1 s, while the sequencer runs, which in DOZE it does not (R85, R369). -/
def aoSavePeriodic (s : State) : State :=
  if s.pwr.st = .run ∧ s.clk.saveLf + 32768 ≤ s.clk.lf then
    let t := s.aoSave
    { t with clk := { t.clk with saveLf := s.clk.saveLf + 32768 } }
  else s
/-- The semaphore's word of a copy (R84; log entry 47). -/
def aoOwnerWord (c : AoItems) : W32 :=
  let who := match c.owner with
    | some (.link n p) => n + (if p = .b then 256 else 0)
    | _ => 0
  Sys2Proof.aoSemWord (ownerCode c.owner) who c.lease
/-- Words 0x000 to 0x03C of a copy (R84). -/
def aoWords (c : AoCopy) : List W32 :=
  let i := c.items
  let ns := (BitVec.ofInt 64 (i.ofs / 65536)).toNat
  let n (v : Nat) : W32 := BitVec.ofNat 32 v
  [n c.seq, n i.clk, n i.ndiv, n ns, n (ns / 2 ^ 32), n (i.ofs % 65536).toNat, BitVec.ofInt 32 i.rate, n c.ts, n (c.ts / 2 ^ 32),
   n c.ls, n (c.ls / 2 ^ 32), n (i.node.getD 0xff), n i.sealed.toNat, aoOwnerWord i, n i.refuseCount, n i.refuser]
/-- Word k of a copy as it reads, with its CRC-32; a copy that is not valid reads 0. -/
def aoWord (c : Option AoCopy) (k : Nat) : W32 :=
  match c with
  | none => 0
  | some c => let ws := aoWords c; ((ws ++ [crc32 (ws.flatMap fun w => leBytes 4 w.toNat)])[k]?).getD 0
/-- AO_STATUS. -/
def State.aoStatusWord (s : State) : W32 := BitVec.ofNat 32 (s.clk.copyA.isSome.toNat + 2 * s.clk.copyB.isSome.toNat)

/-! ### Resets -/

/-- Everything outside the AO domain takes its reset value; straps, supplies and SEAL_N are as found (R46, R48, R66, R426). -/
def State.resetBy (s : State) (e : Env) (cause : Nat) : State :=
  let prot (x : Strap) : W32 := match x with | .gnd => 0 | .opened => 1 | .high => 2
  let t : State :=
    { State.reset with
      pending := s.pending, otp := s.otp, freeCtr := s.freeCtr
      clk := { lf := s.clk.lf, lfAcc := s.clk.lfAcc, copyA := s.clk.copyA, copyB := s.clk.copyB }
      hostIf := { strapA := e.strapA, strapB := e.strapB }
      sl := { jumper := e.sealHigh }
      proto := { factory := e.test && e.sealHigh } }
  let t := (t.setReg .aoBorCount (s.reg .aoBorCount)).setReg .aoWdtCount (s.reg .aoWdtCount)
  let t := (t.setReg .supStatus (e.sup.setWidth 32 ||| 1)).setReg .rstCause (BitVec.ofNat 32 cause)
  let t := (t.setReg (.hostCfg 0) (prot e.strapA)).setReg (.hostCfg 1) (prot e.strapB)
  t.setFld .monTempStatus 31 20 (BitVec.ofInt 12 e.temp).toNat
/-- On entry to factory test the hub saves (R49, R85). -/
def State.factorySave (s : State) : State := if s.proto.factory then s.aoSave else s
/-- Both copies are invalid. -/
def State.dropCopies (s : State) : State := { s with clk := { s.clk with copyA := none, copyB := none } }
/-- A reference is to be started: the oscillator or the buffer first, unless it runs already (R73 step 2). -/
def State.startRef (s : State) (o : ClkOp) : State :=
  let s := if o.ext then s.setBit .clkStatus 1 false else { s with clk := { s.clk with xin := false } }
  let runs := if o.ext then s.clk.xin else s.bit .clkStatus 1
  { s with clk := { s.clk with op := some { o with phase := if runs then .qualify else .startXo, since := s.clk.frc } } }
/-- The time estimate of a restore, in 2^−16 ns: a period of TCLK is 15,625/384 ns (R87; the rounding is free, log entry 30). -/
def State.estimate (s : State) (c : AoCopy) : Int :=
  c.ts * 65536 + ((s.clk.lf + 2 ^ 48 - c.ls) % 2 ^ 48 : Nat) * 2000000000
    - looseDiv (s.clk.frc * 15625 * (2 ^ 40 + c.items.rate)) (384 * 2 ^ 24)
/-- Restore from the newest valid copy; a restored owner holds a lease of the saved setting (R86, R87, R317; DESIGN CHOICE, log entry 173). -/
def State.restore (s : State) : State :=
  match s.newestCopy with
  | none => s.setBit .rstCause 9 true
  | some c =>
    let i := c.items
    let s := (s.setBit .rstCause 8 true).setBit .rstCause 10 true
    let s := (s.setReg .clkCtrl (BitVec.ofNat 32 i.clk)).setFld .clkPll 4 0 i.ndiv
    let s := (s.setReg .pwrRefuseCount (BitVec.ofNat 32 i.refuseCount)).setReg .pwrRefuser (BitVec.ofNat 32 i.refuser)
    let s := (s.setFld .linkNode 7 0 (i.node.getD 0xff)).setFld .semCfg 15 0 i.lease
    let s := { s with tim := { ofs := s.estimate c, rate := i.rate, epoch := 0, rates := [(0, i.rate)] }
                      sl := { s.sl with prior := i.sealed }
                      proto := { s.proto with owner := i.owner, lease := i.lease }
                      clk := { s.clk with lfQual := i.clk / 128 % 2 == 1, lfQualAt := s.clk.lf }
                      eng := { s.eng with capNow := s.sPerM } }
    if i.clk % 2 = 1 then
      s.startRef { hdr := none, pll := true, ext := i.clk / 64 % 2 == 1, ndiv := i.ndiv, msel := s.mclkSel, phase := .startXo }
    else s
/-- A reset on a cause, and on others that hold at once: the lowest is recorded. A power-on or RESET_N makes the copies invalid, the other
causes restore; a power-on clears the counters, the others leave or count (R66, R83, R85 to R87). -/
def State.resetFor (s : State) (e : Env) (own : Nat) : State :=
  let cs := own :: e.also
  let s := if e.cut && cs.contains 1 then s.cutSave else s
  let t := s.resetBy e (cs.foldl min own)
  let t := if cs.contains 0 then
      let u := (t.setReg .aoBorCount 0).setReg .aoWdtCount 0
      { u with clk := { u.clk with lf := 0, lfAcc := 0 } }
    else
      let u := if cs.contains 1 then t.satAdd .aoBorCount 15 0 1 else t
      if cs.contains 3 then u.satAdd .aoWdtCount 15 0 1 else u
  let t := ({ t with clk := { t.clk with lf := (t.clk.lf + e.lf) % 2 ^ 48 } } : State).run e.frc
  (if cs.contains 0 || cs.contains 2 then t.dropCopies else t.restore).factorySave
/-- POWER_ON_RESET (R66). -/
def powerOnReset (e : Env) (s : State) : State := s.resetFor e 0
/-- BROWN_OUT (R66); OFF is left by RESET_N or by a power-on only (R380). -/
def brownOut (e : Env) (s : State) : State := if s.pwr.st = .off then s else s.resetFor e 1
/-- RESET_N (R49, R66). -/
def resetN (e : Env) (s : State) : State := s.resetFor e 2
/-- WATCHDOG_EXPIRY: a final save, then the reset; paused while the sequencer is off and in factory test (R66, R83). FAULT is left
by RESET_N or a power cycle only (R298). -/
def watchdogExpiry (e : Env) (s : State) : State :=
  if !s.fabricOn || s.proto.factory || s.proto.dev == .fault then s else s.aoSave.resetFor e 3
/-- FACTORY_TEST_EXIT (R66). -/
def factoryTestExit (e : Env) (s : State) : State := if s.proto.factory then s.resetFor e 4 else s

/-! ### Boot and FAULT -/

/-- A queue is disabled and its contents discarded (R278, R298). -/
def State.queueOff (s : State) (q : Nat) : State :=
  if s.qOn q then (s.setBit (.weirCfg q) 31 false).discardQ q else s
/-- Entry to FAULT (R298): Ebb is no longer armed, and a power entry under way ends without its target (log entry 120). -/
def State.enterFault (s : State) (cause : Nat) : State :=
  let (s, fs) := s.thermalOff
  let s := (s.faultsOpen fs).stopAll (2 ^ 24 - 1)
  let s := (List.range 16).foldl State.queueOff s
  { s with proto := { s.proto with dev := .fault, faultCause := cause }, ebb := {}
           pwr := { s.pwr with entering := false, waitReply := none } }
/-- The lease of the present owner restarts in full (R86, R307). -/
def State.restartLease (s : State) : State :=
  if s.proto.owner.isSome then { s with proto := { s.proto with deadline := s.clk.frc + s.proto.lease * msT } } else s
/-- BOOT_COMPLETE (R77, R78, R253, R391 to R393): what the OTP holds, the sequencer's masks, the start-up save, CONFIG or FAULT. -/
def bootComplete (otpBad : Bool) (s : State) : State :=
  if s.proto.dev ≠ .boot ∨ s.proto.factory = true then s
  else
    let s := s.auditLoad.seqMasks.restartLease.aoSave
    let s := { s with clk := { s.clk with saveLf := s.clk.lf } }
    if otpBad then (s.setBit .bootStatus 2 true).enterFault 1 else { s with proto := { s.proto with dev := .config } }
/-- SRAM_CLEARED (R77, R379). -/
def sramCleared (s : State) : State := if s.fabricOn then s.setBit .bootStatus 0 true else s
/-- FIRMWARE_MEMORY_ERROR (R297, R298). -/
def firmwareMemoryError (s : State) : State := if s.fabricOn && s.proto.dev != .fault then s.enterFault 2 else s

/-! ### CLOCK_SET -/

/-- The reply of a CLOCK_SET that ends (R73). -/
def State.clockReply (s : State) (o : ClkOp) (st : Status) : State :=
  let s := { s with clk := { s.clk with op := none } }
  match o.hdr with
  | none => s
  | some _ =>
    match s.endLong fun x => decide (x = .clockSet) with
    | none => s
    | some (h, s) => s.respond h st (leBytes 4 (s.reg .clkStatus).toNat) true
/-- The PLL stops (R73). -/
def State.stopPll (s : State) : State :=
  let s := s.setFld .clkStatus 3 2 0
  { s with clk := { s.clk with pll := none } }
/-- The oscillator and the XIN buffer stop, unless XO_KEEP (R73). -/
def State.stopRef (s : State) : State :=
  if s.bit .clkCtrl 8 then s
  else
    let s := s.setBit .clkStatus 1 false
    { s with clk := { s.clk with xin := false } }
/-- MCLK periods from here on are no longer, or again, clocked from the locked PLL (R75). -/
def State.markPll (s : State) (on : Bool) : State :=
  let iv := s.clk.offPll.map fun (x : Nat × Option Nat) => if on && x.2.isNone then (x.1, some s.clk.mclk) else x
  let iv := if on || iv.any (fun x => x.2.isNone) then iv else iv ++ [(s.clk.mclk, none)]
  { s with clk := { s.clk with offPll := iv } }
/-- The time base reaches the next MCLK edge. -/
def State.toEdge (s : State) : State := if s.clk.mclkPh = 0 then s else s.advanceTo (s.clk.mclk + 1)
/-- The lower of the capacities of the tick in which a switch falls (R74). -/
def State.lowCapacity (s : State) : State := { s with eng := { s.eng with capNow := min s.eng.capNow s.sPerM } }
/-- SYSCLK returns to HFRC: PLL-only bit rates of port B fall back (R74, R75, R328). -/
def State.toHfrc (s : State) : State :=
  let s := ((s.setBit .clkStatus 0 false).markPll false).lowCapacity
  if s.uartB && (decide (3000000 < s.hostIf.rate) || s.hostIf.ratePend.any fun x => decide (3000000 < x.2.2)) then
    { (s.setBit (.hostStat 1) 1 true).setFld .hostBBaud 23 0 115200 with hostIf := { s.hostIf with rate := 115200, ratePend := [] } }
  else s
/-- Whether a CLOCK_SET would break R30: at its end, or at HFRC on the way (R72). -/
def State.clockBudget (s : State) (src msel : Nat) (through : Bool) : Bool :=
  let last := (s.setFld .clkCtrl 5 4 msel).setBit .clkStatus 0 (src == 1)
  capacityBroken s last || (through && capacityBroken s (s.setBit .clkStatus 0 false))
/-- CLOCK_SET: the refusals of R72, then the steps of R73. -/
def clockSetBody (h : Hdr) (src ref ndiv msel : Nat) (s : State) : Res :=
  let o : ClkOp := { hdr := some h, pll := src == 1, ext := ref == 1, ndiv := ndiv, msel := msel, phase := .switch }
  let same := s.bit .clkStatus 3 && s.clk.pll == some (o.ext, ndiv)
  if 1 < src ∨ 1 < ref ∨ ndiv < 6 ∨ 24 < ndiv ∨ 3 < msel then .no (.badParam, [])
  else if msel ≠ s.mclkSel ∧ s.anyBusy = true then .no (s.chConflict ((List.range 24).filter s.chBusy))
  else if msel ≠ s.mclkSel ∧ s.bit .beoLoopCfg 31 = true then .no (s.conflict 0x31 1)
  else if s.clockBudget src msel (src == 1 && s.onPll && !same) then .no (.budget, [])
  else
    let t := s.goLong h .clockSet
    if src = 0 ∨ same = true then .later { t with clk := { t.clk with op := some o } }
    else if s.onPll then .later { t with clk := { t.clk with op := some { o with phase := .leave } } }
    else .later (t.stopPll.startRef o)
/-- XO_STARTED (R73 step 2). -/
def xoStarted (s : State) : State :=
  match s.clk.op with
  | some o =>
    if o.phase = .startXo then
      let t := if o.ext then s else s.setBit .clkStatus 1 true
      { t with clk := { t.clk with xin := o.ext, op := some { o with phase := .qualify } } }
    else s
  | none => s
/-- REF_QUALIFIED: the reference measures `khz`, within 4 % of 196,608 kHz ÷ NDIV (R71, R73 step 3). -/
def refQualified (khz : Nat) (s : State) : State :=
  match s.clk.op with
  | some o =>
    if o.phase = .qualify ∧ 96 * 196608 ≤ 100 * (khz * o.ndiv) ∧ 100 * (khz * o.ndiv) ≤ 104 * 196608 then
      let t := (s.setFld .clkPll 31 16 khz).setBit .clkStatus 2 true
      { t with clk := { t.clk with op := some { o with phase := .lock, since := s.clk.frc } } }
    else s
  | none => s
/-- PLL_LOCKED (R73 step 4). -/
def pllLocked (s : State) : State :=
  match s.clk.op with
  | some o =>
    if o.phase = .lock then
      let t := s.setBit .clkStatus 3 true
      { t with clk := { t.clk with pll := some (o.ext, o.ndiv), op := some { o with phase := .switch } } }
    else s
  | none => s
/-- CLOCK_SWITCH: the switch at the next MCLK edge; from HFRC to HFRC it changes only MCLK_SEL (R73 steps 1 and 5). -/
def clockSwitch (s : State) : State :=
  match s.clk.op with
  | some o =>
    match o.phase with
    | .leave => ((s.toEdge.toHfrc.setBit .clkCtrl 0 false).stopPll).startRef o
    | .switch =>
      let t := s.toEdge
      if o.pll then
        let t := (t.markPll true).setBit .clkStatus 0 true
        let t := (t.setBit .clkCtrl 0 true).setBit .clkCtrl 6 o.ext
        ((t.setFld .clkPll 4 0 o.ndiv).setFld .clkCtrl 5 4 o.msel).lowCapacity.clockReply o .ok
      else
        let u := (t.setBit .clkCtrl 0 false).setFld .clkCtrl 5 4 o.msel
        if t.onPll then u.toHfrc.stopPll.stopRef.clockReply o .ok else u.lowCapacity.clockReply o .ok
    | _ => s
  | none => s
/-- A CLOCK_SET that has failed stays on HFRC (R73). -/
def State.clockFail (s : State) (o : ClkOp) : State := s.stopPll.stopRef.clockReply o .clockFail
/-- CLOCK_FAIL_TIMEOUT: 2 ms for the reference, counted from the start of its oscillator or buffer, or 400 µs for the lock (R73). -/
def clockFailTimeout (s : State) : State :=
  match s.clk.op with
  | some o =>
    let due : Bool := match o.phase with
      | .startXo | .qualify => decide (o.since + 2 * msT ≤ s.clk.frc)
      | .lock => decide (o.since + 9831 ≤ s.clk.frc)
      | .leave | .switch => false
    if due then s.clockFail o else s
  | none => s
/-- REF_LOSS (R76). -/
def refLoss (s : State) : State :=
  if !s.onPll then s
  else
    let t := ((s.toEdge.toHfrc.stopPll).setBit .clkStatus 5 true).irqFire 10
    match t.clk.op with
    | some o => t.clockFail o
    | none => t

/-! ### LF crystal, regulator, supplies -/

/-- Write of CLK_CTRL (R68, R73). -/
def clkCtrlWrite (v : W32) (s : State) : State :=
  let was := s.bit .clkCtrl 7
  let s := s.setFld .clkCtrl 8 7 (bits v.toNat 8 7)
  let s := if v.getLsbD 7 == was then s
    else if was then { s.setBit .clkStatus 4 false with clk := { s.clk with lfQual := false } }
    else { s with clk := { s.clk with lfQual := true, lfQualAt := s.clk.lf } }
  if v.getLsbD 16 then s.setFld .clkStatus 6 5 0 else s
/-- LF_XTAL_QUALIFIED (R68). -/
def lfXtalQualified (s : State) : State :=
  if s.clk.lfQual then { s.setBit .clkStatus 4 true with clk := { s.clk with lfQual := false } } else s
/-- LF_LOSS: the crystal in use stops, or has not qualified within 1 s (R68). -/
def lfLoss (s : State) : State :=
  if s.bit .clkStatus 4 then ((s.setBit .clkStatus 4 false).setBit .clkStatus 6 true).irqFire 11
  else if s.clk.lfQual && decide (s.clk.lfQualAt + 32768 ≤ s.clk.lf) then { s.setBit .clkStatus 6 true with clk := { s.clk with lfQual := false } }
  else s
/-- Write of REG_CTRL (R64). MODE = 1 where it is 1 already probes nothing (DESIGN CHOICE, log entry 121). -/
def regCtrlWrite (v : W32) (s : State) : State :=
  if v.getLsbD 0 then
    if s.bit .regCtrl 0 then s else { s.setBit .regCtrl 0 true with clk := { s.clk with probe := true } }
  else { (s.setBit .regCtrl 0 false).setBit .regStatus 0 false with clk := { s.clk with probe := false } }
/-- BUCK_PROBE_RESULT (R64). -/
def buckProbeResult (inductor : Bool) (s : State) : State :=
  if !s.clk.probe then s
  else
    let s := { s with clk := { s.clk with probe := false } }
    if inductor then s.setFld .regStatus 1 0 1 else ((s.setBit .regCtrl 0 false).setBit .regStatus 1 true).irqFire 9
/-- Loss of VEXC_OK: the drivers that drive are switched off; one fault with one event covers every enabled driver, and a loss while that
fault is active joins it. Emulator outputs and loop go off (R63, R140 to R143, R403, R407). -/
def State.vexcLost (s : State) : State :=
  let en := (List.range 4).filter fun x => (s.drv x).en
  let old := s.mon.faults.find? fun f => f.code == 0x1420 && f.t1.isNone
  let open_ (x : Nat) : Bool := s.mon.faults.any fun f => f.code == 0x1420 && f.t1.isNone && decide (f.drv = some x)
  let s := en.foldl (fun s x => (s.driverOff x).modDrv x fun d => { d with restart := false }) s
  let ev := (old.map (·.ev)).getD s.clk.mclk
  let ivs := (en.filter fun x => !open_ x).map fun x => { (s.offIv 0x1420 x).1 with ev := ev }
  let s := s.setFaults (s.mon.faults ++ ivs)
  let s := match old, ivs with
    | none, f :: _ => s.faultNote 0x1420 (s.eventMask f) s.now
    | _, _ => s
  s.emulatorsOff
/-- The ownership of a source of port B ends with VIO_B (R308). -/
def State.vioBLost (s : State) : State :=
  if s.proto.owner = some (.port .b) then s.expireSem else s

end Sys2Proof.Machine
end

