-- ==== Sys2Proof/Machine/Host.lean ====
section
/-! DEFINITION. The host ports (R318 to R330): replies that leave or are cut, partial packets, the UART receiver, CCCs of I3C, the
ports' registers, the status byte. -/

namespace Sys2Proof.Machine

/-! ### Replies -/

/-- The words of a QUEUE_READ reply that left the port: R advances, and the last of them is remembered; what was not delivered is
taken from the queue again (R275). -/
def State.delivered (s : State) (p : Port) (r : Reply) (k : Nat) : State :=
  match r.q with
  | none => s
  | some (q, n, before) =>
    if n ≤ k then s.advR q n
    else
      let last := if k = 0 then before else BitVec.ofNat 64 (ofLe ((r.data.drop (8 * (k - 1))).take 8))
      let s := (s.advR q k).modQueue q fun x => match p with | .a => { x with lastA := last } | .b => { x with lastB := last }
      if (s.win p).q = some q then s.setWin p { q := some q } else s
/-- The rates that the reply to a write carries into force: the last of them is the bit rate (R328). -/
def State.takeRates (s : State) (p : Port) (r : Reply) : State :=
  let mine (x : Port × Nat × Nat) : Bool := r.frees && decide (x.1 = p ∧ x.2.1 = r.tag)
  match (s.hostIf.ratePend.filter mine).getLast? with
  | none => s
  | some x => { s with hostIf := { s.hostIf with rate := x.2.2, ratePend := s.hostIf.ratePend.filter fun y => !mine y } }
/-- The first reply of a port has left: its tag is free, the next one follows in a read frame if it is ready, a WAIT may enter, a written
bit rate takes effect (R275, R293, R321, R328, R371). -/
def State.replyLeft (s : State) (p : Port) (r : Reply) : State :=
  let t := (s.delivered p r 65536).dropReply p
  let t := t.modBus p fun b => { b with pos := 0, rdy := (t.firstReply p).isSome }
  let t := if p == .b then { t with hostIf := { t.hostIf with sentB := some t.clk.frc } } else t
  let t := if r.status = .accepted ∧ t.pwr.waitReply = some (.port p, r.tag) then { t with pwr := { t.pwr with waitReply := none } } else t
  t.takeRates p r
/-- REPLY_SENT: the last byte of the first reply has left. Where no reply waits, or an SPI frame sends none, the transfers show their
status bytes and send 0x00; a half-duplex port has not yet sent a reply that it cannot have started (R320, R321, R330). -/
def replySent (p : Port) (ls : List Lead) (s : State) : State :=
  if !s.portLive p then s.unheard p ls
  else
    let s := s.transfers p ls
    match s.firstReply p with
    | none => s
    | some r => if !s.sending p || (p == .b && s.half && decide (s.clk.frc < s.txAt r)) then s else s.replyLeft p r
/-- The reply in progress is cut short after `k` of its words (R275, R323). -/
def State.cutReply (s : State) (p : Port) (k : Nat) : State :=
  match s.firstReply p with
  | none => s
  | some r => (((s.delivered p r k).dropReply p).modBus p fun b => { b with pos := 0 }).satAdd (.hostStat (portIx p)) 23 16 1
/-- REPLY_CUT: of the SPI frame that sends it; on I2C and I3C a reply resumes in the next transfer (R323, R326). -/
def replyCut (p : Port) (k : Nat) (ls : List Lead) (s : State) : State :=
  if !s.portLive p then s.unheard p ls
  else
    let s := s.transfers p ls
    if s.spi p && s.sending p then s.cutReply p k else s
/-- PARTIAL_PACKET_DISCARD: a transfer ends inside a packet, of which `n` bytes have come (R319). -/
def partialPacketDiscard (p : Port) (ls : List Lead) (n : Nat) (s : State) : State :=
  if !s.portLive p then s.unheard p ls
  else if !s.portOpen p then s
  else
    let s := (s.transfers p ls).heard p s.clk.frc
    if s.writing p then (s.lost p n).satAdd (.hostStat (portIx p)) 15 8 1 else s

/-- The SPI frame in progress is cut short after `k` bytes of a packet, or whole words of a reply (R322, R323). -/
def State.cutFrame (s : State) (ls : List Lead) (cut : Option Nat) : State :=
  let s := s.transfers .a ls
  match cut with
  | none => s
  | some k => if s.writing .a then (s.lost .a k).satAdd (.hostStat 0) 15 8 1 else if s.sending .a then s.cutReply .a k else s
/-- Both buses stop: a transaction under way can no longer end, and is abandoned at the next tick boundary (R331, R332; DESIGN CHOICE, log
entry 163). -/
def State.sbusCut (s : State) : State :=
  (List.range 8).foldl (fun s k => s.modPoll k fun p => { p with cut := p.cut || p.busy }) s
/-- SUPPLY_CHANGE: the comparators show `sup`; `ls` are the frames at port A since its last event, and `cut` says that the last of them
is inside a packet or a reply (R44, R61, R63, R308, R322, R376). -/
def supplyChange (sup : BitVec 5) (ls : List Lead) (cut : Option Nat) (s : State) : State :=
  let old := s.reg .supStatus
  let new : W32 := sup.setWidth 32 ||| 1
  if new = old ∨ s.pwr.st = .off then s
  else
    let s := ((s.setReg .supStatus new).irqFire 14).wakeLatch 8
    let fell (i : Nat) : Bool := old.getLsbD i && !new.getLsbD i
    let s := if fell 3 then s.vexcLost else s
    let s := if fell 1 then s.vioBLost else s
    let s := if fell 2 then s.sbusCut else s
    if fell 4 && s.bit (.hostCfg 0) 2 then
      let s := (s.setBit (.hostCfg 0) 2 false).setBit (.hostStat 0) 0 true
      if s.portLive .a then s.cutFrame ls cut else s
    else s

/-! ### UART -/

/-- The UART receiver waits for an idle line (R329). -/
def State.waitIdle (s : State) : State := { s with hostIf := { s.hostIf with resync := true } }
/-- UART_GAP_TIMEOUT (R319, R329, R330). -/
def uartGapTimeout (s : State) : State :=
  if s.portLive .b && s.uartB && !s.hostIf.resync && !s.deHigh then (s.satAdd (.hostStat 1) 15 8 1).waitIdle else s
/-- UART_BREAK (R329, R330). -/
def uartBreak (s : State) : State :=
  if s.portLive .b && s.uartB && !s.deHigh then ((s.satAdd (.hostStat 1) 31 24 1).waitIdle).heard .b s.clk.frc else s
/-- UART_RX_RESYNC (R329). -/
def uartRxResync (s : State) : State :=
  if !(s.portLive .b && s.uartB) then s else { s with hostIf := { s.hostIf with resync := false } }

/-! ### CCCs of I3C (R327) -/

/-- Dynamic address; 0 while unassigned. -/
def State.dynAddr (s : State) (p : Port) : Nat := s.fld (.hostAddr (portIx p)) 14 8
/-- A CCC reaches an I3C port, which is enabled once the hub has left BOOT (R318). -/
def State.cccOn (s : State) (p : Port) : Bool := s.portLive p && s.onI3c p && decide (s.proto.dev ≠ .boot)
/-- Store the dynamic address. -/
def State.setDyn (s : State) (p : Port) (a : Nat) : State := s.setFld (.hostAddr (portIx p)) 14 8 a
/-- The port answers a read CCC; a directed CCC needs the dynamic address. -/
def State.cccAnswer (s : State) (p : Port) (bs : List Byte) : State :=
  if s.cccOn p && s.dynAddr p != 0 then
    { s with hostIf := { s.hostIf with ccc := (p, bs) :: s.hostIf.ccc.filter fun x => x.1 != p } }
  else s
/-- ENTDAA: a port without an address takes one. -/
def entdaa (p : Port) (a : Nat) (s : State) : State := if s.cccOn p && s.dynAddr p == 0 then s.setDyn p a else s
/-- SETDASA: a port without an address takes one through its static address. -/
def setdasa (p : Port) (a : Nat) (s : State) : State := if s.cccOn p && s.dynAddr p == 0 then s.setDyn p a else s
/-- SETNEWDA. -/
def setnewda (p : Port) (a : Nat) (s : State) : State := if s.cccOn p && s.dynAddr p != 0 then s.setDyn p a else s
/-- RSTDAA. -/
def rstdaa (p : Port) (s : State) : State := if s.cccOn p then s.setDyn p 0 else s
/-- HOST_PID_LO. -/
def pidLo : W32 := BitVec.ofNat 32 (0x4836 * 65536 + 2 * Sys2Proof.pidInstance.toNat)
/-- HOST_PID_HI. -/
def pidHi : W32 := BitVec.ofNat 32 (2 * Sys2Proof.pidMaker.toNat)
/-- GETPID: the provisioned ID, its most significant byte first, bit 0 set for port B. -/
def getpid (p : Port) (s : State) : State :=
  s.cccAnswer p ((leBytes 6 (pidHi.toNat * 2 ^ 32 + pidLo.toNat + portIx p)).reverse)
/-- GETBCR. -/
def getbcr (p : Port) (s : State) : State := s.cccAnswer p [0x06]
/-- GETDCR. -/
def getdcr (p : Port) (s : State) : State := s.cccAnswer p [0x00]
/-- GETSTATUS: 2 bytes whose content the spec does not give (log entry 48). -/
def getstatus (p : Port) (s : State) : State := let (s, v) := s.draw 16; s.cccAnswer p (leBytes 2 v.toNat)
/-- ENEC: bit 0 enables in-band interrupts. -/
def enec (p : Port) (b : Nat) (s : State) : State :=
  if s.cccOn p && b % 2 == 1 then s.setBit (.irqCtrl (portIx p)) 0 true else s
/-- DISEC: bit 0 disables in-band interrupts. -/
def disec (p : Port) (b : Nat) (s : State) : State :=
  if s.cccOn p && b % 2 == 1 then s.setBit (.irqCtrl (portIx p)) 0 false else s
/-- SETMWL: at most 4,165. -/
def setmwl (p : Port) (n : Nat) (s : State) : State :=
  if !s.cccOn p then s
  else match p with
    | .a => { s with hostIf := { s.hostIf with mwlA := min n 4165 } }
    | .b => { s with hostIf := { s.hostIf with mwlB := min n 4165 } }
/-- GETMWL. -/
def getmwl (p : Port) (s : State) : State :=
  s.cccAnswer p ((leBytes 2 (match p with | .a => s.hostIf.mwlA | .b => s.hostIf.mwlB)).reverse)
/-- SETMRL: at most 65,535. -/
def setmrl (p : Port) (n : Nat) (s : State) : State :=
  if !s.cccOn p then s
  else match p with
    | .a => { s with hostIf := { s.hostIf with mrlA := min n 65535 } }
    | .b => { s with hostIf := { s.hostIf with mrlB := min n 65535 } }
/-- GETMRL, with the 2 bytes of an IBI payload (log entry 49). -/
def getmrl (p : Port) (s : State) : State :=
  s.cccAnswer p ((leBytes 2 (match p with | .a => s.hostIf.mrlA | .b => s.hostIf.mrlB)).reverse ++ [2])

/-! ### Registers -/

/-- Write of HOST_x_CFG: QUAD of port A in SPI mode (R322). -/
def hostCfgWrite (t : Nat) (v : W32) (s : State) : Except Rej State :=
  if t ≠ 0 ∨ s.hostIf.strapA ≠ .gnd then .ok s
  else if v.getLsbD 2 && !s.bit .supStatus 4 then .error (s.conflict 0xfe 0)
  else .ok (s.setBit (.hostCfg 0) 2 (v.getLsbD 2))
/-- Write of HOST_x_ADDR (R325). -/
def hostAddrWrite (t : Nat) (v : W32) (s : State) : State := s.setFld (.hostAddr t) 6 0 (bits v.toNat 6 0)
/-- Write of HOST_x_CTRL (R323, R326): no reply is in progress while no byte of it has been read; the words of a QUEUE_READ reply that had
been read lie behind the 6 bytes of its header; how many had left a UART is not the command's to say (log entry 50). -/
def hostCtrlWrite (t : Nat) (v : W32) (s : State) : State :=
  let p : Port := if t = 0 then .a else .b
  let s := if v.getLsbD 0 then s.setReg (.hostStat t) 0 else s
  if !v.getLsbD 1 then s
  else if p == .b && s.uartB then let (s, k) := s.draw 13; s.cutReply p k.toNat
  else if (s.bus p).pos = 0 then s
  else s.cutReply p (((s.bus p).pos - 6) / 8)
/-- Write of HOST_B_BAUD (R328): the rate is in force once the reply to this write has left. -/
def hostBaudWrite (h : Hdr) (v : W32) (s : State) : Except Rej State :=
  let rate := bits v.toNat 23 0
  if rate < 9600 ∨ 12000000 < rate then .error (.badParam, [])
  else if 3000000 < rate ∧ !s.onPll then .error (s.conflict 0xfe 0)
  else
    let s := s.setFld .hostBBaud 23 0 rate
    match h.src with
    | .port p => .ok { s with hostIf := { s.hostIf with ratePend := s.hostIf.ratePend ++ [(p, h.tag, rate)] } }
    | .link _ _ => .ok { s with hostIf := { s.hostIf with rate := rate } }
/-- Write of HOST_B_UART (R330). -/
def hostUartWrite (v : W32) (s : State) : Except Rej State :=
  if bits v.toNat 31 24 < 2 then .error (.badParam, []) else .ok (s.setReg .hostBUart (v &&& 0xffff0001))

end Sys2Proof.Machine
end

