-- ==== Sys2Proof/Machine/Sbus.lean ====
section
/-! DEFINITION. The sensor bus: schedule, transactions, records (R331 to R335). -/

namespace Sys2Proof.Machine

/-- SKIP of an entry counts (R331, R332). -/
def State.pollSkip (s : State) (k : Nat) : State := s.satAdd (.sbusSpCnt k) 7 0 1
/-- An entry falls due at tick `c` of the schedule (R332). -/
def State.pollFalls (s : State) (c k : Nat) : Bool :=
  let per := s.fld (.sbusSpCfg k) 11 0
  s.bit (.sbusSpCfg k) 31 && per != 0 && (c + per - s.fld (.sbusSpCfg k) 23 12) % per == 0
/-- The schedule's slot at a tick boundary: what is unfinished is marked, what falls due waits for its turn (R26 action 4, R332). -/
def State.sbusTick (s : State) : State :=
  if !s.bit .sbusCfg 31 then s
  else
    let c := s.sbusTicks + 1
    (List.range 8).foldl (fun s k =>
      let due := s.pollFalls c k
      s.modPoll k fun p => { p with due := due, late := p.busy, skip := p.due && !p.busy }) { s with sbusTicks := c }
/-- The transaction that the registers of an entry describe (R333). -/
def State.xferOf (s : State) (k : Nat) : Xfer :=
  let cfg := (s.reg (.sbusSpCfg k)).toNat
  let x := (s.reg (.sbusSpXtr k)).toNat
  let spi := bits cfg 29 29 == 1
  { spi := spi, sel := if spi then bits cfg 28 28 else bits x 6 0, mode := bits cfg 27 26, read := bits x 21 19
    write := ((leBytes 4 (s.reg (.sbusSpWr k)).toNat).reverse).take (bits x 24 22) }
/-- POLL_DUE: the turn of a due entry comes and its transaction begins; without VIO_S it is skipped (R331, R332). -/
def pollDue (k : Nat) (s : State) : State :=
  let first := (List.range 8).find? fun j => (s.poll j).due
  let busy := (List.range 8).any fun j => (s.poll j).busy
  if !s.fabricOn || first != some k then s
  else if !s.bit .supStatus 2 then (s.modPoll k fun p => { p with due := false }).pollSkip k
  else if busy then s
  else s.modPoll k fun p => { p with due := false, busy := true, busyAt := s.clk.mclk, xfer := s.xferOf k, cut := false }
/-- POLL_ABANDON: a transaction unfinished at the tick boundary is abandoned, and the entries not begun are skipped (R332). What waited
for its record goes on (R197, R200). -/
def pollAbandon (k : Nat) (s : State) : State :=
  let skips (s : State) : State := (List.range 8).foldl (fun s j =>
    if (s.poll j).skip then (s.modPoll j fun p => { p with skip := false }).pollSkip j else s) s
  if (s.poll k).late then
    (skips (((s.modPoll k fun p => { p with busy := false, late := false, cut := false }).satAdd (.sbusSpCnt k) 15 8 1).irqFire 19)).engineRun
  else if (s.poll k).skip then skips s
  else s
/-- The value of a reading (R333): the field left-aligned; a field that reaches beyond the bytes read has no stated value
(log entry 51). -/
def State.pollValue (s : State) (k : Nat) (bs : List Byte) : State × W36 :=
  let x := (s.reg (.sbusSpXtr k)).toNat
  let ofs := bits x 18 13
  let wid := bits x 12 7
  let all := if bits x 25 25 = 1 then ofLe bs.reverse else ofLe bs
  let field := all / 2 ^ ofs % 2 ^ wid
  if 8 * bs.length < ofs + wid then s.draw 36
  else (s, if bits x 26 26 = 1 then BitVec.ofNat 36 (field * 2 ^ (36 - wid)) else BitVec.ofNat 36 (field * 2 ^ 35 / 2 ^ wid))
/-- MCLK period whose end is the first edge at or after a time: `pos` TCLK periods on, `lat` of 64 µs back (R197, R334). -/
def State.edgeAfter (s : State) (pos lat : Nat) : Nat := (1000 * pos - lat * 1572864 + (1000 * s.tPerM - 1)) / (1000 * s.tPerM)
/-- POLL_COMPLETE: the transaction ends with bytes `bs`, or fails; the first clock edge of its read phase lies `back` TCLK periods
ago (R333 to R335). The record goes to its queues, the Meld units, detectors and statistics slots (R195, R199, R204). -/
def pollComplete (k back : Nat) (ok : Bool) (bytes : List Byte) (s : State) : State :=
  if !(s.poll k).busy || (s.poll k).late || (s.poll k).cut || !s.fabricOn then s
  else
    let s := s.modPoll k fun p => { p with busy := false }
    let x := (s.reg (.sbusSpXtr k)).toNat
    let crc := bits x 27 27 = 0 ∨ crc8 bytes.dropLast = bytes.getLastD 0
    let good := ok && decide (bytes.length = (s.poll k).xfer.read) && decide crc
    let (s, v) := if good then s.pollValue k bytes else (s, (s.poll k).good)
    let s := if good then s.modPoll k fun p => { p with good := v }
      else ((s.satAdd (.sbusSpCnt k) 31 16 1).setBit .sbusStatus k true).irqFire 18
    let lat := bits x 31 28
    let edge : Int := s.clk.frc - back
    let m := (s.clk.mclk * s.tPerM + s.clk.mclkPh - back) / s.tPerM
    let at_ := s.stampAt edge edge (s.offAt m)
    let tm : Stamp := { at_ with t := (at_.t + 2 ^ 64 - lat * 64000) % 2 ^ 64 }
    let measF := (16 * (edge * 1000 - lat * 1572864) / 1000 : Int)
    let b := s.edgeAfter (s.clk.mclk * s.tPerM + s.clk.mclkPh - back) lat
    let fs := flagIf (!good) flagFLT ||| flagIf tm.clk flagCLK
    let stamp := s.bit (.sbusSpCfg k) 30
    let r : Rec := { source := 48 + k, flags := fs, value := v }
    let period := s.fld (.sbusSpCfg k) 11 0 * s.eng.div
    let u : RUnit := { src := 48 + k, recs := r :: (if stamp then stampPair tm else []), tm := tm, stamped := stamp, period := period }
    let s := s.emit u (s.queuesFor [48 + k])
    let s := s.meldInput (48 + k) { val := v.toInt, flags := fs, tm := tm, frc := (measF + 8) / 16, b := b }
    let j : Job := { source := 48 + k, tick := s.eng.tickAt, b := b, meas := tm, measF := measF, flags := fs, wins := [], prio := false
                     todo := legsOf (s.takers (48 + k)), val := v.toInt, period := period, stampIt := stamp, ripe := true, fin := true, left := true }
    ({ s with eng := { s.eng with jobs := s.eng.jobs ++ [j] } }).engineRun

/-! ### Registers -/

/-- Write of SBUS_CFG (R331, R332): the schedule counts from EN; without EN both buses idle. -/
def sbusCfgWrite (v : W32) (s : State) : Except Rej State :=
  if bits v.toNat 23 16 = 0 ∨ bits v.toNat 9 8 = 3 ∨ bits v.toNat 7 0 < 7 then .error (.badParam, [])
  else
    let was := s.bit .sbusCfg 31
    let s := s.setReg .sbusCfg (v &&& 0x80ff03ff)
    if v.getLsbD 31 && was then .ok s
    else
      let s := { s with sbusTicks := 0 }
      .ok ((List.range 8).foldl (fun s k => s.modPoll k fun p => { good := p.good }) s)
/-- Write of SBUS_SPk_CFG, WR or XTR (R335): only while the entry's EN is 0. -/
def sbusSpWrite (r : Reg) (k : Nat) (v : W32) (s : State) : Except Rej State :=
  let n := v.toNat
  if s.bit (.sbusSpCfg k) 31 then
    match r with
    | .sbusSpCfg _ =>
      if v &&& 0xfcffffff = (s.reg r &&& 0x7cffffff) then .ok (s.setBit r 31 false) else .error (s.conflict 0xfe 0)
    | _ => .error (s.conflict 0xfe 0)
  else
    match r with
    | .sbusSpCfg _ =>
      if v.getLsbD 31 && bits n 11 0 != 0 && decide (bits n 11 0 ≤ bits n 23 12) then .error (.badParam, [])
      else .ok (s.setReg r (v &&& 0xfcffffff))
    | .sbusSpXtr _ =>
      if 4 < bits n 24 22 ∨ bits n 21 19 = 0 ∨ 6 < bits n 21 19 ∨ bits n 12 7 = 0 ∨ 36 < bits n 12 7 then .error (.badParam, [])
      else .ok (s.setReg r v)
    | _ => .ok (s.setReg r v)
/-- Write of SBUS_CTRL (R335). -/
def sbusCtrlWrite (v : W32) (s : State) : State :=
  if v.getLsbD 0 then (List.range 8).foldl (fun s k => s.setReg (.sbusSpCnt k) 0) (s.setReg .sbusStatus 0) else s

end Sys2Proof.Machine
end

