-- ==== Sys2Proof/Machine/Tick.lean ====
section
/-! DEFINITION. The tick boundary: the actions of R26 in their order, then what other rules let take effect there. -/

namespace Sys2Proof.Machine

/-- ENG_CAPACITY shows the capacity for the clock in use (R27, R74). -/
def State.showCapacity (s : State) : State :=
  let c := s.capacity
  (s.setReg .engCapacityLo (BitVec.ofNat 32 c)).setReg .engCapacityHi (BitVec.ofNat 32 (c / 2 ^ 32))
/-- The engine's account of a new tick opens with its overhead as the first item, at the DIV and the PRIO chains now in force (R24, R27 to
R29, R31, R32). -/
def State.openTick (s : State) : State :=
  let j : Job := { source := 101, tick := s.eng.tickAt, b := s.eng.tickAt, todo := [{ st := .overhead }] }
  { s.showCapacity with eng := { s.eng with used := 0, capNow := s.sPerM, div := s.eng.divPend.getD s.eng.div, divPend := none
                                            prioMask := (s.reg .engPrio).toNat, jobs := s.eng.jobs ++ [j] } }
/-- Actions 1 to 6 of a tick boundary (R26); `old`: the start of the ending tick. -/
def State.tickActions (s : State) (old : Nat) : State :=
  let s := s.setReg .sysTickCount (s.reg .sysTickCount + 1)
  let s := s.closeTick old
  let s := (List.range 32).foldl State.statTick s
  let s := s.sbusTick
  let s := (s.beoTick 0).beoTick 1
  (List.range 16).foldl State.qTick s
/-- What takes effect at a boundary by the rules of other chapters: excitation (R100), feedback steps (R121), learns (R134), stops and
starts (R169), zero-tracking periods (R213), routing counts (R238). -/
def State.tickEffects (s : State) (newDiv : Bool) : State :=
  let s := s.applyExc newDiv
  let s := (List.range 4).foldl State.applyRange s
  let s := (List.range 4).foldl State.startLearn s
  let s := ((List.range 24).foldl State.chainBoundary s).backToConfig
  let s := (List.range 16).foldl State.ztTick s
  s.routeTick
/-- The edge of the next tick boundary. -/
def State.tickEdge (s : State) : Nat := s.eng.tickAt + s.eng.div
/-- Something of the first three steps of R173 is still to come at or before an edge. -/
def State.earlierOwed (s : State) (e : Nat) : Bool :=
  s.edgeOwed (fun _ => true) e || (s.advanceTo e).dueSyncs.syncOwed e
/-- TICK_BOUNDARY: the divider expires (R24, R26). Output boundaries, origins and sync edges at or before it come first (R173). -/
def tickBoundary (s : State) : State :=
  if !s.fabricOn || s.earlierOwed s.tickEdge then s
  else
    let old := s.eng.tickAt
    let s := s.advanceTo s.tickEdge
    let s := { s with eng := { s.eng with tickAt := s.clk.mclk, prevTickAt := old } }
    let newDiv := s.eng.divPend.isSome
    ((s.tickActions old).openTick.tickEffects newDiv).engineRun
/-- CHOP_REVERSAL on its edge comes after the outputs, the syncs and the tick boundary of that edge (R173). -/
def chopReversalRun (x : Nat) (s : State) : State :=
  let e := s.reversalAt x
  if (s.drv x).chopEn && (s.earlierOwed e || decide (s.tickEdge ≤ e)) then s else chopReversal x s

end Sys2Proof.Machine
end

