-- ==== Sys2Proof/Machine/Power.lean ====
section
/-! DEFINITION. Power states and Ebb mode (R369 to R382): WAIT, the entry handshake, the commit, wake sources, wake, Ebb cycles. The
handshake is one step: nothing else falls into it but the wake that the event names (log entry 52). -/

namespace Sys2Proof.Machine

/-! ### WAIT -/

/-- Power state of a TARGET value. -/
def targetState (t : Nat) : PwrState :=
  match t with
  | 1 => .doze | 2 => .ebb | 3 => .hold | 4 => .off | _ => .run
/-- A target is legal in the device state (R370). -/
def State.targetLegal (s : State) (t : Nat) : Bool :=
  match s.proto.dev with
  | .config | .run => t != 2
  | .ebb => true
  | _ => false
/-- An enabled wake source acts in a power state (R376). -/
def State.canWake (s : State) (st : PwrState) : Bool := (List.range 9).any fun i => s.bit .pwrWakeEn i && wakeActs st i
/-- WAIT (R370, R296). -/
def waitBody (h : Hdr) (s : State) : Res :=
  let t := s.fld .pwrMode 2 0
  if t = 0 ∨ 4 < t then .no (.badParam, [])
  else if !s.targetLegal t then .no (s.conflict 0xff 0)
  else if t = 1 ∧ s.onPll ∧ !s.portUp 0 ∧ !s.portUp 1 ∧ capacityBroken s (s.setBit .clkStatus 0 false) then .no (.budget, [])
  else if (t = 2 ∨ t = 3) ∧ !s.canWake (targetState t) then .no (.badParam, [])
  else
    .accepted { s with pwr := { s.pwr with entering := true, waitReply := some (h.src, h.tag), target := t, waitAt := s.clk.frc } }
/-- The last byte of the ACCEPTED reply has left: at a host port by its event; over the link with the last of its RPL frames, behind which
no other waits for its node (R371; log entry 169). -/
def State.replyGone (s : State) : Bool :=
  match s.pwr.waitReply with
  | none => true
  | some (.port _, _) => false
  | some (.link n _, _) => (List.range 2).all fun p => (s.lport p).tx.all fun x => x.2.1.isSome || x.2.2.type != 0x02 || x.2.2.dest != n
/-- PWR_STATUS: ENTERING once the ACCEPTED reply has left. -/
def State.pwrStatusWord (s : State) : W32 :=
  let entering := s.pwr.entering && s.replyGone && s.pwr.st == .run
  BitVec.ofNat 32 (pwrCode s.pwr.st + 8 * entering.toNat)

/-! ### The entry -/

/-- A written excitation register is not in force yet (R100). -/
def State.excPending (s : State) : Bool :=
  (List.range 4).any (fun x =>
    let d := s.drv x
    d.restart || s.bit (.excCtrl x) 0 != d.en || s.bit (.excCtrl x) 8 != d.wire6 || s.bit (.excCtrl x) 9 != d.senseOnly ||
    s.fld (.excCtrl x) 15 12 != d.hicMax || s.fld (.excCtrl x) 11 10 != d.rampSel || s.fld (.excLevel x) 13 0 != d.level ||
    s.bit (.excChop x) 31 != d.chopEn || s.fld (.excChop x) 22 0 != d.half || s.fld (.excChop x) 30 23 != d.blank) ||
  (List.range 8).any fun n =>
    let d := s.isrc n
    d.restart || s.bit (.isrcCfg n) 15 != d.en || s.bit (.isrcPair (n / 2)) 0 != d.swapEn ||
    s.fld (.isrcPair (n / 2)) 2 1 != d.swapGen || s.fld (.isrcCfg n) 13 8 != d.port || s.fld (.isrcCfg n) 7 0 != d.code
/-- Whether the block of an ID agrees to a target (R372). -/
def State.agrees (s : State) (o : EntryObs) (t id : Nat) : Bool :=
  let deep := decide (t ≠ 1)
  match id with
  | 0x0b => !deep || !s.bit .beoLoopCfg 31
  | 0x07 => !deep || (List.range 16).all fun u => !(s.muOn u && s.muType u == 7 && !(s.meld u).ctxs.isEmpty)
  | 0x02 => decide (t = 2) || !(s.eng.jobs.any fun j => decide (j.tick < s.eng.tickAt) && !j.todo.isEmpty)
  | 0x0a => (List.range 8).all fun k => !(s.poll k).busy
  | 0x08 => !deep || !((List.range 4).any (fun x => (s.drv x).ramp || (s.drv x).hiccup) || s.excPending)
  | 0x03 => !deep || (!o.moverBusy && s.weir.mv0.isEmpty)
  | 0x06 =>
    if deep then (List.range 2).all fun p =>
      !s.portUp p || (decide ((s.lport p).credits = 16) && (s.lport p).tx.all fun x => x.2.1.isSome)
    else !o.linkBusy
  | 0x04 => !o.portABusy && (s.firstReply .a).isNone
  | 0x05 => !o.portBBusy && (s.firstReply .b).isNone
  | 0x09 => s.proto.longs.isEmpty && s.proto.held.isEmpty
  | _ => true
/-- Block IDs in the order of the entry handshake (R372). -/
def entryOrder : List Nat := [0x0b, 0x07, 0x01, 0x02, 0x0a, 0x08, 0x03, 0x06, 0x04, 0x05, 0x09]
/-- PWR_LAST_ENTRY of an entry that ends or commits. -/
def State.lastEntry (s : State) (result reason who : Nat) : State :=
  s.setReg .pwrLastEntry (BitVec.ofNat 32 (who * 65536 + reason * 256 + s.pwr.target * 16 + result))
/-- An entry ends without the target: the hub goes on, and source 12 fires (R373, R374). -/
def State.entryEnds (s : State) (result reason who : Nat) : State :=
  let s := (s.lastEntry result reason who).irqFire 12
  { s with pwr := { s.pwr with entering := false, waitReply := none } }
/-- A refusal counts and names its block (R371, R373). -/
def State.entryRefused (s : State) (reason who : Nat) : State :=
  ((s.satAdd .pwrRefuseCount 31 0 1).setReg .pwrRefuser (BitVec.ofNat 32 who)).entryEnds 2 reason who
/-- ENTRY_REPLY_TIMEOUT: the ACCEPTED reply has not left within REPLY_TMO ms (R371). -/
def entryReplyTimeout (s : State) : State :=
  if !s.pwr.entering || s.replyGone || decide (s.clk.frc < s.pwr.waitAt + s.fld .pwrCfg 7 0 * msT) then s
  else
    match s.pwr.waitReply with
    | some (.port p, _) => s.entryRefused 5 (4 + portIx p)
    | _ => s.entryRefused 5 6

/-! ### The commit -/

/-- MV0 stores what waits. -/
def State.drainMv0 (s : State) : State := (List.range (2 * s.weir.mv0.length)).foldl (fun s _ => unitStore s) s
/-- Every open packet closes and commits (R375). -/
def State.closeAll (s : State) : State :=
  (List.range 16).foldl (fun s q => if s.qOn q then (s.closeReq q).commit q else s) s.drainMv0
/-- The PLL and, unless it is kept, the reference stop; SYSCLK is on HFRC (R73, R375). -/
def State.clocksDown (s : State) (keepRef : Bool) : State :=
  let s := s.toEdge.toHfrc.stopPll
  let s := { s with clk := { s.clk with op := none } }
  if keepRef then s.stopRef else { s.setBit .clkStatus 1 false with clk := { s.clk with xin := false } }
/-- Both link ports go off (R375, R338). -/
def State.linkOff (s : State) : State := (s.portDown 0).portDown 1
/-- The EVT pins go inactive and events in the fabric are lost (R240, R241). -/
def State.fabricDown (s : State) : State := s.modRoute fun r => { r with evtOut := 0, evtRun := 0, pend := [] }
/-- Drivers and sources stop driving, and learns under way fail (R134); what was ON. -/
def State.excStop (s : State) : State × Nat :=
  let ds := (List.range 4).filter fun x => (s.drv x).on
  let cs := (List.range 8).filter fun n => (s.isrc n).on
  let s := ds.foldl (fun s x => (s.modDrv x fun d => { d with on := false }).spoilLearn x) s
  let s := cs.foldl (fun s n => s.modIsrc n fun d => { d with on := false }) s
  (s, (ds.map fun x => 2 ^ x).sum + (cs.map fun n => 2 ^ (4 + n)).sum)
/-- Generators take normal polarity and stand still there (R108). -/
def State.chopRest (s : State) : State :=
  (List.range 4).foldl (fun s x => if (s.drv x).chopEn then s.setPol x false 0 else s) s
/-- Every chain goes to IDLE; its output in progress and the engine's work are discarded (R375). -/
def State.chainsOff (s : State) : State :=
  let s := (List.range 24).foldl (fun s n => (s.chainIdle n).modCh n fun c => { c with startPend := false, stopPend := false }) s
  { s with eng := { s.eng with jobs := [] } }
/-- Drivers and sources switch off; the registers of those that were ON come into force again after the wake. What hardware had switched
off already stays off until its EN is written to 0 and then to 1 (R63, R99, R136, R149, R375; log entry 53). -/
def State.excOff (s : State) : State :=
  let (t, on) := s.excStop
  let t := (List.range 4).foldl (fun t x =>
    if on / 2 ^ x % 2 = 1 then t.modDrv x fun d => { d with en := false, ramp := false, limit := false } else t) t
  (List.range 8).foldl (fun t n => if on / 2 ^ (4 + n) % 2 = 1 then t.modIsrc n fun d => { d with en := false } else t) t
/-- The deep states have nothing running but the AO domain. -/
def State.sleep (s : State) (st : PwrState) : State :=
  { s with pwr := { s.pwr with st := st, lfAt := s.clk.lf }, hostIf := { s.hostIf with ratePend := [], sentB := none } }
/-- The sensor bus stops: polls that have fallen due and not begun are skipped (R331). -/
def State.sbusOff (s : State) : State :=
  (List.range 8).foldl (fun s k => if (s.poll k).due then (s.modPoll k fun p => { p with due := false }).pollSkip k else s) s
/-- An emulator output goes off with the hub's power state, and is driven again, with CODE 0 until the next tick boundary, at the wake: its
EN keeps reading 1 (R375, R379, R401; DESIGN CHOICE, log entry 164). -/
def Beo.sleep (b : Beo) : Beo := { b with on := false, slept := b.on }
/-- The output is driven again at the wake. -/
def Beo.wake (b : Beo) : Beo := if b.slept then { b with on := true, slept := false, code := 0 } else b
/-- What HOLD and OFF switch off (R375). -/
def State.deepOff (s : State) : State :=
  let s := (s.linkOff.chainsOff).closeAll.fabricDown.sbusOff
  { s with beo0 := s.beo0.sleep, beo1 := s.beo1.sleep }
/-- OFF keeps nothing: the AO domain loses its copies and counters (R380). -/
def State.aoLost (s : State) : State :=
  let s := (s.dropCopies.setReg .aoBorCount 0).setReg .aoWdtCount 0
  { s with clk := { s.clk with lf := 0, lfAcc := 0 } }
/-- The commit (R374, R375). -/
def State.entryCommit (s : State) : State :=
  let s := s.lastEntry 0 0 0
  let s := { s with pwr := { s.pwr with commitLf := s.clk.lf } }
  match targetState s.pwr.target with
  | .doze =>
    let s := if s.portUp 0 || s.portUp 1 then s else s.clocksDown true
    { s with pwr := { s.pwr with st := .doze } }
  | .ebb =>
    let s := ((s.linkOff.drainMv0).fabricDown).sbusOff.clocksDown false
    let (s, on) := s.chopRest.excStop
    { s with ebb := { s.ebb with pulsed := on, cycling := false, convAt := none, wakeAfter := none, next := s.clk.lf + s.fld .ebbCfg 20 0 } }.sleep .ebb
  | .hold =>
    let s := s.deepOff.clocksDown true
    (if s.bit .pwrMode 4 then s else s.excOff).sleep .hold
  | .off => (((s.deepOff.clocksDown false).excOff).sleep .off).aoLost
  | .run => s
/-- Wake sources that can fire in RUN, during the ask: WAKE_N, the host ports, the link, SUP_STATUS. The "Ebb wake" consumer is ignored in
RUN, the others belong to EBB or count from the commit (R236, R376). -/
def askWakes : List Nat := [0, 2, 3, 4, 8]
/-- POWER_ENTRY: pending wakes, the ask, the commit (R371 to R375). -/
def powerEntry (o : EntryObs) (s : State) : State :=
  if !s.pwr.entering || !s.replyGone || s.pwr.st != .run then s
  else
    let t := s.pwr.target
    let enabled (i : Nat) : Bool := s.bit .pwrWakeEn i || (decide (t = 1) && (i == 2 || i == 3))
    match (List.range 9).find? fun i => s.bit .pwrWakePend i && s.bit .pwrWakeEn i with
    | some i => s.entryEnds 1 3 (0x10 + i)
    | none =>
      let wake := o.wake.filter fun w => decide (0x10 ≤ w.1) && enabled (w.1 - 0x10) && askWakes.contains (w.1 - 0x10) && s.wakePad (w.1 - 0x10)
      match wake, entryOrder.find? fun id => !s.agrees o t id with
      | some (w, false), _ => s.entryEnds 1 1 w
      | _, some id => s.entryRefused 4 id
      | some (w, true), none => s.entryEnds 1 2 w
      | none, none => s.entryCommit

/-! ### Wake -/

/-- AO_LFCOUNT reaches a count: while they are clocked, TCLK and MCLK run along (R67, R69, R378). -/
def State.lfTo (s : State) (n : Nat) : State :=
  if n ≤ s.clk.lf then s
  else if s.clocked then s.run (ceilDiv ((n - s.clk.lf) * (if s.onPll then 24576000 else 24000000) - s.clk.lfAcc) 32768)
  else { s with clk := { s.clk with lf := n } }
/-- TCLK restarts: FRC catches up (R378). -/
def State.frcCatchUp (s : State) : State :=
  { s with clk := { s.clk with frc := (s.clk.frc + 750 * (s.clk.lf - s.pwr.lfAt)) % 2 ^ 64 }, pwr := { s.pwr with lfAt := s.clk.lf } }
/-- Bank of a window address (R19). -/
def bankOf (a : Nat) : Nat := (a - 0x10000000) / 0x40000
/-- Banks that were not retained lose their contents; queues with a block there are disabled; a patch in B01 is gone (R279, R379). -/
def State.loseBanks (s : State) : State :=
  let kept (b : Nat) : Bool := s.bit .pwrBankRet b
  let lost := (List.range 16).foldl (fun m b => if kept b then m else m + 2 ^ b) 0
  let s := { s with sram := s.sram.filter fun c => kept (bankOf c.1) }
  let s := s.setReg .pwrBankLost (BitVec.ofNat 32 lost)
  let s := if lost = 0 then s else s.setBit .bootStatus 0 false
  let s := (List.range 16).foldl (fun s q => if s.qOn q && (s.qBlocks q).any (fun b => !kept (b / 64)) then s.queueOff q else s) s
  if kept 1 then s else { s with sl := { s.sl with active := false, patchId := 0, codeCrc := 0 } }
/-- What takes its reset value at a wake from HOLD (R256, R370, R379). -/
def State.holdReset (s : State) : State :=
  let s := s.irqReset
  let s := (List.range 64).foldl (fun s cc => s.setFld (.routeStat cc) 15 0 0) s
  let s := (List.range 16).foldl (fun s u => s.modMeld u fun m => m.cleared (s.muOn u && s.gateSignal u)) s
  let s := s.setReg .statEna 0
  let s := { s with stats := [], dets := [], route := { gp := s.route.gp, evtIn := s.route.evtIn }, ebb := {}
                    proto := { s.proto with dev := .config } }
  s
/-- The firing counts of the fabric restart (R240). -/
def State.routeRestart (s : State) : State :=
  ((List.range 64).foldl (fun s cc => s.setFld (.routeStat cc) 7 0 0) s).modRoute fun r => { r with said := [] }
/-- Pulsed drivers and sources switch on: with a level step, in normal polarity (R108, R382). A unit that hardware switched off is pulsed no
more (R63, R136, R149). -/
def State.pulseOn (s : State) : State :=
  let m := s.ebb.pulsed
  let s := (List.range 4).foldl (fun s x =>
    if m / 2 ^ x % 2 = 1 then s.modDrv x fun d => { d with on := true, stepAt := some s.clk.mclk } else s) s
  (List.range 8).foldl (fun s n => if m / 2 ^ (4 + n) % 2 = 1 then s.modIsrc n fun d => { d with on := true } else s) s
/-- Pulsed drivers and sources drive again, which is an excitation change; generators go on from normal polarity and count their phase from
the MCLK edge of the wake (R104, R382; DESIGN CHOICE, log entries 112 and 170). -/
def State.excResume (s : State) : State :=
  let m := s.ebb.pulsed
  let s := s.pulseOn
  let s := (List.range 4).foldl (fun s x => if m / 2 ^ x % 2 = 1 then (s.excChange x).driverOn x else s) s
  { s.chopRest with ebb := { s.ebb with pulsed := 0, cycling := false, convAt := none, wakeAfter := none } }
/-- A wake begins: clocks and supplies come back (R377 to R379). -/
def State.wakeBegin (s : State) (id : Nat) : State :=
  let s := { s with pwr := { s.pwr with waking := some id } }
  let s := { (s.setBit .regCtrl 0 false).setBit .regStatus 0 false with clk := { s.clk with probe := false } }
  match s.pwr.st with
  | .ebb => (((if s.ebb.cycling then s else s.frcCatchUp).loseBanks.routeRestart).excResume).restartLease
  | .hold =>
    let s := ((s.frcCatchUp.loseBanks).holdReset).restartLease
    { s with beo0 := s.beo0.wake, beo1 := s.beo1.wake }
  | .doze => s.setReg .pwrBankLost 0
  | .run | .off => s
/-- WAKE: a source of ID 0x10 to 0x18 fires; during an Ebb cycle it waits for the cycle's end (R374, R376, R377, R382). -/
def wake (id : Nat) (s : State) : State :=
  let i := id - 0x10
  if id < 0x10 ∨ s.pwr.waking.isSome ∨ s.wakeable i = false then s
  else
    let s := s.wakeLatch i
    if s.pwr.st = .ebb ∧ s.ebb.cycling then { s with ebb := { s.ebb with wakeAfter := some (s.ebb.wakeAfter.getD id) } }
    else s.wakeBegin id
/-- WAKE_READY: the first command can execute; a wake from EBB to DOZE counts as the commit of that DOZE (R377, R382; log entry 171). -/
def wakeReady (s : State) : State :=
  match s.pwr.waking with
  | none => s
  | some id =>
    let s := s.setFld .pwrLastEntry 31 24 id
    let s := s.setReg .pwrSlept (BitVec.ofNat 32 (min (2 ^ 32 - 1) (s.clk.lf - s.pwr.commitLf)))
    let doze := s.pwr.st == .ebb && id == 0x16 && s.bit .ebbCfg 29
    let lf := if doze then s.clk.lf else s.pwr.commitLf
    { s with pwr := { s.pwr with st := if doze then .doze else .run, entering := doze, waking := none, commitLf := lf } }.irqFire 12
/-- WAKE_TIMER: PWR_TIMER LFCLK periods after the commit (R376). -/
def wakeTimer (s : State) : State :=
  let n := s.fld .pwrTimer 23 0
  if n = 0 ∨ (s.pwr.st ≠ .doze ∧ s.pwr.st ≠ .hold) then s else (s.lfTo (s.pwr.commitLf + n)).wakeLatch 5
/-- DOZE_SERVICE: the sequencer runs briefly and serves a source targeted at it (R253, R375); frames it serves come as their own
commands. -/
def dozeService (s : State) : State := if s.pwr.st = .doze then seqIrqService 0 s else s

/-! ### Ebb -/

/-- EBB_ARM (R381). -/
def ebbArmBody (m : Nat) (s : State) : Res :=
  let ns := maskChains m
  let period := s.fld .ebbCfg 20 0
  let lq : Nat := s.fld .ebbCfg 27 24
  let log : Nat := s.fld .ebbCfg 31 30
  let windows := (List.range 8).any fun k => decide ((s.reg (.ebbWhi k)).toInt < (s.reg (.ebbWlo k)).toInt)
  let ranges := decide (period < 33 ∨ 1966080 < period ∨ s.fld .ebbPulse 27 16 = 0 ∨ s.fld .ebbPulse 10 0 < 8 ∨ 1024 < s.fld .ebbPulse 10 0)
  let bad := !(ns.all fun n => s.portsOk m n && s.refOk n) || ranges || windows ||
    (decide (log ≠ 0) && (!s.qOn lq || (s.qBlocks lq).any fun b => !s.bit .pwrBankRet (b / 64)))
  if ns.isEmpty ∨ 8 < ns.length ∨ bad = true then .no (.badParam, [])
  else
    .ok { (s.setReg .ebbCycles 0).setReg .ebbStatus 0 with ebb := { mask := m }, proto := { s.proto with dev := .ebb } } []
/-- EBB_DISARM (R382). -/
def ebbDisarmBody (s : State) : Res := .ok { s with ebb := {}, proto := { s.proto with dev := .config } } []
/-- EBB_CYCLE: HFRC starts, FRC catches up, the pulsed drivers and sources switch on (R382 steps 1 and 2). -/
def ebbCycle (s : State) : State :=
  if s.pwr.st ≠ .ebb ∨ s.ebb.cycling = true ∨ s.pwr.waking.isSome then s
  else
    let s := (s.lfTo s.ebb.next).frcCatchUp.pulseOn
    { s with ebb := { s.ebb with cycling := true, convAt := none, next := s.clk.lf + s.fld .ebbCfg 20 0 } }
/-- EBB_SETTLE_END: every named chain starts on one MCLK edge (R382 step 3). -/
def ebbSettleEnd (s : State) : State :=
  if s.pwr.st ≠ .ebb ∨ s.ebb.cycling = false ∨ s.ebb.convAt.isSome then s
  else
    let s := (s.lfTo (s.pwr.lfAt + s.fld .ebbPulse 27 16)).toEdge
    { s with ebb := { s.ebb with convAt := some s.clk.mclk } }
/-- The CIC ratio of a conversion, N = 4 and decimation DEC, from its 4 × DEC − 3 modulator outputs (R152, R382 step 4). -/
def ebbValue (dec : Nat) (xs : List Int) : Int :=
  let run := xs.foldl (fun (a : List Int × List Int × Nat × Int) x =>
    let integ := integrate a.1 (x * cicUnit)
    if (a.2.2.1 + 1) % dec = 0 then
      let (c, o) := combs a.2.1 (integ.getLastD 0)
      (integ, c, a.2.2.1 + 1, o)
    else (integ, a.2.1, a.2.2.1 + 1, a.2.2.2)) ([0, 0, 0, 0], [0, 0, 0, 0], 3, 0)
  cicValue run.2.2.2 dec 4
/-- Faults that run in EBB (R146). -/
def ebbMonitor : FaultKind → Bool
  | .low _ | .high _ | .fsp _ | .fsn _ | .sat _ | .comp _ => true
  | .ref _ | .cm _ => false
/-- The HFRC stops until the next cycle, or the hub wakes (R382 step 7). -/
def State.ebbSleep (s : State) : State :=
  { s with ebb := { s.ebb with cycling := false, convAt := none, wakeAfter := none }, pwr := { s.pwr with lfAt := s.clk.lf } }
/-- The unit of a fault found in an Ebb cycle: its event record and stamp pair (R143, R146). -/
def faultUnit (f : FaultIv × Stamp) : RUnit := eventUnit f.1.code f.2
/-- Faults of an Ebb cycle: their intervals, sticky bits and interrupt source; their records go to the log alone (R143, R146). -/
def State.ebbFaults (s : State) (fs : List Detection) : State × List (FaultIv × Stamp) :=
  let (s, ivs) := s.detect (fs.filter fun d => ebbMonitor d.kind && s.judged d)
  let ivs := ivs.foldl (fun l f => insertFault f l) []
  (ivs.foldl (fun s _ => s.irqFire 4) (s.setFaults (s.mon.faults ++ ivs.map (·.1))), ivs)
/-- Conditions qualify as faults during an Ebb cycle, each after its detection time (R132, R146). -/
def State.ebbDetect (s : State) (fs : List Detection) : State × List (FaultIv × Stamp) :=
  (fs.foldl (fun s d => s.advanceTo (d.tM + s.qualTime d.kind)) s).ebbFaults fs
/-- A fault affects a chain over MCLK periods from `a` up to `b` (R141, R142, R148). -/
def State.faultyOver (s : State) (n a b : Nat) : Bool := s.mon.faults.any fun f => ivHit (f.t0, f.t1) a b && s.inScope f.scope n
/-- A result of an Ebb cycle: chain, its place among the named chains, value, flags, and whether its conversion ended. -/
structure EbbRow where
  n : Nat
  k : Nat
  val : Int
  flags : BitVec 6
  full : Bool
/-- The results of a cycle that ends now: CLK, OVR where the comparator flagged, FLT where the window meets a fault of the chain (R126,
R142, R146, R148, R382 step 4). -/
def State.ebbRows (s : State) (rs : List (List Int × Bool)) : List EbbRow :=
  let dec := s.fld .ebbPulse 10 0
  let a := s.ebb.convAt.elim s.clk.mclk (· + 128)
  (maskChains s.ebb.mask).zipIdx.map fun (n, k) =>
    let x := (rs[k]?).getD ([], false)
    let flt := s.faultyOver n (min a s.clk.mclk) (s.clk.mclk + 1)
    { n := n, k := k, val := ebbValue dec x.1, flags := flagCLK ||| flagIf x.2 flagOVR ||| flagIf flt flagFLT
      full := decide (x.1.length = 4 * dec - 3) }
/-- A result is outside (R382 step 5); where a fault has cut the cycle short, FLT alone counts. -/
def State.ebbOutside (s : State) (r : EbbRow) : Bool :=
  let top := r.val / 16
  decide (r.flags &&& flagFLT ≠ 0) || (r.full && (decide (r.flags &&& flagOVR ≠ 0) ||
    decide (top < (s.reg (.ebbWlo r.k)).toInt) || decide ((s.reg (.ebbWhi r.k)).toInt < top)))
/-- EBB_RESULT: the conversions end, or a fault ends the cycle: each named chain has its modulator outputs and whether its
comparator flagged one; `fs` are the conditions that the monitors qualified (R146, R382 steps 4 to 7). -/
def ebbResult (rs : List (List Int × Bool)) (fs : List Detection) (s : State) : State :=
  let found := s.ebbDetect fs
  if s.pwr.st ≠ .ebb ∨ s.ebb.cycling = false ∨ (s.ebb.convAt.isNone ∧ found.2 = []) then s
  else
    let dec := s.fld .ebbPulse 10 0
    let ivs := found.2
    let s := found.1
    let s := match s.ebb.convAt with
      | some m => if ivs = [] then s.advanceTo (m + 4 * dec + 125) else s
      | none => s
    let rows := s.ebbRows rs
    let s := s.excStop.1
    let s := (rows.filter fun r => decide (r.flags &&& flagOVR ≠ 0)).foldl (fun s r => s.ovlRise r.n) s
    let out : Nat := ((rows.filter s.ebbOutside).map fun r => 2 ^ r.k).sum
    let any : Bool := decide (out ≠ 0) || !ivs.isEmpty
    let s := (s.setReg .ebbStatus (BitVec.ofNat 32 out)).satAdd .ebbCycles 31 0 1
    let meas := s.stampAt s.clk.frc ((s.clk.frc : Int) - ((3 + 2 * (dec - 1)) * s.tPerM : Nat)) true
    let units : List RUnit := s.ebb.notes ++ ivs.map faultUnit ++ (rows.filter (·.full)).map fun r =>
      { src := r.n, recs := [{ source := r.n, flags := r.flags, value := BitVec.ofInt 36 r.val }], tm := meas, period := dec }
    let log : Nat := s.fld .ebbCfg 31 30
    let lq : Nat := s.fld .ebbCfg 27 24
    let s := if (log == 1 || (log == 2 && any)) && s.qOn lq && !units.isEmpty then (s.storePacket 6 lq units).commit lq else s
    let s := { s with ebb := { s.ebb with notes := [] } }
    let pending := s.ebb.wakeAfter
    let s := if any then (s.irqFire 13).wakeLatch 6 else s
    let id := match pending with
      | some w => some w
      | none => if any && s.wakeable 6 then some 0x16 else none
    match id with
    | some w => s.wakeBegin w
    | none => s.ebbSleep

/-! ### Registers -/

/-- Write of PWR_MODE. -/
def pwrModeWrite (v : W32) (s : State) : State := s.setReg .pwrMode (v &&& 0x17)
/-- Write of PWR_WAKE_CLR (R374). -/
def pwrWakeClrWrite (v : W32) (s : State) : State := s.setReg .pwrWakePend (s.reg .pwrWakePend &&& ~~~ v)
/-- Write of PWR_CFG (R371). -/
def pwrCfgWrite (v : W32) (s : State) : Except Rej State :=
  if bits v.toNat 7 0 = 0 then .error (.badParam, []) else .ok (s.setReg .pwrCfg (v &&& 0xff))
/-- Write of EBB_CFG, EBB_PULSE or a window: only in CONFIG. -/
def ebbRegWrite (r : Reg) (mask v : W32) (s : State) : Except Rej State :=
  if s.proto.dev ≠ .config then .error (s.conflict 0xff 0)
  else if r = .ebbCfg ∧ bits v.toNat 31 30 = 3 then .error (.badParam, [])
  else .ok (s.setReg r (v &&& mask))

end Sys2Proof.Machine
end

