-- ==== Sys2Proof/Machine/RegRead.lean ====
section
/-! DEFINITION. What each register shows when it is read, and what a read does: captures, claims and the advance of the two
selectors (R5, R7, R8, R160, R184, R203, R226, R248, R310, R312, R359). Fields that follow no rule of the spec in this model (a
current limit at this moment, a common mode, a busy fraction) read as free values (log entry 1). -/

namespace Sys2Proof.Machine

/-! ### Pairs -/

/-- The HI register of a LO register of a 36-bit pair (R8). -/
def hiOf : Reg → Option Reg
  | .engCapacityLo => some .engCapacityHi
  | .sluCoefLo => some .sluCoefHi
  | .sclZeroLo n => some (.sclZeroHi n) | .sclSpanLo n => some (.sclSpanHi n) | .sclAztLo n => some (.sclAztHi n)
  | .linNtcALo k => some (.linNtcAHi k) | .linNtcBLo k => some (.linNtcBHi k) | .linNtcCLo k => some (.linNtcCHi k)
  | .dsOfsLo d => some (.dsOfsHi d)
  | .statMinLo i => some (.statMinHi i) | .statMaxLo i => some (.statMaxHi i)
  | .statMeanLo i => some (.statMeanHi i) | .statVarLo i => some (.statVarHi i)
  | .meldALo u => some (.meldAHi u) | .meldBLo u => some (.meldBHi u) | .meldResLo u => some (.meldResHi u)
  | .beoOfsLo k => some (.beoOfsHi k)
  | .beoLoopSpLo => some .beoLoopSpHi | .beoLoopIlimLo => some .beoLoopIlimHi | .beoLoopUofsLo => some .beoLoopUofsHi
  | .beoLoopILo => some .beoLoopIHi
  | _ => none
/-- The LO register of a HI register of a 36-bit pair (R8). -/
def loOf : Reg → Option Reg
  | .engCapacityHi => some .engCapacityLo
  | .sluCoefHi => some .sluCoefLo
  | .sclZeroHi n => some (.sclZeroLo n) | .sclSpanHi n => some (.sclSpanLo n) | .sclAztHi n => some (.sclAztLo n)
  | .linNtcAHi k => some (.linNtcALo k) | .linNtcBHi k => some (.linNtcBLo k) | .linNtcCHi k => some (.linNtcCLo k)
  | .dsOfsHi d => some (.dsOfsLo d)
  | .statMinHi i => some (.statMinLo i) | .statMaxHi i => some (.statMaxLo i)
  | .statMeanHi i => some (.statMeanLo i) | .statVarHi i => some (.statVarLo i)
  | .meldAHi u => some (.meldALo u) | .meldBHi u => some (.meldBLo u) | .meldResHi u => some (.meldResLo u)
  | .beoOfsHi k => some (.beoOfsLo k)
  | .beoLoopSpHi => some .beoLoopSpLo | .beoLoopIlimHi => some .beoLoopIlimLo | .beoLoopUofsHi => some .beoLoopUofsLo
  | .beoLoopIHi => some .beoLoopILo
  | _ => none
/-- A source's slot for another content, or empty (R310). -/
def putSlot (slots : List (Src × Nat × W32)) (src : Src) (x : Option (Nat × W32)) : List (Src × Nat × W32) :=
  (slots.filter fun y => decide (y.1 ≠ src)) ++ (match x with | some (a, v) => [(src, a, v)] | none => [])
/-- What a source's slot holds for a register. -/
def slotOf (slots : List (Src × Nat × W32)) (src : Src) (r : Reg) : Option W32 :=
  (slots.find? fun y => decide (y.1 = src) && y.2.1 == r.addr).map (·.2.2)
/-- The shadow slot of a source takes a content or is emptied (R310). -/
def State.setShadow (s : State) (src : Src) (x : Option (Nat × W32)) : State :=
  { s with proto := { s.proto with shadow := putSlot s.proto.shadow src x } }
/-- The staging slot of a source takes a content or is emptied (R310). -/
def State.setStaging (s : State) (src : Src) (x : Option (Nat × W32)) : State :=
  { s with proto := { s.proto with staging := putSlot s.proto.staging src x } }

/-! ### What a register shows -/

/-- Items of an ended tick are still in the engine (ENG_STATUS.SPILL). -/
def State.spill (s : State) : Bool := s.eng.jobs.any fun j => decide (j.tick < s.eng.tickAt) && !j.todo.isEmpty
/-- The word of a register that draws on no free value and that a pair's shadow does not replace; |V_REFX| is `refx` mV (R400). -/
def State.readWord (s : State) (src : Src) (r : Reg) (refx : Nat := 0) : W32 :=
  match r with
  | .engStatus => putBits (s.reg r) 1 1 s.spill.toNat
  | .engLoadPred => BitVec.ofNat 32 (loadFrac s.loadP s.capacity)
  | .aoStatus => s.aoStatusWord
  | .aoLfcountLo => BitVec.ofNat 32 s.clk.lf
  | .aoLfcountHi => s.captured src r (BitVec.ofNat 32 (s.clk.lf / 2 ^ 32))
  | .aoCopyA k => aoWord s.clk.copyA k
  | .aoCopyB k => aoWord s.clk.copyB k
  | .excStatus x => s.excStatus x false
  | .isrcStatus => s.isrcStatusWord
  | .monExcStatus x => s.monExcStatusWord x
  | .sluState n => s.sluStateWord n
  | .sluCoefLo => loWord s.coefPort
  | .sluCoefHi => hiWord s.coefPort
  | .dsSlot => s.dsSlotWord
  | .dsStat _ => s.dsMisses.reg r
  | .dsWt => BitVec.ofInt 32 s.dsCur.w
  | .statCnt i => (s.stat i).pub.cntWord
  | .statNex i | .statMinLo i | .statMinHi i | .statMaxLo i | .statMaxHi i | .statMeanLo i | .statMeanHi i
  | .statVarLo i | .statVarHi i | .statTlo i | .statThi i | .statSeq i => s.statRead src i r
  | .meldStatus u | .meldResHi u | .meldRcnt u | .meldRtLo u | .meldRtHi u => s.meldRead src u r
  | .meldResLo u => loWord (s.meld u).res
  | .meldState => s.meldStateWord
  | .meldStky => s.meldStkyWord
  | .routeGlevel => s.glevelWord
  | .irqPend t w => wordOf s.irq.pend w &&& s.viewBits t w
  | .irqMask t w => wordOf s.irq.mask w &&& s.viewBits t w
  | .irqInsv t w => wordOf s.irq.insv w &&& s.viewBits t w
  | .irqClaim t => s.claimWord t
  | .irqLevel t => s.levelWord t
  | .weirStatus q => s.weirStatusWord q
  | .weirW q => BitVec.ofNat 32 (s.queue q).w
  | .weirC q => BitVec.ofNat 32 (s.queue q).c
  | .weirR q => BitVec.ofNat 32 (s.queue q).r
  | .weirM q => BitVec.ofNat 32 (s.queue q).m
  | .weirF q => BitVec.ofNat 32 (s.queue q).f
  | .weirDrop q => BitVec.ofNat 32 (s.queue q).drop
  | .weirLevel q => BitVec.ofNat 32 ((s.queue q).c - (s.queue q).r)
  | .regionAddr e => s.regionAddrWord e
  | .regionAttr e => s.regionAttrWord e
  | .hostPidLo => pidLo
  | .hostPidHi => pidHi
  | .semStatus | .semCfg | .devState | .cmdInflight => cmdRegRead r s
  | .linkStatus => s.linkStatusWord
  | .linkPStat p => s.linkStatWord p
  | .timeOfsF | .timeOfsLo | .timeOfsHi | .timeRate | .timeNowLo | .timeNowHi | .timeFrcLo | .timeFrcHi | .timeRateI => s.timeReg src r
  | .pwrStatus => s.pwrStatusWord
  | .sealStatus => s.sealStatusWord
  | .auditStatus => s.auditStatusWord
  | .swidRom => Sys2Proof.romVersion
  | .swidPatch => BitVec.ofNat 32 s.patchIdNow
  | .swidCrc => s.codeCrcNow
  | .patchStatus => BitVec.ofNat 32 (s.sl.fail * 2 + s.sl.active.toNat)
  | .beoStatus => s.beoStatusWord refx
  | .beoOut k => s.beoOutWord k
  | .beoLoopILo => loWord s.loop.integ
  | .beoLoopIHi => hiWord s.loop.integ
  | .beoLoopStatus => s.loopStatusWord
  | .beoLoopIter => BitVec.ofNat 32 s.loop.iter
  | r =>
    match loOf r with
    | some lo => hiWord (s.pair lo r)
    | none => s.reg r &&& ~~~ BitVec.ofNat 32 (r.spec.w1p ||| r.spec.wo)
/-- The same, with what only the hardware can say at this moment drawn as a free value (log entry 1): a driver's current limit while
it is ON, a chain's common mode while it is not IDLE, the load of the sequencer and of the movers. -/
def State.shown (s : State) (src : Src) (r : Reg) (refx : Nat) : State × W32 :=
  match r with
  | .excStatus x =>
    if (s.drv x).on then let (t, b) := s.draw 1; (t, s.excStatus x (b.getLsbD 0)) else (s, s.excStatus x false)
  | .monCmv n => s.cmvRead n
  | .seqLoad | .movLoad => let (t, b) := s.draw 8; (t, b.setWidth 32)
  | r => (s, s.readWord src r refx)

/-! ### Reading -/

/-- What a read of a register leaves behind: the capture of a LO register of a pair, of STAT_CNT, MELD_RES_LO, TIME_NOW_LO, TIME_OFS_LO
and AO_LFCOUNT_LO; the claim of a single read of IRQ_CLAIM (a block read claims nothing, nor does a host's read of the sequencer's);
the advance of the coefficient index and of the slot at a single read, for a block read makes captures only (R7; R8, R160, R184, R203, R226, R245, R248, R310, R359). -/
def State.readEffect (s : State) (src : Src) (block : Bool) (r : Reg) : State :=
  let s := match r with
    | .statCnt i => statCntRead src i s
    | .meldResLo u => meldResRead src u s
    | .timeNowLo => timeNowRead src s
    | .timeOfsLo => timeOfsRead src s
    | .aoLfcountLo => s.capture src [(.aoLfcountHi, BitVec.ofNat 32 (s.clk.lf / 2 ^ 32))]
    | .aoLfcountHi => { s with caps := s.caps.filter fun c => !(decide (c.1 = src) && c.2.1 == r.addr) }
    | .irqClaim t => if block || t == 2 then s else (s.claim t).irqSettle
    | .sluCoefHi => if block then s else s.coefNext
    | .dsWt => if block then s else s.dsNext
    | _ => s
  match hiOf r with
  | some hi => s.setShadow src (some (hi.addr, s.readWord src hi))
  | none => s
/-- One read of a register by a source (R312): a HI register whose shadow the source holds returns it and empties the slot (R310). -/
def State.readReg (s : State) (src : Src) (refx : Nat) (block : Bool) (r : Reg) : State × W32 :=
  match (loOf r).bind fun _ => slotOf s.proto.shadow src r with
  | some v => ((s.setShadow src none).readEffect src block r, v)
  | none =>
    let (t, v) := s.shown src r refx
    (t.readEffect src block r, v)

end Sys2Proof.Machine
end

