-- ==== Sys2Proof/Machine/RegWrite.lean ====
section
/-! DEFINITION. What a write of each register does: the checks of steps 8 and 9 of R300 (who may be written, ranges of fields, the
staged half of a pair, the seal), then the function of the register's chapter (R5, R6, R8, R309, R310, R312). -/

namespace Sys2Proof.Machine

/-! ### Checks -/

/-- A write of a register is refused with BAD_ADDR: every field is RO, or a host may not write it (R309, R312); the sequencer's views
are the sequencer's. -/
def unwritable (r : Reg) : Bool :=
  match r with
  | .irqPend t _ | .irqMask t _ | .irqLostclr t _ | .irqEoi t | .irqCtrl t => t == 2
  | .regionAddr e => decide (e < 3)
  | .semStatus | .devState => true
  | r => r.spec.rw == 0 && r.spec.w1p == 0 && r.spec.wo == 0
/-- A field value of the word lies outside the range that its register table gives, whatever the state (R4; step 8 of R300). -/
def rangeBad (r : Reg) (v : W32) : Bool :=
  let f (hi lo : Nat) : Nat := bits v.toNat hi lo
  match r with
  | .sysTickDiv => decide (f 22 0 < 96 ∨ 6144000 < f 22 0)
  | .apCfg _ => decide (5 ≤ f 2 0 ∨ (f 2 0 = 4 ∧ 24 ≤ f 12 8))
  | .apChsel _ => decide (48 ≤ f 5 0 ∧ f 5 0 ≤ 62) || decide (48 ≤ f 13 8 ∧ f 13 8 ≤ 62) || decide (f 19 18 = 3)
  | .excLevel _ => decide (f 13 0 < 500 ∨ 5250 < f 13 0)
  | .excChop _ => decide (f 22 0 < 1536 ∨ 6144000 < f 22 0 ∨ f 30 23 < 8)
  | .isrcCfg _ => decide (48 ≤ f 13 8 ∨ f 7 0 = 0 ∨ 200 < f 7 0)
  | .afeCfg n =>
    (if n < 16 then decide (9 ≤ f 3 0) else if n < 20 then decide (f 3 0 ≠ 0) else decide (2 ≤ f 3 0)) ||
      decide (14 ≤ f 19 16) || decide (n < 20 ∧ f 19 16 ≠ 0) || decide (5 ≤ f 10 8)
  | .afeTia _ => decide (1500 < f 27 16)
  | .monExcCtrl _ => decide (f 15 10 = 0 ∨ 40 < f 15 10 ∨ f 9 6 = 0)
  | .monCm _ => v.getLsbD 31 && decide (f 12 0 ≤ f 28 16)
  | .monTempCfg => decide (f 7 0 < 60 ∨ 125 < f 7 0)
  | .sluCic _ => decide (f 21 20 = 3)
  | .sluIir _ => decide (f 29 28 = 3 ∨ f 25 24 = 0)
  | .sclCfg _ => decide (47 < f 5 0)
  | .linCfg _ => decide (f 3 0 = 6 ∨ f 3 0 = 7 ∨ 24 < f 20 16 ∨ 40 ≤ f 13 8)
  | .dsSel => decide (16 ≤ f 8 4)
  | .dsSlot => decide (40 ≤ f 5 0)
  | .dtCfg _ => decide (f 29 28 = 3 ∨ f 25 24 = 3 ∨ (40 ≤ f 13 8 ∧ f 13 8 < 48) ∨ 56 ≤ f 13 8)
  | .dtCoef _ => decide (23 < f 12 8)
  | .statCfg _ => decide (56 ≤ f 5 0)
  | .meldCfg _ => decide (9 ≤ f 11 8 ∨ 56 ≤ f 5 0)
  | .meldGate _ => decide (33 ≤ f 5 0)
  | .routeCh _ => decide (f 15 8 = 0)
  | .routeGsrc _ => decide (57 ≤ f 7 0)
  | .routeCm _ => decide (5 ≤ f 10 8 ∨ 24 ≤ f 4 0)
  | .routePin _ => decide (f 1 0 = 3)
  | .routeEvt _ => decide (f 29 28 = 3 ∨ (f 29 28 = 0 ∧ f 19 0 = 0))
  | .routeRem _ => decide (64 ≤ f 6 0 ∧ f 6 0 ≠ 127)
  | .irqCfg n => decide (112 ≤ n ∧ n ≤ 126)
  | .weirPkt _ => decide (f 31 16 = 0)
  | .regionAddr e => decide (3 ≤ e) && decide (f 9 0 < 128 ∨ f 25 16 < f 9 0)
  | .regionBound => decide (f 3 0 < 2 ∨ 8 < f 3 0)
  | .hostBBaud => decide (f 23 0 < 9600 ∨ 12000000 < f 23 0)
  | .hostBUart => decide (f 31 24 < 2)
  | .semCfg => decide (f 15 0 < 10 ∨ 60000 < f 15 0)
  | .cmdLink => decide (f 15 0 = 0)
  | .sbusCfg => decide (f 23 16 = 0 ∨ f 9 8 = 3 ∨ f 7 0 < 7)
  | .sbusSpXtr _ => decide (4 < f 24 22 ∨ f 21 19 = 0 ∨ 6 < f 21 19 ∨ f 12 7 = 0 ∨ 36 < f 12 7)
  | .linkCfg => decide (f 25 24 = 3)
  | .linkSynctx => decide (f 31 16 = 0)
  | .timeSrvCfg => decide (4 < f 27 25 ∨ f 15 12 < 2)
  | .pwrMode => decide (5 ≤ f 2 0)
  | .pwrCfg => decide (f 7 0 = 0)
  | .ebbCfg => decide (f 31 30 = 3)
  | .beoCfg _ => decide (40 ≤ f 5 0)
  | _ => false
/-- The 36-bit value that a HI write of a source would commit (R8, R310). -/
def State.stagedPair (s : State) (src : Src) (lo : Reg) (v : W32) : Option Int := (slotOf s.proto.staging src lo).map fun w => pairVal w v
/-- The write would change a member of the legally relevant set, or is an action that its chapter refuses while the hub is sealed
(R6, R134, R161, R163, R386, R387). -/
def State.touchesSet (s : State) (src : Src) (r : Reg) (v : W32) : Bool :=
  match r with
  | .sealMetro => true
  | .sluCoefHi => !s.bit .sluCoefAddr 13 && (s.blocksAt s.coefSel.2).any s.metro
  | .dsWt => s.bit (.dsCfg s.dsSel.1) 30 && decide (s.dsStaged v.toInt ≠ s.dsCur)
  | .sluBank n => s.metro n && (v.getLsbD 31 || (v.getLsbD 8 != s.bit r 8))
  | .routeCh cc => decide ((s.reg r ^^^ (v &&& BitVec.ofNat 32 (0xffffff00 + wiredMask cc))) &&& s.memberMask r ≠ 0)
  | .sclSpanHi n =>
    s.memberReg r && (decide (s.stagedPair src (.sclSpanLo n) v ≠ some (s.pair (.sclSpanLo n) r)) ||
      (match (s.ch n).ssh with | some x => decide (x ≠ s.fld (.sclCfg n) 5 0) | none => false))
  | .monExcCtrl x => (s.groupMetro x && v.getLsbD 2) || decide ((s.reg r ^^^ v) &&& s.memberMask r ≠ 0)
  | r =>
    match hiOf r, loOf r with
    | some _, _ => false
    | none, some lo => s.memberReg r && decide (s.stagedPair src lo v ≠ some (s.pair lo r))
    | none, none => decide ((s.reg r ^^^ v) &&& s.memberMask r ≠ 0)
/-- Steps 8 and 9 of R300 for one register word: the first failure. -/
def State.checkReg (s : State) (src : Src) (r : Reg) (v : W32) : Option Rej :=
  if decodeAddr r.addr ≠ some r ∨ unwritable r = true then some (.badAddr, [])
  else if (r = .sluCoefLo ∨ r = .sluCoefHi) ∧ s.bit .sluCoefAddr 13 = true then some (.badAddr, [])
  else if rangeBad r v then some (.badParam, [])
  else if (match loOf r with | some lo => (s.stagedPair src lo v).isNone | none => false) then some (.badParam, [])
  else if s.sl.sealed && s.touchesSet src r v then some (.sealed, [])
  else none

/-! ### The write -/

/-- The value of a pair is committed by its HI register (R8). -/
def commitPair (hi : Reg) (x : Int) (s : State) : Except Rej State :=
  match hi with
  | .sluCoefHi => coefCommit x s
  | .sclZeroHi n => sclZeroCommit n x s
  | .sclSpanHi n => Sys2Proof.Machine.sclSpanCommit n x s
  | .sclAztHi n => Sys2Proof.Machine.sclAztCommit n x s
  | .linNtcAHi k => .ok (s.setPair (.linNtcALo k) hi x)
  | .linNtcBHi k => .ok (s.setPair (.linNtcBLo k) hi x)
  | .linNtcCHi k => .ok (s.setPair (.linNtcCLo k) hi x)
  | .dsOfsHi d => dsOfsCommit d x s
  | .meldAHi u => meldPairCommit (.meldALo u) hi u x s
  | .meldBHi u => meldPairCommit (.meldBLo u) hi u x s
  | .beoOfsHi k => beoOfsCommit k x s
  | .beoLoopSpHi => loopPairCommit .beoLoopSpLo hi true x s
  | .beoLoopIlimHi => loopPairCommit .beoLoopIlimLo hi false x s
  | .beoLoopUofsHi => loopPairCommit .beoLoopUofsLo hi true x s
  | _ => .error (.badAddr, [])
/-- A register whose fields a write sets and that has no other rule (R5). -/
def plainWrite (r : Reg) (v : W32) (s : State) : Except Rej State :=
  .ok (s.setReg r ((s.reg r &&& ~~~ BitVec.ofNat 32 r.spec.rw) ||| (v &&& BitVec.ofNat 32 r.spec.rw)))
/-- Step 10 of R300 for one register word: the rule of its chapter, for registers that are no half of a pair. -/
def writeFn (h : Hdr) (r : Reg) (v : W32) (s : State) : Except Rej State :=
  match r with
  | .sysTickDiv => tickDivWrite v s
  | .engCtrl => .ok (engCtrlWrite v s)
  | .engPrio => Sys2Proof.Machine.engPrioWrite v s
  | .clkCtrl => .ok (clkCtrlWrite v s)
  | .regCtrl => .ok (regCtrlWrite v s)
  | .apCfg p => Sys2Proof.Machine.apCfgWrite p v s
  | .apChsel n => apChselWrite n v s
  | .excCtrl x => excCtrlWrite x v s
  | .excLevel x => excLevelWrite x v s
  | .excChop x => excChopWrite x v s
  | .isrcCfg n => isrcCfgWrite n v s
  | .isrcPair p => isrcPairWrite p v s
  | .afeCfg n => afeCfgWrite n v s
  | .afeTia n => afeTiaWrite n v s
  | .afeCtrl => .ok (afeCtrlWrite v s)
  | .monExcCtrl x => monExcCtrlWrite x v s
  | .monCm n => monCmWrite n v s
  | .monCtrl => .ok (monCtrlWrite v s)
  | .monTempCfg => monTempCfgWrite v s
  | .sluCic n | .sluFir n | .sluRank n | .sluIir n | .sluRate n | .sluSh n => chainFieldWrite r n v s
  | .sluBank n => sluBankWrite n v s
  | .sluSyncCtrl => .ok (syncCtrlWrite v s)
  | .sluEcc => .ok (sluEccWrite v s)
  | .sclCfg n => sclCfgWrite n v s
  | .linCfg n => Sys2Proof.Machine.linCfgWrite n v s
  | .linTbl n => linTblWrite n v s
  | .dsCfg d => Sys2Proof.Machine.dsEnable d v s
  | .dsSel => dsSelWrite v s
  | .dsSlot => dsSlotWrite v s
  | .dsWt => Sys2Proof.Machine.dsWtWrite v s
  | .dtCfg x => dtCfgWrite x v s
  | .dtCoef x => dtCoefWrite x v s
  | .dtCtrl => .ok (s.detReset v.toNat false)
  | .statCfg i => statCfgWrite i v s
  | .statPer i => statPerWrite i v s
  | .statEna => Sys2Proof.Machine.statEnaWrite v s
  | .statLatch => .ok (s.statReq v.toNat)
  | .meldCfg u => Sys2Proof.Machine.meldEnable u v s
  | .meldGate u | .meldP0 u | .meldP1 u | .meldP2 u | .meldP3 u => meldParamWrite r u v s
  | .meldCtrl => .ok (meldCtrlWrite v s)
  | .routeCh cc => Sys2Proof.Machine.routeChWrite cc v s
  | .routeFire0 => routeFireWrite 0 v s
  | .routeFire1 => routeFireWrite 1 v s
  | .routeGset => .ok (routeLatchWrite v true s)
  | .routeGclr => .ok (routeLatchWrite v false s)
  | .routeCtrl => .ok (routeCtrlWrite v s)
  | .routeGsrc k => routeGsrcWrite k v s
  | .routeTdiv => .ok (Sys2Proof.Machine.routeTdivWrite v s)
  | .routeSet k => routeSetWrite k v s
  | .routePin p => routePinWrite p v s
  | .routeEvt p => Sys2Proof.Machine.routeEvtWrite p v s
  | .routeRem e => routeRemWrite e v s
  | .irqCfg n => (Sys2Proof.Machine.irqCfgWrite n v s).map State.irqSettle
  | .irqPend t w => .ok (Sys2Proof.Machine.irqPendWrite t w v s).irqSettle
  | .irqMask t w => .ok (Sys2Proof.Machine.irqMaskWrite t w v s).irqSettle
  | .irqLostclr t w => .ok (s.setReg (.irqLost t w) (s.reg (.irqLost t w) &&& ~~~ v))
  | .irqEoi t => .ok (s.eoi t (bits v.toNat 6 0)).irqSettle
  | .irqCtrl t => .ok (irqCtrlWrite t v s)
  | .weirCfg q => Sys2Proof.Machine.queueEnable q v s
  | .weirArea q => weirAreaWrite q v s
  | .weirPkt q => weirPktWrite q v s
  | .weirThr q => .ok (Sys2Proof.Machine.weirThrWrite q v s)
  | .weirCtrl q => weirCtrlWrite q v s
  | .weirRel q => weirRelWrite q v s
  | .moverCtrl => .ok (Sys2Proof.Machine.moverClr v s)
  | .regionAddr e => Sys2Proof.Machine.regionWrite e false v s
  | .regionAttr e => Sys2Proof.Machine.regionWrite e true v s
  | .regionBound => Sys2Proof.Machine.regionBoundWrite v s
  | .hostCfg t => hostCfgWrite t v s
  | .hostAddr t => .ok (hostAddrWrite t v s)
  | .hostCtrl t => .ok (hostCtrlWrite t v s)
  | .hostBBaud => hostBaudWrite h v s
  | .hostBUart => hostUartWrite v s
  | .semCfg | .cmdLink | .cmdCtrl => cmdRegWrite r v s
  | .sbusCfg => sbusCfgWrite v s
  | .sbusCtrl => .ok (sbusCtrlWrite v s)
  | .sbusSpCfg k | .sbusSpWr k | .sbusSpXtr k => sbusSpWrite r k v s
  | .linkCfg => linkCfgWrite v s
  | .linkCtrl => .ok (linkCtrlWrite h v s)
  | .linkSynctx => linkSynctxWrite v s
  | .timeSrvCfg => srvCfgWrite v s
  | .timeSrvPri => .ok (srvPriWrite v s)
  | .timeCtrl => .ok (timeCtrlWrite v s)
  | .pwrMode => .ok (pwrModeWrite v s)
  | .pwrWakeClr => .ok (pwrWakeClrWrite v s)
  | .pwrCfg => pwrCfgWrite v s
  | .ebbCfg | .ebbPulse | .ebbWlo _ | .ebbWhi _ => ebbRegWrite r (BitVec.ofNat 32 r.spec.rw) v s
  | .sealCtrl => .ok (sealCtrlWrite v s)
  | .beoCtrl => beoCtrlWrite v s
  | .beoCfg k => beoCfgWrite k v s
  | .beoScale _ | .beoHval _ => beoSetWrite r v s
  | .beoLoopCfg => Sys2Proof.Machine.loopEnable v s
  | .beoLoopWa | .beoLoopWb => loopSetWrite r false v s
  | .beoLoopKp | .beoLoopKi | .beoLoopKd => loopSetWrite r true v s
  | r => plainWrite r v s
/-- A LO word is refused where its chapter then refuses every write of the pair (R209, R310, R406, R409). -/
def State.loRefused (s : State) (r hi : Reg) : Option Rej :=
  match r with
  | .meldALo _ | .meldBLo _ | .beoOfsLo _ | .beoLoopSpLo | .beoLoopIlimLo | .beoLoopUofsLo =>
    (match commitPair hi 0 s with | .error e => some e | .ok _ => none)
  | _ => none
/-- Step 10 of R300 for one register word, with the staging of R310: a LO word is staged; a HI word commits the pair and empties the
slot. -/
def State.putReg (s : State) (h : Hdr) (r : Reg) (v : W32) : Except Rej State :=
  match hiOf r, loOf r with
  | some hi, _ =>
    (match s.loRefused r hi with | some e => .error e | none => .ok (s.setStaging h.src (some (r.addr, v))))
  | none, some lo =>
    match s.stagedPair h.src lo v with
    | none => .error (.badParam, [])
    | some x => commitPair r x (s.setStaging h.src none)
  | none, none => writeFn h r v s

/-! ### Addresses -/

/-- What an address names (R423, R425). -/
inductive Place where
  | reg (r : Reg) | sram (a : Nat) | otp (a : Nat)
deriving DecidableEq, Repr
/-- The place of an address; none where it is not a multiple of 4 or unassigned (R312). -/
def placeOf (a : Nat) : Option Place :=
  if a % 4 ≠ 0 then none
  else if inSramWindow a then some (.sram a)
  else if 0x20000000 ≤ a ∧ a < 0x20002000 then some (.otp a)
  else (decodeAddr a).map .reg
/-- A read of a window word through MV7 (R21, R80, R283, R284, R313); `ecc`: it meets an uncorrectable error; `fix`: one that is
corrected. -/
def State.sramRead (s : State) (a : Nat) (ecc fix : Bool) : State × Except Rej W32 :=
  if !s.bit .bootStatus 0 then (s, .error (s.conflict 0xfe 0))
  else if !s.allows a 3 then (s.moverFault 7 1 0 a, .error (.regionFault, []))
  else if ecc then (s.moverFault 7 2 0 a, .error (.memEcc, []))
  else (s.sramFixed fix.toNat, .ok (BitVec.ofNat 32 (ofLe ((List.range 4).map fun i => s.sramByte (a + i)))))
/-- A window write touches a user block of a metrological stream or a region marked METRO (R193). -/
def State.sramMetro (s : State) (a : Nat) : Bool := s.blockMetro a || s.regionMetro ((a - 0x10000000) / 4096)
/-- A write of a window word through MV7, which reads the whole word first (R21, R80, R193, R284, R313). -/
def State.sramWrite (s : State) (a : Nat) (v : W32) (ecc fix : Bool) : State × Option Rej :=
  if !s.bit .bootStatus 0 then (s, some (s.conflict 0xfe 0))
  else if s.blockInUse a then (s, some (s.conflict 0xfe 0))
  else if !s.allows a 2 then (s.moverFault 7 1 0 a, some (.regionFault, []))
  else if ecc then (s.moverFault 7 2 0 a, some (.memEcc, []))
  else ((s.sramFixed fix.toNat).sramPut a (leBytes 4 v.toNat), none)
/-- A read of the register reads the coefficient memory (R160). -/
def coefRead (r : Reg) : Bool := match r with | .sluCoefLo | .sluCoefHi => true | _ => false
/-- What of the memory errors of a word its register's write can meet: coefficient reads by the checks of a bank and by the registers of
R427 (R151, R163, R427), SRAM reads by the check of a user block (R193). -/
def errsOf (r : Reg) (e : MemErr) : MemErr :=
  match r with
  | .sluCic _ | .sluFir _ | .sluRank _ | .sluIir _ | .sluRate _ | .sluSh _ | .sluBank _ | .sluCoefHi => { e with sram := 0 }
  | .linCfg _ | .dsCfg _ => { sram := e.sram }
  | _ => {}
/-- Word `k` of a command, read at an address. -/
def State.readAt (s : State) (h : Hdr) (block : Bool) (k a : Nat) : State × Except Rej W32 :=
  match placeOf a with
  | none => (s, .error (.badAddr, []))
  | some (.reg r) => let (t, v) := s.readReg h.src h.refx block r; (t.coefFixed (coefRead r && h.fix.contains k), .ok v)
  | some (.sram a) => s.sramRead a (h.ecc == some k) (h.fix.contains k)
  | some (.otp a) => (s, .ok (BitVec.ofNat 32 (ofLe (s.otpBytes a 4))))
/-- Steps 8 and 9 of R300 for one word at an address. -/
def State.checkAt (s : State) (h : Hdr) (a : Nat) (v : W32) : Option Rej :=
  match placeOf a with
  | none => some (.badAddr, [])
  | some (.otp _) => some (.badAddr, [])
  | some (.reg r) => s.checkReg h.src r v
  | some (.sram a) => if s.sl.sealed && s.sramMetro a then some (.sealed, []) else none
/-- Step 10 of R300 for word `k` of a command, at an address. -/
def State.putAt (s : State) (h : Hdr) (k a : Nat) (v : W32) : State × Option Rej :=
  match placeOf a with
  | some (.reg r) =>
    let err := errsOf r (hdrErr h k)
    (match s.putReg h r v with | .ok t => (t.memErr err, none) | .error e => (s.memErr err, some e))
  | some (.sram a) => s.sramWrite a v (h.ecc == some k) (h.fix.contains k)
  | _ => (s, some (.badAddr, []))

/-! ### The commands -/

/-- REG_READ (R312). -/
def regReadBody (h : Hdr) (a : Nat) (s : State) : Res :=
  match s.readAt h false 0 a with
  | (t, .ok v) => .ok t (leBytes 4 v.toNat)
  | (t, .error r) => .part t r
/-- REG_WRITE (R312). -/
def regWriteBody (h : Hdr) (a : Nat) (v : W32) (s : State) : Res :=
  match s.checkAt h a v with
  | some r => .no r
  | none =>
    match s.putAt h 0 a v with
    | (t, none) => .ok t []
    | (t, some r) => .part t r
/-- The span and count of a block command (R314). -/
def blockBad (n sp : Nat) : Bool := decide (n = 0 ∨ 1024 < n ∨ 16 < sp)
/-- Words read in order; the first refused ends the command. -/
def State.readAll (s : State) (h : Hdr) (k : Nat) : List Nat → State × Except Rej (List W32)
  | [] => (s, .ok [])
  | a :: as =>
    match s.readAt h true k a with
    | (t, .error r) => (t, .error r)
    | (t, .ok v) =>
      match t.readAll h (k + 1) as with
      | (u, .ok vs) => (u, .ok (v :: vs))
      | (u, .error r) => (u, .error r)
/-- REG_READ_BLOCK (R312). -/
def regReadBlockBody (h : Hdr) (a n sp : Nat) (s : State) : Res :=
  let as := (List.range n).map (blockAddr a sp)
  if blockBad n sp then .no (.badParam, [])
  else if as.any fun x => (placeOf x).isNone then .no (.badAddr, [])
  else
    match s.readAll h 0 as with
    | (t, .ok vs) => .ok t (vs.flatMap fun v => leBytes 4 v.toNat)
    | (t, .error r) => .part t r
/-- Checks 5 to 9 of every word before any is written, each against the values as they would stand when it is written (R6, R312); a
word that its register would refuse leaves them as they are. -/
def State.checkAll (s : State) (h : Hdr) (k : Nat) : List (Nat × W32) → Option Rej
  | [] => none
  | (a, v) :: ws =>
    match s.checkAt h a v with
    | some r => some r
    | none => (s.putAt h k a v).1.checkAll h (k + 1) ws
/-- Words written in order: how many, and the refusal that stops them (R312). -/
def State.writeAll (s : State) (h : Hdr) : List (Nat × W32) → Nat → State × Nat × Option Rej
  | [], k => (s, k, none)
  | (a, v) :: ws, k =>
    match s.putAt h k a v with
    | (t, none) => t.writeAll h ws (k + 1)
    | (t, some r) => (t, k, some r)
/-- REG_WRITE_BLOCK (R312). A word refused by its register ends the block with that status; the data gives the words written, after
the three bytes of R304 where the status is STATE_CONFLICT (log entry 55). -/
def regWriteBlockBody (h : Hdr) (a n sp : Nat) (vs : List W32) (s : State) : Res :=
  let ws := vs.zipIdx.map fun (v, k) => (blockAddr a sp k, v)
  if blockBad n sp then .no (.badParam, [])
  else
    match s.checkAll h 0 ws with
    | some r => .no r
    | none =>
      match s.writeAll h ws 0 with
      | (t, k, none) => .ok t (leBytes 2 k)
      | (t, k, some r) => .part t (r.1, r.2 ++ leBytes 2 k)

/-! ### TABLE_LOAD -/

/-- Byte address of word k of a table load (R313). -/
def tableAddr (ofs k : Nat) : Nat := tableBase + 8 * (ofs + k)
/-- TABLE_LOAD: the refusals; the words are written later (R80, R193, R295, R313). -/
def tableLoadBody (h : Hdr) (ofs : Nat) (ws : List W64) (s : State) : Res :=
  let as := (List.range ws.length).map (tableAddr ofs)
  if ws.isEmpty || decide (512 < ws.length) || as.any (fun a => decide (0x10400000 ≤ a)) then .no (.badParam, [])
  else if s.sl.sealed && as.any s.sramMetro then .no (.sealed, [])
  else if !s.bit .bootStatus 0 || as.any s.blockInUse then .no (s.conflict 0xfe 0)
  else .later (s.goLong h (.tableLoad ofs ws))
/-- MV5 writes words until one is denied by the region table or meets an error (R283). -/
def State.loadWords (s : State) (bad : Option Nat) (ofs k : Nat) : List W64 → State × Option Status
  | [] => (s, none)
  | w :: ws =>
    let a := tableAddr ofs k
    if bad = some k then (s.moverFault 5 2 0 a, some .memEcc)
    else if !s.allows a 2 then (s.moverFault 5 1 0 a, some .regionFault)
    else (s.sramPutWord a w).loadWords bad ofs (k + 1) ws
/-- TABLE_LOAD_COMPLETE (R283, R295): MV5 has written the last word, or met an error at word `bad`, and the reply is sent;
`fixed`: how many errors it corrected (R21). -/
def tableLoadComplete (bad : Option Nat) (fixed : Nat) (s : State) : State :=
  match s.proto.longs.find? fun x => match x.2 with | .tableLoad _ _ => true | _ => false with
  | some (h, .tableLoad ofs ws) =>
    let s := { s with proto := { s.proto with longs := s.proto.longs.filter fun x => decide (x ≠ (h, LongOp.tableLoad ofs ws)) } }
    match (s.sramFixed fixed).loadWords bad ofs 0 ws with
    | (t, none) => t.respond h .ok [] true
    | (t, some st) => t.respond h st [] true
  | _ => s

end Sys2Proof.Machine
end

