-- ==== Sys2Proof/Machine/Operands.lean ====
section
/-! DEFINITION. The operand forms of the commands: a packet's bytes as a command, a reply's bytes as a status and its data (R286 to
R288, R303, R314). A command that reaches the hub at one of its own ports comes with its operands read; one that comes in CMD frames
of the link is read here. -/

namespace Sys2Proof.Machine

/-- The little-endian number in `n` bytes from an offset (R287). -/
def leAt (bs : List Byte) (o n : Nat) : Nat := ofLe ((bs.drop o).take n)
/-- Words of `w` bytes from an offset. -/
def wordsAt (w : Nat) (bs : List Byte) (o n : Nat) : List Nat := (List.range n).map fun k => leAt bs (o + w * k) w
/-- A two's complement number of `w` bits. -/
def signedAt (w v : Nat) : Int := (BitVec.ofNat w v).toInt
/-- Bytes of a chain mask (R314). -/
def maskBytes : Nat := 3
/-- Parameter bytes that an opcode asks for (R314); none where the opcode is undefined. The block commands and the loads take their
length from their count. -/
def paramLen (op : Nat) (ps : List Byte) : Option Nat :=
  match op with
  | 0x00 | 0x01 | 0x02 | 0x09 | 0x0a | 0x38 | 0x3a | 0x40 | 0x48 | 0x50 | 0x51 | 0x59 => some 0
  | 0x08 => some 2
  | 0x10 => some 4
  | 0x11 => some 8
  | 0x12 => some 7
  | 0x13 => some (7 + 4 * leAt ps 4 2)
  | 0x18 => some (6 + 8 * leAt ps 4 2)
  | 0x20 | 0x21 | 0x39 => some maskBytes
  | 0x22 => some 1
  | 0x28 => some 3
  | 0x30 => some 4
  | 0x41 => some 11
  | 0x42 => some 15
  | 0x58 => some (max 5 (min 4100 ps.length))
  | _ => none
/-- The command that an opcode and its parameters spell; `shown` and `bad` are what the hardware adds to a QUEUE_READ (R275, R283). -/
def commandOf (op : Nat) (ps : List Byte) (shown : Nat) (bad : Option Nat) : HostCmd :=
  match op with
  | 0x01 => .devStatus
  | 0x02 => .swidRead
  | 0x08 => .semTake (leAt ps 0 2)
  | 0x09 => .semGive
  | 0x0a => .semStatus
  | 0x10 => .regRead (leAt ps 0 4)
  | 0x11 => .regWrite (leAt ps 0 4) (BitVec.ofNat 32 (leAt ps 4 4))
  | 0x12 => .regReadBlock (leAt ps 0 4) (leAt ps 4 2) (leAt ps 6 1)
  | 0x13 => .regWriteBlock (leAt ps 0 4) (leAt ps 4 2) (leAt ps 6 1) ((wordsAt 4 ps 7 (leAt ps 4 2)).map fun v => BitVec.ofNat 32 v)
  | 0x18 => .tableLoad (leAt ps 0 4) ((wordsAt 8 ps 6 (leAt ps 4 2)).map fun v => BitVec.ofNat 64 v)
  | 0x20 => .chanStart (leAt ps 0 3)
  | 0x21 => .chanStop (leAt ps 0 3)
  | 0x22 => .chanSync (leAt ps 0 1)
  | 0x28 => .queueRead (leAt ps 0 1) (leAt ps 1 2) shown bad
  | 0x30 => .clockSet (leAt ps 0 1) (leAt ps 1 1) (leAt ps 2 1) (leAt ps 3 1)
  | 0x38 => .wait
  | 0x39 => .ebbArm { mask := leAt ps 0 3 }
  | 0x3a => .ebbDisarm
  | 0x40 => .timeRead
  | 0x41 => .timeSet (leAt ps 0 8) (leAt ps 8 2) (leAt ps 10 1 % 2 == 1)
  | 0x42 => .timeAdjust (signedAt 64 (leAt ps 0 8)) (leAt ps 8 2) (signedAt 32 (leAt ps 10 4)) (leAt ps 14 1)
  | 0x48 => .linkEnum
  | 0x50 => .seal
  | 0x51 => .unseal
  | 0x58 => .patchLoad (leAt ps 0 4) (ps.drop 4)
  | 0x59 => .patchActivate
  | _ => .nop
/-- The body of a packet or a reply whose start byte, LEN and CRC are right: NODE, TAG, OPCODE or STATUS, and the rest (R286 to
R289). -/
def unframe (start : Byte) (bs : List Byte) : Option (Nat × Nat × Nat × List Byte) :=
  let len := leAt bs 1 2
  let crc := leAt bs (3 + len) 1 * 256 + leAt bs (4 + len) 1
  if bs.head? = some start ∧ 3 ≤ len ∧ len ≤ 4160 ∨ start = 0x5a ∧ bs.head? = some start ∧ 3 ≤ len then
    if bs.length = 5 + len ∧ (crc16 (bs.take (3 + len))).toNat = crc then
      some (leAt bs 3 1, leAt bs 4 1, leAt bs 5 1, (bs.drop 6).take (len - 3))
    else none
  else none
/-- Every status. -/
def allStatus : List Status :=
  [.ok, .accepted, .badOpcode, .badLen, .badTag, .tagInUse, .badNode, .badAddr, .badParam, .stateConflict, .notOwner, .semHeld,
   .sealed, .budget, .markStale, .auditFull, .clockFail, .memEcc, .regionFault, .authFail, .jumpRefused, .linkTimeout, .linkDown]
/-- The status of a code (R303). -/
def statusOf (c : Nat) : Option Status := allStatus.find? fun st => statusCode st == c

end Sys2Proof.Machine
end

