-- ==== Sys2Proof/Machine/Commands.lean ====
section
/-! DEFINITION. Running a command: what each command of the opcode reference does on this node (R314), what follows every command
(the save of a changed AO item, the interrupt lines, the balance loop's output, the commands that a power entry held back), and the
frames of the link that carry commands and replies (R290, R341). -/

namespace Sys2Proof.Machine

/-- Every command answers a next state. -/
abbrev Out := Host.Outcome State Fault Refusal

/-- What a command does on the node that executes it (R314). -/
def hostBody (h : Hdr) (c : HostCmd) : State → Res :=
  match c with
  | .nop => nopBody
  | .devStatus => devStatusBody
  | .swidRead => swidReadBody
  | .semTake l => semTakeBody h l
  | .semGive => semGiveBody
  | .semStatus => semStatusBody
  | .regRead a => regReadBody h a
  | .regWrite a v => regWriteBody h a v
  | .regReadBlock a n sp => regReadBlockBody h a n sp
  | .regWriteBlock a n sp vs => regWriteBlockBody h a n sp vs
  | .tableLoad o ws => tableLoadBody h o ws
  | .chanStart m => chanStartBody (hdrErr h 0) m
  | .chanStop m => chanStopBody m
  | .chanSync m => chanSyncBody m
  | .queueRead q n shown bad => fun s => queueReadBody h q n shown bad (s.sramFixed h.fix.length)
  | .clockSet a b c d => clockSetBody h a b c d
  | .wait => waitBody h
  | .ebbArm p => ebbArmBody p.mask
  | .ebbDisarm => ebbDisarmBody
  | .timeRead => timeReadBody
  | .timeSet t f force => timeSetBody h t f force
  | .timeAdjust st f r sel => timeAdjustBody st f r sel
  | .linkEnum => linkEnumBody h
  | .seal => sealBody h
  | .unseal => unsealBody h
  | .patchLoad o bs => patchLoadBody o bs
  | .patchActivate => patchActivateBody h
/-- What follows every command and event: a changed item of the AO list is saved (R85), the output of the balance loop follows (R405),
events reach their routing channels and gate levels the Meld units (R218, R230), the interrupt lines are evaluated (R247, R254). -/
def State.settle (old s : State) : State :=
  (State.gateFollow old (State.judge old (State.loopFollow old (State.saveIfChanged old s)))).irqSettle
/-- Commands held since a WAIT was accepted run in their order once the power entry has ended (R296). -/
def State.replay : Nat → State → State
  | 0, s => s
  | k + 1, s =>
    if s.pwr.entering then s
    else
      match s.proto.held with
      | [] => s
      | (h, c) :: rest =>
        let t : State := { s with proto := { s.proto with held := rest } }
        (State.settle t (t.perform h c (hostBody h c))).replay k
/-- The end of every command and event that is no reset. -/
def State.finish (old s : State) : State := (State.settle old s).replay s.proto.held.length
/-- A packet with a command arrives (R300). -/
def hostStep (h : Hdr) (c : HostCmd) (s : State) : Out := .next (State.finish s (s.submit h c (hostBody h c)))
/-- The address that a register row names; an unassigned address where the index names no register. -/
def rowAddr (r : Reg) : Nat := if decodeAddr r.addr = some r then r.addr else 0
/-- A packet with a REG_WRITE of a register (R312). -/
def writeStep (h : Hdr) (r : Reg) (v : W32) (s : State) : Out := hostStep h (.regWrite (rowAddr r) v) s
/-- A packet with a REG_READ of a register (R312). -/
def readStep (h : Hdr) (r : Reg) (s : State) : Out := hostStep h (.regRead (rowAddr r)) s
/-- An event inside the hub. -/
def eventStep (f : State → State) (s : State) : Out := .next (State.finish s (f s))
/-- An event of blocks whose clock stops outside RUN and DOZE (R240, R369): it cannot occur then. -/
def fabricStep (f : State → State) (s : State) : Out := eventStep (fun s => if s.fabricOn then f s else s) s
/-- A reset: of what follows a command only the interrupt lines are evaluated. -/
def resetStep (f : State → State) (s : State) : Out := .next (State.irqSettle (f s))

/-! ### Commands and replies over the link -/

/-- A fragment joins the packet or reply of its node and port; a fragment out of order drops it. With LAST the bytes are given to
`use` (R341). -/
def State.assemble (s : State) (f : Frame) (reply : Bool) (use : Port → List Byte → State → State) : State :=
  let ix := (f.payload.getD 0 0).toNat
  let ctl := f.payload.getD 1 0
  let portB := ctl.getLsbD 1
  let mine (x : Nat × Bool × Bool × List Byte) : Bool := x.1 == f.src && x.2.1 == reply && x.2.2.1 == portB
  let have_ := if ix = 0 then [] else (s.link.asm.find? mine).elim [] (·.2.2.2)
  let rest := s.link.asm.filter fun x => !mine x
  let t : State := { s with link := { s.link with asm := rest } }
  if have_.length ≠ 206 * ix then t
  else
    let bs := have_ ++ f.payload.drop 2
    if ctl.getLsbD 0 then use (if portB then .b else .a) bs t
    else { t with link := { t.link with asm := rest ++ [(f.src, reply, portB, bs)] } }
/-- A packet that came over the link is submitted with its originating node and port as source (R290, R341). -/
def State.linkCommand (s : State) (node : Nat) (p : Port) (rx : Nat) (seen : Seen) (bs : List Byte) : State :=
  match unframe 0xa5 bs with
  | none => s
  | some (n, tag, op, ps) =>
    let need := paramLen op ps
    let h : Hdr := { src := .link node p, tag := tag, node := n, rx := rx, known := need.isSome, fit := decide (need = some ps.length)
                     ecc := seen.ecc, fix := seen.fix, errs := seen.errs, peer := seen.peer, refx := seen.refx, cut := seen.cut }
    let c := commandOf op ps (min seen.shown (leAt ps 1 2)) seen.bad
    s.submit h c (hostBody h c)
/-- CMD_FRAME: a fragment of a command for this node, or for every node (R341). In DOZE it is a wake source (R376). -/
def cmdFrame (p : Nat) (f : Frame) (rx : Nat) (seen : Seen) (s : State) : State :=
  s.takeFrame p 0x01 f fun s =>
    (s.wakeLatch 4).assemble f false fun q bs s => s.linkCommand f.src q rx seen bs
/-- The late reply to a command that timed out is discarded and counted (R290). -/
def State.lateReply (s : State) (node tag : Nat) (p : Port) : State :=
  if s.proto.late.contains (node, tag, p) then
    ({ s with proto := { s.proto with late := s.proto.late.erase (node, tag, p) } }).satAdd .cmdLink 31 16 1
  else s
/-- The reply of a forwarded command returns to its port. Its bytes do not tell it from the reply of an earlier command of the same tag
that timed out: `late` says which it is, where the hub has commands of both kinds (R290; log entry 127). -/
def State.linkReply (s : State) (p : Port) (late : Bool) (bs : List Byte) : State :=
  match unframe 0x5a bs with
  | none => s
  | some (node, tag, code, data) =>
    let isIt (x : Hdr × LongOp) : Bool :=
      x.1.tag == tag && decide (x.1.src = .port p) && (match x.2 with | .forward n _ _ => n == node | _ => false)
    match s.proto.longs.find? isIt, statusOf code with
    | _, none => s
    | none, some _ => s.lateReply node tag p
    | some x, some st =>
      if late && s.proto.late.contains (node, tag, p) then s.lateReply node tag p
      else
        let s : State := { s with proto := { s.proto with longs := s.proto.longs.filter fun y => decide (y ≠ x) } }
        s.reply { src := x.1.src, tag := tag, node := node, status := st, data := data, frees := true }
/-- RPL_FRAME: a fragment of a reply for this node (R290, R341). -/
def rplFrame (p : Nat) (f : Frame) (late : Bool) (s : State) : State :=
  s.takeFrame p 0x02 f fun s => s.assemble f true fun q bs s => s.linkReply q late bs

end Sys2Proof.Machine
end

