-- ==== Sys2Proof/Machine/RowsAnalog.lean ====
section
/-! DEFINITION. Meanings: analog ports, excitation, front ends and monitors (R88 to R149). One definition for each row of the operation table. -/

namespace Sys2Proof.Machine

/-- The register of an operand of EXC_CONFIG_WRITE (R100). -/
def excReg : ExcReg → Reg
  | .ctrl x => .excCtrl x | .level x => .excLevel x | .chop x => .excChop x | .isrc n => .isrcCfg n | .pair p => .isrcPair p

/-- MODULATOR_CLEAR (R127): Integrators held at their limits for 16 MCLK periods are cleared. -/
def execModulatorClear (nn : Nat) (st : State) : Out := fabricStep (Sys2Proof.Machine.modulatorClear nn) st
/-- CHOP_REVERSAL (R103): A running chop generator reverses polarity every HALF MCLK periods and blanking starts. -/
def execChopReversal (x : Nat) (st : State) : Out := fabricStep (Sys2Proof.Machine.chopReversalRun x) st
/-- RAMP_END (R101): A driver's excitation ramp reaches its level. -/
def execRampEnd (x : Nat) (st : State) : Out := fabricStep (Sys2Proof.Machine.rampEnd x) st
/-- HICCUP_ENTRY (R98): The overload timer reaches 10 ms and the driver enters hiccup, or lockout. -/
def execHiccupEntry (x : Nat) (ls : List Spell) (st : State) : Out := fabricStep (Sys2Proof.Machine.hiccupEntry x ls) st
/-- HICCUP_RESTART (R99): After 100 ms of hiccup the driver restarts with its ramp. -/
def execHiccupRestart (x : Nat) (st : State) : Out := fabricStep (Sys2Proof.Machine.hiccupRestart x) st
/-- FAULT_DETECT (R132): A monitor's condition is qualified as a fault, records are marked and a fault event record is written. -/
def execFaultDetect (ds : List Detection) (st : State) : Out := eventStep (Sys2Proof.Machine.faultDetect ds) st
/-- FAULT_CLEAR (R140): A fault's condition has been absent long enough and its clearing event record is written. -/
def execFaultClear (code tM tF : Nat) (done : Bool) (st : State) : Out := eventStep (Sys2Proof.Machine.faultClear code tM tF done) st
/-- TEMP_READING (R147): The die converter takes a reading every 128 µs and evaluates the thermal thresholds. -/
def execTempReading (q : Int) (st : State) : Out := eventStep (Sys2Proof.Machine.tempReading q) st
/-- LEARN (R134): Write of MON_EXCx_CTRL.LEARN that requests a current-window learn at the next tick boundary. -/
def execLearn (h : Hdr) (x : Nat) (v : W32) (st : State) : Out := writeStep h (.monExcCtrl x) (v ||| 0x4) st
/-- LEARN_COMPLETE (R134): The 65,536-period learn ends, setting ILEARN, LEVEL_REF and the window, or LEARN_FAIL. -/
def execLearnComplete (x i : Nat) (ok : Bool) (st : State) : Out := fabricStep (Sys2Proof.Machine.learnComplete x i ok) st
/-- CLR_EXC (R134): Write of MON_CTRL.CLR_EXC that clears the driver sticky bits and LEARN_FAIL. -/
def execClrExc (h : Hdr) (v : W32) (st : State) : Out := writeStep h .monCtrl (v ||| 0x1) st
/-- CLR_CM (R138): Write of MON_CTRL.CLR_CM that clears MON_CM_STKY and MON_ISRC.LOST_S. -/
def execClrCm (h : Hdr) (v : W32) (st : State) : Out := writeStep h .monCtrl (v ||| 0x2) st
/-- CLR_TEMP (R147): Write of MON_CTRL.CLR_TEMP that clears the thermal sticky bits. -/
def execClrTemp (h : Hdr) (v : W32) (st : State) : Out := writeStep h .monCtrl (v ||| 0x4) st
/-- CLR_OVL (R126): Write of AFE_CTRL.CLR_OVL that clears AFE_OVL. -/
def execClrOvl (h : Hdr) (v : W32) (st : State) : Out := writeStep h .afeCtrl (v ||| 0x1) st
/-- AP_CFG_WRITE (R90): Write of a port role that opens the old switches and closes the new ones within 1 µs. -/
def execApCfgWrite (h : Hdr) (nn : Nat) (v : W32) (st : State) : Out := writeStep h (.apCfg nn) v st
/-- EXC_CONFIG_WRITE (R100): Write of a driver, source or chop register that is held until the next tick boundary. -/
def execExcConfigWrite (h : Hdr) (r : ExcReg) (v : W32) (st : State) : Out := writeStep h (excReg r) v st
/-- AFE_TIA_FB_WRITE (R121): Write of a TIA feedback step, immediate while IDLE and otherwise at the next tick boundary. -/
def execAfeTiaFbWrite (h : Hdr) (nn : Nat) (v : W32) (st : State) : Out := writeStep h (.afeTia nn) v st
/-- OVER_RANGE_FLAG (R126): The over-range comparator flags an MCLK period, setting AFE_OVL and firing the front-end over-range interrupt source on its rise. -/
def execOverRangeFlag (nn : Nat) (hit : Bool) (st : State) : Out := fabricStep (Sys2Proof.Machine.overRangeFlag nn hit) st
/-- OVERLOAD_TIMER_CLEAR (R98): A driver's overload timer clears after its current limit has been inactive for 61,440 MCLK periods. -/
def execOverloadTimerClear (x : Nat) (ls : List Spell) (st : State) : Out := fabricStep (Sys2Proof.Machine.overloadTimerClear x ls) st

end Sys2Proof.Machine
end

