-- ==== Sys2Proof/Machine/RowsBeo.lean ====
section
/-! DEFINITION. Meanings: bridge emulator outputs and the balance loop (R399 to R409). One definition for each row of the operation table. -/

namespace Sys2Proof.Machine

/-- BEO_ENABLE (R402): Write of BEO_CFGk.EN that starts an emulator output at CODE 0 or sets it to high impedance. -/
def execBeoEnable (h : Hdr) (k : Nat) (v : W32) (st : State) : Out := writeStep h (.beoCfg k) v st
/-- BEO_CTRL_HOLD (R403): Write of BEO_CTRL.HOLD that starts an event hold of an output. -/
def execBeoCtrlHold (h : Hdr) (v : W32) (st : State) : Out := writeStep h .beoCtrl v st
/-- BEO_CTRL_RELEASE (R403): Write of BEO_CTRL.RELEASE that ends an event hold. -/
def execBeoCtrlRelease (h : Hdr) (v : W32) (st : State) : Out := writeStep h .beoCtrl v st
/-- BEO_CLR_STKY (R403): Write of BEO_CTRL.CLR_STKY that clears HOLD_S, OFF_FAULT and ICLAMP_S. -/
def execBeoClrStky (h : Hdr) (v : W32) (st : State) : Out := writeStep h .beoCtrl (v ||| 0x2) st
/-- BEO_LOCK (R409): Write of BEO_CTRL.LOCK that locks the BEO configuration until boot. -/
def execBeoLock (h : Hdr) (v : W32) (st : State) : Out := writeStep h .beoCtrl (v ||| 0x80000000) st
/-- HOLD_TICKS_EXPIRY (R403): HTICKS tick boundaries pass since the last hold event and the event hold ends. -/
def execHoldTicksExpiry (k : Nat) (st : State) : Out := fabricStep (Sys2Proof.Machine.holdTicksExpiry k) st
/-- LOOP_ENABLE (R406): Write of BEO_LOOP_CFG.EN that checks and enables the balance loop, or disables it. -/
def execLoopEnable (h : Hdr) (v : W32) (st : State) : Out := writeStep h .beoLoopCfg v st

end Sys2Proof.Machine
end

