-- ==== Sys2Proof/Machine/RowsChain.lean ====
section
/-! DEFINITION. Meanings: the tick, the engine and the chains (R23 to R41, R150 to R176). One definition for each row of the operation table. -/

namespace Sys2Proof.Machine

/-- TICK_BOUNDARY (R26): The tick divider expires and the hub performs the boundary actions in order. -/
def execTickBoundary (st : State) : Out := fabricStep Sys2Proof.Machine.tickBoundary st
/-- CHAIN_ORIGIN (R169): 128 MCLK periods after the start boundary, the first CIC input fixes the chain's origin. -/
def execChainOrigin (nn : Nat) (st : State) : Out := fabricStep (Sys2Proof.Machine.chainOrigin nn) st
/-- OUTPUT_BOUNDARY (R166): A chain's output boundary is reached, the FRC is captured and the output's engine work becomes ready. -/
def execOutputBoundary (nn : Nat) (xs : List Int) (st : State) : Out := fabricStep (Sys2Proof.Machine.outputBoundary nn xs) st
/-- ENGINE_ITEM (R31): A lane completes one work item and dispatches the next by priority. -/
def execEngineItem (lane stall : Nat) (ecc : EccEvent) (st : State) : Out := fabricStep (Sys2Proof.Machine.engineItem lane stall ecc) st
/-- SYS_TICK_DIV_WRITE (R24): Write of the tick divider that takes effect at the next boundary of the old tick. -/
def execSysTickDivWrite (h : Hdr) (v : W32) (st : State) : Out := writeStep h .sysTickDiv v st
/-- ENG_PRIO_WRITE (R32): Write of ENG_PRIO that selects PRIO chains from the next tick boundary. -/
def execEngPrioWrite (h : Hdr) (v : W32) (st : State) : Out := writeStep h .engPrio v st
/-- CLR_OVR (R33): Write of ENG_CTRL.CLR_OVR that clears TICK_OVERRUN. -/
def execClrOvr (h : Hdr) (v : W32) (st : State) : Out := writeStep h .engCtrl (v ||| 0x1) st
/-- CLR_DROP (R34): Write of ENG_CTRL.CLR_DROP that clears the drop counters and DROPPED. -/
def execClrDrop (h : Hdr) (v : W32) (st : State) : Out := writeStep h .engCtrl (v ||| 0x2) st
/-- CLR_MAX (R41): Write of ENG_CTRL.CLR_MAX that sets ENG_LOAD_MAX to ENG_LOAD_LAST. -/
def execClrMax (h : Hdr) (v : W32) (st : State) : Out := writeStep h .engCtrl (v ||| 0x4) st
/-- COEF_COMMIT (R161): Write of SLU_COEF_HI that commits a coefficient word and advances INDEX. -/
def execCoefCommit (h : Hdr) (v : W32) (st : State) : Out := writeStep h .sluCoefHi v st
/-- SWAP_REQUEST (R163): Write of SLU_BANKnn.REQ that checks and requests a coefficient bank swap. -/
def execSwapRequest (h : Hdr) (nn : Nat) (v : W32) (st : State) : Out := writeStep h (.sluBank nn) (v ||| 0x80000000) st
/-- SWAP_EDGE (R163): A pending swap takes effect at its swap edge and writes event 0x1500 + nn. -/
def execSwapEdge (nn : Nat) (st : State) : Out := fabricStep (Sys2Proof.Machine.swapEdge nn) st
/-- SYNC_FIRE (R171): Write of SLU_SYNC_CTRL.FIRE that requests a sync of the named groups. -/
def execSyncFire (h : Hdr) (m : Nat) (st : State) : Out := writeStep h .sluSyncCtrl ((st.reg .sluSyncCtrl &&& 0x17) ||| BitVec.ofNat 32 (m % 256 * 65536)) st
/-- SYNC_EDGE (R170): A group's sync edge resets the state and origin of every non-IDLE chain in the group. -/
def execSyncEdge (g : Nat) (xs : List (Nat × List Int)) (st : State) : Out := fabricStep (Sys2Proof.Machine.syncEdgeAll g xs) st
/-- SYNC_PIN_RISE (R172): A rising edge on the SYNC input requests a sync of PIN_GRP and fires EC56. -/
def execSyncPinRise (high : Nat) (st : State) : Out := fabricStep (Sys2Proof.Machine.syncPinRise high) st
/-- SYNC_PIN_PULSE_END (R172): The 16-MCLK output pulse on SYNC ends. -/
def execSyncPinPulseEnd (st : State) : Out := fabricStep Sys2Proof.Machine.syncPinPulseEnd st
/-- SLU_ECC_CLR (R162): Write of SLU_ECC.CLR that clears CORR, UNCORR and UADDR. -/
def execSluEccClr (h : Hdr) (v : W32) (st : State) : Out := writeStep h .sluEcc (v ||| 0x80000000) st

end Sys2Proof.Machine
end

