-- ==== Sys2Proof/Machine/RowsClock.lean ====
section
/-! DEFINITION. Meanings: resets, boot, clocks, supplies and the save area (R24, R61 to R87). One definition for each row of the operation table. -/

namespace Sys2Proof.Machine

/-- XO_STARTED (R73): The crystal oscillator or XIN buffer started by a CLOCK_SET is running. -/
def execXoStarted (st : State) : Out := eventStep Sys2Proof.Machine.xoStarted st
/-- REF_QUALIFIED (R73): The PLL reference has been counted against HFRC over 1,024 periods and lies within the ±4 % window. -/
def execRefQualified (khz : Nat) (st : State) : Out := eventStep (Sys2Proof.Machine.refQualified khz) st
/-- PLL_LOCKED (R73): The PLL has locked after qualification of its reference. -/
def execPllLocked (st : State) : Out := eventStep Sys2Proof.Machine.pllLocked st
/-- CLOCK_SWITCH (R73): SYSCLK, SQCLK, MCLK, TCLK and the regulator clock switch together at an MCLK edge. -/
def execClockSwitch (st : State) : Out := eventStep Sys2Proof.Machine.clockSwitch st
/-- CLOCK_FAIL_TIMEOUT (R73): Qualification did not complete within 2 ms or lock within 400 µs, so the CLOCK_SET ends with CLOCK_FAIL. -/
def execClockFailTimeout (st : State) : Out := eventStep Sys2Proof.Machine.clockFailTimeout st
/-- POWER_ON_RESET (R66): VSUP rises above the POR threshold after falling below retention, and the hub boots with the AO copies invalidated. -/
def execPowerOnReset (e : Env) (st : State) : Out := resetStep (Sys2Proof.Machine.powerOnReset e) st
/-- BROWN_OUT (R66): VSUP falls below the brown-out threshold for more than 2 µs and the hub boots with an AO restore. -/
def execBrownOut (e : Env) (st : State) : Out := resetStep (Sys2Proof.Machine.brownOut e) st
/-- RESET_N (R49): RESET_N held low for at least 2 µs resets the hub. -/
def execResetN (e : Env) (st : State) : Out := resetStep (Sys2Proof.Machine.resetN e) st
/-- WATCHDOG_EXPIRY (R83): The 250 ms watchdog expires, a final AO save is made and the hub boots with cause 3. -/
def execWatchdogExpiry (e : Env) (st : State) : Out := resetStep (Sys2Proof.Machine.watchdogExpiry e) st
/-- FACTORY_TEST_EXIT (R66): Exit from factory test starts a boot with an AO restore. -/
def execFactoryTestExit (e : Env) (st : State) : Out := resetStep (Sys2Proof.Machine.factoryTestExit e) st
/-- BOOT_COMPLETE (R77): The boot finishes and the hub enters CONFIG, or FAULT when the OTP trim CRC failed. -/
def execBootComplete (otpBad : Bool) (st : State) : Out := eventStep (Sys2Proof.Machine.bootComplete otpBad) st
/-- SRAM_CLEARED (R77): Background clearing of B02 to B15 ends and SRAM_READY is set. -/
def execSramCleared (st : State) : Out := eventStep Sys2Proof.Machine.sramCleared st
/-- VREF_SETTLED (R81): VREF reaches 2 ppm of its final value and VREF-referenced chains may begin settling. -/
def execVrefSettled (st : State) : Out := fabricStep Sys2Proof.Machine.vrefSettled st
/-- AO_SAVE_PERIODIC (R85): The 1 s timer writes the next AO save copy. -/
def execAoSavePeriodic (st : State) : Out := eventStep Sys2Proof.Machine.aoSavePeriodic st
/-- SUPPLY_CHANGE (R61): A supply supervisor comparator changes, updating SUP_STATUS and acting on drivers, ports and quad mode. -/
def execSupplyChange (sup : BitVec 5) (ls : List Lead) (cut : Option Nat) (st : State) : Out :=
  eventStep (Sys2Proof.Machine.supplyChange sup ls cut) st
/-- LF_SEL_WRITE (R68): Write of CLK_CTRL.LF_SEL that starts or stops the LF crystal and its qualification. -/
def execLfSelWrite (h : Hdr) (v : W32) (st : State) : Out := writeStep h .clkCtrl v st
/-- LF_XTAL_QUALIFIED (R68): 1,024 LF crystal periods lie within ±5 % and LFCLK switches to the crystal. -/
def execLfXtalQualified (st : State) : Out := eventStep Sys2Proof.Machine.lfXtalQualified st
/-- LF_LOSS (R68): No LF crystal edge for 4 LFRC periods, or no qualification within 1 s, returns LFCLK to LFRC and sets LF_LOST. -/
def execLfLoss (st : State) : Out := eventStep Sys2Proof.Machine.lfLoss st
/-- REF_LOSS (R76): The PLL reference or lock is lost and SYSCLK returns to HFRC. -/
def execRefLoss (st : State) : Out := eventStep Sys2Proof.Machine.refLoss st
/-- CLR_LOST (R68): Write of CLK_CTRL.CLR_LOST that clears REF_LOST and LF_LOST. -/
def execClrLost (h : Hdr) (v : W32) (st : State) : Out := writeStep h .clkCtrl (v ||| 0x10000) st
/-- REG_CTRL_MODE_WRITE (R64): Write of REG_CTRL.MODE that probes for the inductor before buck mode, or returns to LDO. -/
def execRegCtrlModeWrite (h : Hdr) (v : W32) (st : State) : Out := writeStep h .regCtrl v st
/-- BUCK_PROBE_RESULT (R64): The switch-node decay is measured and the regulator enters buck mode or sets BUCK_FAIL. -/
def execBuckProbeResult (inductor : Bool) (st : State) : Out := eventStep (Sys2Proof.Machine.buckProbeResult inductor) st
/-- FIRMWARE_MEMORY_ERROR (R297): The sequencer meets an uncorrectable error in B00 or B01 and the device enters FAULT with FAULT_CAUSE 2. -/
def execFirmwareMemoryError (st : State) : Out := eventStep Sys2Proof.Machine.firmwareMemoryError st

end Sys2Proof.Machine
end

