-- ==== Sys2Proof/Machine/RowsCommand.lean ====
section
/-! DEFINITION. Meanings: the commands of the opcode reference, and what happens to packets, replies, the semaphore and forwarded commands (R286 to R317). One definition for each row of the operation table. -/

namespace Sys2Proof.Machine

/-- NOP (R314): Command that does nothing and replies OK. -/
def execNop (h : Hdr) (st : State) : Out := hostStep h .nop st
/-- DEV_STATUS (R314): Command that returns device state, fault cause, seal state, semaphore owner, node address, reset cause and chain states. -/
def execDevStatus (h : Hdr) (st : State) : Out := hostStep h .devStatus st
/-- SWID_READ (R395): Command that returns ROM version, patch ID and code CRC. -/
def execSwidRead (h : Hdr) (st : State) : Out := hostStep h .swidRead st
/-- SEM_TAKE (R305): Command that grants or renews the configuration semaphore with a lease, or is refused with SEM_HELD. -/
def execSemTake (h : Hdr) (lease : Nat) (st : State) : Out := hostStep h (.semTake lease) st
/-- SEM_GIVE (R305): Command that frees the semaphore held by its source. -/
def execSemGive (h : Hdr) (st : State) : Out := hostStep h .semGive st
/-- SEM_STATUS (R314): Command that returns the semaphore status and the lease left. -/
def execSemStatus (h : Hdr) (st : State) : Out := hostStep h .semStatus st
/-- REG_READ (R312): Command that reads one 32-bit register or SRAM-window word. -/
def execRegRead (h : Hdr) (a : Nat) (st : State) : Out := hostStep h (.regRead a) st
/-- REG_WRITE (R312): Command that writes one register or window word under its access codes, the seal and the semaphore; also covers writes to registers that have no row of their own. -/
def execRegWrite (h : Hdr) (a : Nat) (v : W32) (st : State) : Out := hostStep h (.regWrite a v) st
/-- REG_READ_BLOCK (R312): Command that reads N words at a start address with a span, making the captures that single reads would make. -/
def execRegReadBlock (h : Hdr) (a n s : Nat) (st : State) : Out := hostStep h (.regReadBlock a n s) st
/-- REG_WRITE_BLOCK (R312): Command that checks every word and then writes N words in order, stopping at the first word its register refuses. -/
def execRegWriteBlock (h : Hdr) (a n s : Nat) (vs : List W32) (st : State) : Out := hostStep h (.regWriteBlock a n s vs) st
/-- TABLE_LOAD (R313): Long command that writes whole 64-bit words into user-table memory through MV5. -/
def execTableLoad (h : Hdr) (ofs : Nat) (ws : List W64) (st : State) : Out := hostStep h (.tableLoad ofs ws) st
/-- TABLE_LOAD_COMPLETE (R295): MV5 has written the last word of a table load, or met a fault, and the reply is sent. -/
def execTableLoadComplete (bad : Option Nat) (fixed : Nat) (st : State) : Out := fabricStep (Sys2Proof.Machine.tableLoadComplete bad fixed) st
/-- CHAN_START (R316): Command that makes the named IDLE chains start-pending, all or none, after the budget and configuration checks. -/
def execChanStart (h : Hdr) (m : Nat) (st : State) : Out := hostStep h (.chanStart m) st
/-- CHAN_STOP (R316): Command that makes the named chains stop-pending or cancels pending starts. -/
def execChanStop (h : Hdr) (m : Nat) (st : State) : Out := hostStep h (.chanStop m) st
/-- CHAN_SYNC (R171): Command that requests a sync of the named sync groups. -/
def execChanSync (h : Hdr) (m : Nat) (st : State) : Out := hostStep h (.chanSync m) st
/-- QUEUE_READ (R275): Command that returns n words from a queue's host window with a trailer, advancing R by the words delivered. -/
def execQueueRead (h : Hdr) (q n shown : Nat) (bad : Option Nat) (st : State) : Out := hostStep h (.queueRead q n shown bad) st
/-- CLOCK_SET (R73): Long command that switches SYSCLK to HFRC or the PLL with a new reference, NDIV and MCLK_SEL. -/
def execClockSet (h : Hdr) (src ref ndiv msel : Nat) (st : State) : Out := hostStep h (.clockSet src ref ndiv msel) st
/-- WAIT (R370): Command that checks PWR_MODE.TARGET and, when accepted, replies ACCEPTED and holds later commands until the entry ends. -/
def execWaitCmd (h : Hdr) (st : State) : Out := hostStep h .wait st
/-- EBB_ARM (R381): Command that arms Ebb for up to eight chains and enters device state EBB_ACTIVE. -/
def execEbbArm (h : Hdr) (p : EbbParams) (st : State) : Out := hostStep h (.ebbArm p) st
/-- EBB_DISARM (R382): Command that disarms Ebb and returns the device to CONFIG. -/
def execEbbDisarm (h : Hdr) (st : State) : Out := hostStep h .ebbDisarm st
/-- TIME_READ (R359): Command that returns the corrected time and the FRC of one TCLK period. -/
def execTimeRead (h : Hdr) (st : State) : Out := hostStep h .timeRead st
/-- TIME_SET (R360): Command that steps corrected time to a requested value, subject to the jump limit unless forced. -/
def execTimeSet (h : Hdr) (t frac : Nat) (force : Bool) (st : State) : Out := hostStep h (.timeSet t frac force) st
/-- TIME_ADJUST (R361): Command that applies an OFFSET step and/or a new RATE at one TCLK period. -/
def execTimeAdjust (h : Hdr) (step : Int) (frac : Nat) (rate : Int) (sel : Nat) (st : State) : Out := hostStep h (.timeAdjust step frac rate sel) st
/-- LINK_ENUM (R348): Long command, legal at the root only, that assigns node addresses along the Acnar chain. -/
def execLinkEnum (h : Hdr) (st : State) : Out := hostStep h .linkEnum st
/-- SEAL (R389): Long command that computes the set CRC and seals the hub, counting a change in OTP when the set differs from the reference. -/
def execSeal (h : Hdr) (st : State) : Out := hostStep h .seal st
/-- UNSEAL (R390): Long command that opens a sealed hub when the jumper is open and the counter is not exhausted. -/
def execUnseal (h : Hdr) (st : State) : Out := hostStep h .unseal st
/-- PATCH_LOAD (R397): Command that writes patch image bytes into patch RAM. -/
def execPatchLoad (h : Hdr) (ofs : Nat) (bytes : List Byte) (st : State) : Out := hostStep h (.patchLoad ofs bytes) st
/-- PATCH_ACTIVATE (R397): Long command that verifies the patch format, key hash and signature, and activates the patch. -/
def execPatchActivate (h : Hdr) (st : State) : Out := hostStep h .patchActivate st
/-- PACKET_DISCARD (R289): A received packet with a bad start byte, LEN, CRC, a full buffer or arriving in BOOT is dropped without reply and counted. -/
def execPacketDiscard (p : Port) (k : Discard) (ls : List Lead) (n : Nat) (st : State) : Out := eventStep (Sys2Proof.Machine.packetDiscard p k ls n) st
/-- PARTIAL_PACKET_DISCARD (R319): A bus transfer ends inside a packet, which is discarded and counted in PART. -/
def execPartialPacketDiscard (p : Port) (ls : List Lead) (n : Nat) (st : State) : Out := eventStep (Sys2Proof.Machine.partialPacketDiscard p ls n) st
/-- REPLY_SENT (R293): The last byte of a reply has left its port and its tag leaves flight. -/
def execReplySent (p : Port) (ls : List Lead) (st : State) : Out := eventStep (Sys2Proof.Machine.replySent p ls) st
/-- REPLY_CUT (R323): HA_CS_N rises before a reply is complete, so the rest of the reply is discarded and its tag freed. -/
def execReplyCut (p : Port) (k : Nat) (ls : List Lead) (st : State) : Out := eventStep (Sys2Proof.Machine.replyCut p k ls) st
/-- LEASE_EXPIRY (R307): The 1 ms lease check finds the deadline passed and frees the semaphore. -/
def execLeaseExpiry (st : State) : Out := eventStep Sys2Proof.Machine.leaseExpiry st
/-- FORWARD_TIMEOUT (R290): No reply to a forwarded command returned within CMD_LINK.TMO, so the receiving hub replies LINK_TIMEOUT. -/
def execForwardTimeout (tag : Nat) (st : State) : Out := fabricStep (Sys2Proof.Machine.forwardTimeout tag) st
/-- CLR_REJ (R317): Write of CMD_CTRL.CLR_REJ that clears CMD_STATE_REJECTS. -/
def execClrRej (h : Hdr) (v : W32) (st : State) : Out := writeStep h .cmdCtrl (v ||| 0x1) st
/-- CLR_ERR (R317): Write of CMD_CTRL.CLR_ERR that clears CMD_ERR_A and CMD_ERR_B. -/
def execClrErr (h : Hdr) (v : W32) (st : State) : Out := writeStep h .cmdCtrl (v ||| 0x2) st
/-- CLR_LATE (R317): Write of CMD_CTRL.CLR_LATE that clears CMD_LINK.LATE. -/
def execClrLate (h : Hdr) (v : W32) (st : State) : Out := writeStep h .cmdCtrl (v ||| 0x4) st
/-- PAIR_LO_WRITE (R310): Write of the LO register of a 36-bit pair that fills the source's staging slot. -/
def execPairLoWrite (h : Hdr) (a : Nat) (v : W32) (st : State) : Out := hostStep h (.regWrite a v) st
/-- PAIR_HI_COMMIT (R310): Write of the HI register of a 36-bit pair that commits the staged pair. -/
def execPairHiCommit (h : Hdr) (a : Nat) (v : W32) (st : State) : Out := hostStep h (.regWrite a v) st
/-- PAIR_LO_READ (R310): Read of a LO register that captures the HI half into the source's shadow. -/
def execPairLoRead (h : Hdr) (a : Nat) (st : State) : Out := hostStep h (.regRead a) st

end Sys2Proof.Machine
end

