-- ==== Sys2Proof/Machine/RowsHost.lean ====
section
/-! DEFINITION. Meanings: host ports and the sensor bus (R318 to R335). One definition for each row of the operation table. -/

namespace Sys2Proof.Machine

/-- SPI_QUAD_WRITE (R322): Write of HOST_A_CFG.QUAD that switches port A to quad frames. -/
def execSpiQuadWrite (h : Hdr) (t : Nat) (v : W32) (st : State) : Out := writeStep h (.hostCfg t) v st
/-- ABORT_RX (R326): Write of HOST_x_CTRL.ABORT_RX that discards the reply in progress. -/
def execAbortRx (h : Hdr) (t : Nat) (v : W32) (st : State) : Out := writeStep h (.hostCtrl t) (v ||| 0x2) st
/-- HOST_CLR (R323): Write of HOST_x_CTRL.CLR that clears HOST_x_STAT. -/
def execHostClr (h : Hdr) (t : Nat) (v : W32) (st : State) : Out := writeStep h (.hostCtrl t) (v ||| 0x1) st
/-- HOST_B_BAUD_WRITE (R328): Write of the UART bit rate, effective after the reply to that write. -/
def execHostBBaudWrite (h : Hdr) (v : W32) (st : State) : Out := writeStep h .hostBBaud v st
/-- UART_GAP_TIMEOUT (R329): More than 20 bit times pass inside a UART packet, which is discarded. -/
def execUartGapTimeout (st : State) : Out := eventStep Sys2Proof.Machine.uartGapTimeout st
/-- UART_BREAK (R329): RX held low for 20 bit times resynchronises the receiver and counts BRK. -/
def execUartBreak (st : State) : Out := eventStep Sys2Proof.Machine.uartBreak st
/-- ENTDAA (R327): I3C CCC that assigns a dynamic address. -/
def execEntdaa (p : Port) (a : Nat) (st : State) : Out := eventStep (Sys2Proof.Machine.entdaa p a) st
/-- SETDASA (R327): I3C CCC that assigns the dynamic address from the static address. -/
def execSetdasa (p : Port) (a : Nat) (st : State) : Out := eventStep (Sys2Proof.Machine.setdasa p a) st
/-- SETNEWDA (R327): I3C CCC that changes the dynamic address. -/
def execSetnewda (p : Port) (a : Nat) (st : State) : Out := eventStep (Sys2Proof.Machine.setnewda p a) st
/-- RSTDAA (R327): I3C CCC that resets the dynamic address. -/
def execRstdaa (p : Port) (st : State) : Out := eventStep (Sys2Proof.Machine.rstdaa p) st
/-- GETPID (R327): I3C CCC that returns the provisioned ID. -/
def execGetpid (p : Port) (st : State) : Out := eventStep (Sys2Proof.Machine.getpid p) st
/-- GETBCR (R327): I3C CCC that returns BCR. -/
def execGetbcr (p : Port) (st : State) : Out := eventStep (Sys2Proof.Machine.getbcr p) st
/-- GETDCR (R327): I3C CCC that returns DCR. -/
def execGetdcr (p : Port) (st : State) : Out := eventStep (Sys2Proof.Machine.getdcr p) st
/-- GETSTATUS (R327): I3C CCC that returns the target status. -/
def execGetstatus (p : Port) (st : State) : Out := eventStep (Sys2Proof.Machine.getstatus p) st
/-- ENEC (R327): I3C CCC that enables in-band interrupts, setting IRQ_CTRL_x.IBI. -/
def execEnec (p : Port) (b : Nat) (st : State) : Out := eventStep (Sys2Proof.Machine.enec p b) st
/-- DISEC (R327): I3C CCC that disables in-band interrupts, clearing IRQ_CTRL_x.IBI. -/
def execDisec (p : Port) (b : Nat) (st : State) : Out := eventStep (Sys2Proof.Machine.disec p b) st
/-- SETMWL (R327): I3C CCC that sets the maximum write length. -/
def execSetmwl (p : Port) (n : Nat) (st : State) : Out := eventStep (Sys2Proof.Machine.setmwl p n) st
/-- GETMWL (R327): I3C CCC that returns the maximum write length. -/
def execGetmwl (p : Port) (st : State) : Out := eventStep (Sys2Proof.Machine.getmwl p) st
/-- SETMRL (R327): I3C CCC that sets the maximum read length. -/
def execSetmrl (p : Port) (n : Nat) (st : State) : Out := eventStep (Sys2Proof.Machine.setmrl p n) st
/-- GETMRL (R327): I3C CCC that returns the maximum read length. -/
def execGetmrl (p : Port) (st : State) : Out := eventStep (Sys2Proof.Machine.getmrl p) st
/-- SBUS_ENABLE (R332): Write of SBUS_CFG.EN that starts the poll schedule from the write. -/
def execSbusEnable (h : Hdr) (v : W32) (st : State) : Out := writeStep h .sbusCfg v st
/-- POLL_DUE (R332): A poll entry falls due at a tick boundary and its transaction begins. -/
def execPollDue (k : Nat) (st : State) : Out := fabricStep (Sys2Proof.Machine.pollDue k) st
/-- POLL_COMPLETE (R333): A poll transaction ends and produces an SP record, with FLT on an error. -/
def execPollComplete (k back : Nat) (ok : Bool) (bytes : List Byte) (st : State) : Out := fabricStep (Sys2Proof.Machine.pollComplete k back ok bytes) st
/-- POLL_ABANDON (R332): A poll not finished by the next tick boundary is abandoned and later entries skipped. -/
def execPollAbandon (k : Nat) (st : State) : Out := fabricStep (Sys2Proof.Machine.pollAbandon k) st
/-- SBUS_CLR (R335): Write of SBUS_CTRL.CLR that clears SBUS_STATUS and the poll counters. -/
def execSbusClr (h : Hdr) (v : W32) (st : State) : Out := writeStep h .sbusCtrl (v ||| 0x1) st
/-- UART_RX_RESYNC (R329): After a discard, HB_RX has been idle for 20 bit times and the receiver again takes the next 0xA5 as a START. -/
def execUartRxResync (st : State) : Out := eventStep Sys2Proof.Machine.uartRxResync st

end Sys2Proof.Machine
end

