-- ==== Sys2Proof/Machine/RowsIrq.lean ====
section
/-! DEFINITION. Meanings: the interrupt controller (R241 to R256). One definition for each row of the operation table. -/

namespace Sys2Proof.Machine

/-- IRQ_PEND_WRITE (R245): Write of a pending view that sets each bit of its target to the value written. -/
def execIrqPendWrite (h : Hdr) (t w : Nat) (v : W32) (st : State) : Out := writeStep h (.irqPend t w) v st
/-- IRQ_MASK_WRITE (R245): Write of a mask view that masks or unmasks sources of its target. -/
def execIrqMaskWrite (h : Hdr) (t w : Nat) (v : W32) (st : State) : Out := writeStep h (.irqMask t w) v st
/-- IRQ_CLAIM (R248): Read of IRQ_CLAIM_x that claims the highest deliverable source and raises LEVEL. -/
def execIrqClaim (h : Hdr) (t : Nat) (st : State) : Out := readStep h (.irqClaim t) st
/-- IRQ_EOI (R249): Write of IRQ_EOI_x that ends a source's service. -/
def execIrqEoi (h : Hdr) (t : Nat) (v : W32) (st : State) : Out := writeStep h (.irqEoi t) v st
/-- IRQ_LOSTCLR (R244): Write of IRQ_LOSTCLR that clears IRQ_LOST bits. -/
def execIrqLostclr (h : Hdr) (t w : Nat) (v : W32) (st : State) : Out := writeStep h (.irqLostclr t w) v st
/-- CLR_BADEOI (R249): Write of IRQ_CTRL_x.CLR_BADEOI that clears BAD_EOI. -/
def execClrBadeoi (h : Hdr) (t : Nat) (v : W32) (st : State) : Out := writeStep h (.irqCtrl t) (v ||| 4) st
/-- IRQ_CFG_WRITE (R255): Write of IRQ_CFGss that changes a source's target and priority. -/
def execIrqCfgWrite (h : Hdr) (ss : Nat) (v : W32) (st : State) : Out := writeStep h (.irqCfg ss) v st
/-- SEQ_IRQ_SERVICE (R253): The firmware claims a sequencer-targeted source, stamps it and writes event 0x1800 + ss. -/
def execSeqIrqService (late : Nat) (st : State) : Out := eventStep (Sys2Proof.Machine.seqIrqService late) st
/-- IBI_REPEAT (R254): The 1 ms repeat requests an IBI again while the line stays unclaimed. -/
def execIbiRepeat (p : Port) (st : State) : Out := fabricStep (Sys2Proof.Machine.ibiRepeat p) st

end Sys2Proof.Machine
end

