-- ==== Sys2Proof/Machine/RowsLink.lean ====
section
/-! DEFINITION. Meanings: the Acnar link and shared time (R336 to R367). One definition for each row of the operation table. -/

namespace Sys2Proof.Machine

/-- ENUM_TIMEOUT (R348): No ENU done has arrived within 10 ms, so LINK_ENUM replies LINK_TIMEOUT. -/
def execEnumTimeout (st : State) : Out := fabricStep Sys2Proof.Machine.enumTimeout st
/-- PORT_SIGNAL_DETECT (R338): An enabled DOWN port detects a signal and starts training at 25 Mbaud. -/
def execPortSignalDetect (p : Nat) (st : State) : Out := fabricStep (Sys2Proof.Machine.portSignalDetect p) st
/-- TRAIN_COMPLETE (R338): 64 valid TRN sets are exchanged and the hop moves up a rate or becomes UP. -/
def execTrainComplete (p rate : Nat) (st : State) : Out := fabricStep (Sys2Proof.Machine.trainComplete p rate) st
/-- TRAIN_TIMEOUT (R338): Training at a rate does not complete within 100 µs, or retraining within 1 ms, and the rate drops or the port goes DOWN. -/
def execTrainTimeout (p : Nat) (st : State) : Out := fabricStep (Sys2Proof.Machine.trainTimeout p) st
/-- TRAIN_RETRY (R338): A DOWN port tries to train again every 10 ms. -/
def execTrainRetry (p : Nat) (st : State) : Out := fabricStep (Sys2Proof.Machine.trainRetry p) st
/-- SIGNAL_LOSS (R338): A receiver loses its signal for 1 µs and the port goes DOWN. -/
def execSignalLoss (p : Nat) (st : State) : Out := fabricStep (Sys2Proof.Machine.signalLoss p) st
/-- HEADER_CRC_ERROR (R342): A frame header CRC error or excessive code errors make the port retrain. -/
def execHeaderCrcError (p lost codes : Nat) (st : State) : Out := fabricStep (Sys2Proof.Machine.headerCrcError p lost codes) st
/-- FRAME_CRC_ERROR (R342): A payload CRC or code error discards the frame and returns its credits. -/
def execFrameCrcError (p credits codes : Nat) (st : State) : Out := fabricStep (Sys2Proof.Machine.frameCrcError p credits codes) st
/-- RETRAIN_U (R338): Write of LINK_CTRL.RETRAIN_U that retrains the upstream port. -/
def execRetrainU (h : Hdr) (v : W32) (st : State) : Out := writeStep h .linkCtrl (v ||| 0x1) st
/-- RETRAIN_D (R338): Write of LINK_CTRL.RETRAIN_D that retrains the downstream port. -/
def execRetrainD (h : Hdr) (v : W32) (st : State) : Out := writeStep h .linkCtrl (v ||| 0x2) st
/-- LINK_CLR_STKY (R350): Write of LINK_CTRL.CLR_STKY that clears SYNC_LATE and ORDER_BAD. -/
def execLinkClrStky (h : Hdr) (v : W32) (st : State) : Out := writeStep h .linkCtrl (v ||| 0x8) st
/-- LINK_CLR_ERR (R342): Write of LINK_CTRL.CLR_ERR that clears both LINK_Pp_ERR. -/
def execLinkClrErr (h : Hdr) (v : W32) (st : State) : Out := writeStep h .linkCtrl (v ||| 0x4) st
/-- CRD (R345): A CRD pair carries the partner's cumulative freed-credit count. -/
def execCrd (p n lost : Nat) (st : State) : Out := fabricStep (Sys2Proof.Machine.crd p n lost) st
/-- CREDIT_TIMEOUT (R346): A port lacking credits for 100 µs with no CRD, or counting above 16, retrains. -/
def execCreditTimeout (p lost : Nat) (st : State) : Out := fabricStep (Sys2Proof.Machine.creditTimeout p lost) st
/-- CMD_FRAME (R341): A CMD frame for this node is reassembled into a command packet. -/
def execCmdFrame (p : Nat) (f : Frame) (rx : Nat) (seen : Seen) (st : State) : Out :=
  fabricStep (Sys2Proof.Machine.cmdFrame p f rx seen) st
/-- RPL_FRAME (R290): An RPL frame returns the reply of a forwarded command to its port. -/
def execRplFrame (p : Nat) (f : Frame) (late : Bool) (st : State) : Out := fabricStep (Sys2Proof.Machine.rplFrame p f late) st
/-- REC_FRAME (R352): A REC frame is assembled and at END written by MV4 as a local packet and acknowledged. -/
def execRecFrame (p : Nat) (f : Frame) (bad : Option Nat) (fixed : Nat) (st : State) : Out := fabricStep (Sys2Proof.Machine.recFrame p f bad fixed) st
/-- ACK_FRAME (R353): An ACK sets the origin queue's F to the end of the named packet. -/
def execAckFrame (p : Nat) (f : Frame) (st : State) : Out := fabricStep (Sys2Proof.Machine.ackFrame p f) st
/-- EVT_FRAME (R354): An EVT frame fires producer EC(52 + NUM) at its destination. -/
def execEvtFrame (p : Nat) (f : Frame) (st : State) : Out := fabricStep (Sys2Proof.Machine.evtFrame p f) st
/-- SYN_FRAME (R355): A SYN frame requests a group sync at T_s, or at once when late. -/
def execSynFrame (p : Nat) (f : Frame) (st : State) : Out := fabricStep (Sys2Proof.Machine.synFrame p f) st
/-- TIM_FRAME (R365): A TIM frame is stamped on arrival and feeds the time servo, or changes the master. -/
def execTimFrame (p : Nat) (f : Frame) (rx : Nat) (st : State) : Out := fabricStep (Sys2Proof.Machine.timFrame p f rx) st
/-- ENU_FRAME (R348): An ENU frame assigns this node's address or reports the count to the root. -/
def execEnuFrame (p : Nat) (f : Frame) (st : State) : Out := fabricStep (Sys2Proof.Machine.enuFrame p f) st
/-- HEL_FRAME (R350): A HEL frame reports a neighbour's address and updates LAST and ORDER_BAD. -/
def execHelFrame (p : Nat) (f : Frame) (st : State) : Out := fabricStep (Sys2Proof.Machine.helFrame p f) st
/-- FRAME_FORWARD (R344): A frame not addressed to this node is forwarded, or answered or discarded when its port is not UP. -/
def execFrameForward (p : Nat) (f : Frame) (st : State) : Out := fabricStep (Sys2Proof.Machine.frameForward p f) st
/-- REC_SEND (R351): MV3 sends a committed packet of a link-owned queue as REC frames. -/
def execRecSend (bad : Option Nat) (fixed : Nat) (st : State) : Out := fabricStep (Sys2Proof.Machine.recSend bad fixed) st
/-- ACK_TIMEOUT (R353): No ACK within 4 × TMO of a packet's END, so R returns to F and packets are resent. -/
def execAckTimeout (q : Nat) (st : State) : Out := fabricStep (Sys2Proof.Machine.ackTimeout q) st
/-- LINK_SYNC_FIRE (R355): Write of LINK_SYNCTX.FIRE that broadcasts a group sync with lead time. -/
def execLinkSyncFire (h : Hdr) (v : W32) (st : State) : Out := writeStep h .linkSynctx v st
/-- TIM_SEND (R364): A master sends TIM out of each UP port every 2^PER ms. -/
def execTimSend (st : State) : Out := fabricStep Sys2Proof.Machine.timSend st
/-- SERVO_BLOCK (R365): At the end of a block of TIM messages the servo steps time or adjusts RATE. -/
def execServoBlock (st : State) : Out := fabricStep Sys2Proof.Machine.servoBlock st
/-- HOLDOVER_TIMEOUT (R366): No TIM accepted for HOLD × 2^PER ms and the servo enters HOLDOVER. -/
def execHoldoverTimeout (st : State) : Out := fabricStep Sys2Proof.Machine.holdoverTimeout st
/-- MASTER_TIMEOUT (R364): A node in ACQUIRE or HOLDOVER with no TIM for the set time becomes master. -/
def execMasterTimeout (st : State) : Out := fabricStep Sys2Proof.Machine.masterTimeout st
/-- REACQ (R366): Write of TIME_CTRL.REACQ that sends the servo to ACQUIRE. -/
def execReacq (h : Hdr) (v : W32) (st : State) : Out := writeStep h .timeCtrl (v ||| 0x4) st
/-- TIME_CLR_STKY (R366): Write of TIME_CTRL.CLR_STKY that clears the servo sticky bits. -/
def execTimeClrStky (h : Hdr) (v : W32) (st : State) : Out := writeStep h .timeCtrl (v ||| 0x2) st
/-- CLR_CNT (R362): Write of TIME_CTRL.CLR_CNT that clears TIME_CNT. -/
def execClrCnt (h : Hdr) (v : W32) (st : State) : Out := writeStep h .timeCtrl (v ||| 0x1) st
/-- TIME_NOW_READ (R359): Read of TIME_NOW_LO that captures the corrected time and FRC into the port's shadow. -/
def execTimeNowRead (h : Hdr) (st : State) : Out := readStep h .timeNowLo st

end Sys2Proof.Machine
end

