-- ==== Sys2Proof/Machine/RowsMeld.lean ====
section
/-! DEFINITION. Meanings: Meld units (R204 to R226). One definition for each row of the operation table. -/

namespace Sys2Proof.Machine

/-- MELD_ENABLE (R209): Write of MELD_CFGuu.EN that checks and clears the unit, or stops it. -/
def execMeldEnable (h : Hdr) (uu : Nat) (v : W32) (st : State) : Out := writeStep h (.meldCfg uu) v st
/-- MELD_ARM (R221): MELD_CTRL.ARM or the Meld-arm consumer arms a unit. -/
def execMeldArm (h : Hdr) (m : Nat) (st : State) : Out := writeStep h .meldCtrl (BitVec.ofNat 32 (m % 65536)) st
/-- MELD_CLR (R226): Write of MELD_CTRL.CLR that clears a unit's sticky bits. -/
def execMeldClr (h : Hdr) (m : Nat) (st : State) : Out := writeStep h .meldCtrl (BitVec.ofNat 32 (m % 65536 * 65536)) st
/-- MELD_RES_READ (R226): Read of MELD_RES_LOuu that captures the unit's result into the port's shadow. -/
def execMeldResRead (h : Hdr) (uu : Nat) (st : State) : Out := readStep h (.meldResLo uu) st
/-- MELD_SLOT (R222): A unit's 16-cycle evaluation slot processes enables, arms, gate edges, buffered records and due checks. -/
def execMeldSlot (uu : Nat) (st : State) : Out := fabricStep (Sys2Proof.Machine.meldSlot uu) st
/-- GATE_EDGE (R219): A filtered gate edge reaches a unit and is stamped in hardware. -/
def execGateEdge (uu : Nat) (level : Bool) (st : State) : Out := fabricStep (Sys2Proof.Machine.gateEdge uu level) st
/-- ZT_PERIOD_END (R213): A zero-tracking period of PER ticks ends and is judged. -/
def execZtPeriodEnd (uu : Nat) (st : State) : Out := fabricStep (Sys2Proof.Machine.ztPeriodEnd uu) st
/-- AZT_APPLY (R213): A zero-tracking correction reaches AZT at the second tick boundary after its period, limited per R214. -/
def execAztApply (uu : Nat) (st : State) : Out := fabricStep (Sys2Proof.Machine.aztApply uu) st

end Sys2Proof.Machine
end

