-- ==== Sys2Proof/Machine/RowsPower.lean ====
section
/-! DEFINITION. Meanings: power states and Ebb mode (R369 to R382). One definition for each row of the operation table. -/

namespace Sys2Proof.Machine

/-- POWER_ENTRY (R372): After the ACCEPTED reply has left, the sequencer asks the blocks in order and commits, refuses or aborts the entry. -/
def execPowerEntry (o : EntryObs) (st : State) : Out := eventStep (Sys2Proof.Machine.powerEntry o) st
/-- ENTRY_REPLY_TIMEOUT (R371): The ACCEPTED reply has not left within REPLY_TMO, so the entry ends REFUSED. -/
def execEntryReplyTimeout (st : State) : Out := eventStep Sys2Proof.Machine.entryReplyTimeout st
/-- WAKE (R377): An enabled wake source restarts the hub on HFRC from DOZE, EBB or HOLD. -/
def execWake (id : Nat) (st : State) : Out := eventStep (Sys2Proof.Machine.wake id) st
/-- WAKE_READY (R377): The hub is ready after wake, records WOKE_BY and PWR_SLEPT and fires source 12. -/
def execWakeReady (st : State) : Out := eventStep Sys2Proof.Machine.wakeReady st
/-- WAKE_TIMER (R376): The wake timer expires PWR_TIMER LFCLK periods after commit. -/
def execWakeTimer (st : State) : Out := eventStep Sys2Proof.Machine.wakeTimer st
/-- DOZE_SERVICE (R375): The sequencer runs briefly in DOZE to serve a link frame, a sequencer source or the watchdog. -/
def execDozeService (st : State) : Out := eventStep Sys2Proof.Machine.dozeService st
/-- PWR_WAKE_CLR (R374): Write of PWR_WAKE_CLR that clears latched wake sources. -/
def execPwrWakeClr (h : Hdr) (v : W32) (st : State) : Out := writeStep h .pwrWakeClr v st
/-- EBB_CYCLE (R382): Every PERIOD LFCLK periods an Ebb cycle starts HFRC, excites and starts conversions. -/
def execEbbCycle (st : State) : Out := eventStep Sys2Proof.Machine.ebbCycle st
/-- EBB_RESULT (R382): An Ebb conversion ends, results are judged against their windows, logged, and the hub sleeps or wakes. -/
def execEbbResult (rs : List (List Int × Bool)) (fs : List Detection) (st : State) : Out := eventStep (Sys2Proof.Machine.ebbResult rs fs) st
/-- EBB_SETTLE_END (R382): SETTLE LFCLK periods after an Ebb cycle starts, the named chains start their CIC conversions on one MCLK edge. -/
def execEbbSettleEnd (st : State) : Out := eventStep Sys2Proof.Machine.ebbSettleEnd st

end Sys2Proof.Machine
end

