-- ==== Sys2Proof/Machine/RowsResults.lean ====
section
/-! DEFINITION. Meanings: scaling, derived streams, linearisation, detectors and statistics (R177 to R203). One definition for each row of the operation table. -/

namespace Sys2Proof.Machine

/-- SCL_SPAN_COMMIT (R180): Commit of a zero or span pair, applying with it any staged SSH. -/
def execSclSpanCommit (h : Hdr) (nn : Nat) (v : W32) (st : State) : Out := writeStep h (.sclSpanHi nn) v st
/-- SCL_AZT_COMMIT (R181): Host commit of AZT checked against AZT_LIM, clearing AT_LIMIT and cancelling the Meld correction of that period. -/
def execSclAztCommit (h : Hdr) (nn : Nat) (v : W32) (st : State) : Out := writeStep h (.sclAztHi nn) v st
/-- SCL_SSH_WRITE (R180): Write of SCL_CFGnn.SSH, staged while the chain runs. -/
def execSclSshWrite (h : Hdr) (nn : Nat) (v : W32) (st : State) : Out := writeStep h (.sclCfg nn) v st
/-- DS_ENABLE (R184): Write of DS_CFGdd.EN that checks the slots and starts or stops the derived stream. -/
def execDsEnable (h : Hdr) (dd : Nat) (v : W32) (st : State) : Out := writeStep h (.dsCfg dd) v st
/-- DS_WT_WRITE (R184): Write of DS_WT that commits the staged slot and advances SLOT. -/
def execDsWtWrite (h : Hdr) (v : W32) (st : State) : Out := writeStep h .dsWt v st
/-- DS_WT_READ (R184): Read of DS_WT that returns the slot weight and advances SLOT when INC is 1. -/
def execDsWtRead (h : Hdr) (st : State) : Out := readStep h .dsWt st
/-- LIN_CFG_WRITE (R193): Write of a curve that checks the user block. -/
def execLinCfgWrite (h : Hdr) (s : Nat) (v : W32) (st : State) : Out := writeStep h (.linCfg s) v st
/-- DETECTOR_RESET (R197): DT_CTRL.RST or the detector-reset consumer requests a reset at the next latch edge. -/
def execDetectorReset (h : Hdr) (v : W32) (st : State) : Out := writeStep h .dtCtrl v st
/-- DETECTOR_LATCH (R197): At the latch edge the detector ends its period, may output, and restarts. -/
def execDetectorLatch (x : Nat) (st : State) : Out := fabricStep (Sys2Proof.Machine.detectorLatch x) st
/-- STAT_ENA_WRITE (R202): Write of STAT_ENA that starts slots at the next tick boundary or stops them at once. -/
def execStatEnaWrite (h : Hdr) (v : W32) (st : State) : Out := writeStep h .statEna v st
/-- STAT_LATCH (R200): STAT_LATCH or the statistics-latch consumer requests a latch at the next latch edge. -/
def execStatLatch (h : Hdr) (v : W32) (st : State) : Out := writeStep h .statLatch v st
/-- STAT_LATCH_EDGE (R200): A statistics period ends by event or by PER ticks, and the slot latches and restarts. -/
def execStatLatchEdge (ss : Nat) (st : State) : Out := fabricStep (Sys2Proof.Machine.statLatchEdge ss) st
/-- STAT_CNT_READ (R203): Read of STAT_CNTss that captures the latched set into the port's shadow. -/
def execStatCntRead (h : Hdr) (ss : Nat) (st : State) : Out := readStep h (.statCnt ss) st

end Sys2Proof.Machine
end

