-- ==== Sys2Proof/Machine/RowsRoute.lean ====
section
/-! DEFINITION. Meanings: the routing fabric (R227 to R240). One definition for each row of the operation table. -/

namespace Sys2Proof.Machine

/-- ROUTE_FIRING (R230): An event reaching a routing channel becomes a firing that reaches its enabled consumers, or is discarded or suppressed. -/
def execRouteFiring (n : Nat) (err : MemErr) (st : State) : Out := fabricStep (Sys2Proof.Machine.routeFiring n err) st
/-- EVT_PULSE_END (R239): An EVT pulse of PW × 128 cycles ends. -/
def execEvtPulseEnd (p : Nat) (st : State) : Out := fabricStep (Sys2Proof.Machine.evtPulseEnd p) st
/-- GP_EDGE (R229): A filtered edge on a GP pin fires its routing channel. -/
def execGpEdge (p : Nat) (level : Bool) (st : State) : Out := eventStep (Sys2Proof.Machine.gpEdge p level) st
/-- WAKE_N_FALL (R229): A falling edge on WAKE_N fires EC57 or acts as a wake source. -/
def execWakeNFall (st : State) : Out := eventStep Sys2Proof.Machine.wakeNFall st
/-- TD_FIRE (R229): The tick divider TD fires every N-th tick boundary. -/
def execTdFire (st : State) : Out := fabricStep Sys2Proof.Machine.tdFire st
/-- ROUTE_FIRE (R233): Write of ROUTE_FIRE0 or FIRE1 that presents software firings to the named channels. -/
def execRouteFire (h : Hdr) (w : Nat) (v : W32) (st : State) : Out := writeStep h (if w = 0 then .routeFire0 else .routeFire1) v st
/-- ROUTE_GSET (R232): Write of ROUTE_GSET that sets latch gate levels. -/
def execRouteGset (h : Hdr) (v : W32) (st : State) : Out := writeStep h .routeGset v st
/-- ROUTE_GCLR (R232): Write of ROUTE_GCLR that clears latch gate levels. -/
def execRouteGclr (h : Hdr) (v : W32) (st : State) : Out := writeStep h .routeGclr v st
/-- ROUTE_CH_WRITE (R235): Write of ROUTE_CHcc under its lock and seal rules, effective from the next cycle. -/
def execRouteChWrite (h : Hdr) (cc : Nat) (v : W32) (st : State) : Out := writeStep h (.routeCh cc) v st
/-- ROUTE_TDIV_WRITE (R229): Write of ROUTE_TDIV that restarts the tick-divider count. -/
def execRouteTdivWrite (h : Hdr) (v : W32) (st : State) : Out := writeStep h .routeTdiv v st
/-- CLR_CONS (R237): Write of ROUTE_CTRL.CLR_CONS that clears every consumer's OVERRUN, REFUSED and MERGE. -/
def execClrCons (h : Hdr) (v : W32) (st : State) : Out := writeStep h .routeCtrl (v ||| 0x2) st
/-- CLR_BUDGET (R238): Write of ROUTE_CTRL.CLR_BUDGET that clears the budget sticky bits. -/
def execClrBudget (h : Hdr) (v : W32) (st : State) : Out := writeStep h .routeCtrl (v ||| 0x1) st
/-- EVT_CLR (R239): Write of ROUTE_EVTp.CLR that ends a latched EVT output. -/
def execEvtClr (h : Hdr) (p : Nat) (v : W32) (st : State) : Out := writeStep h (.routeEvt p) (v ||| 0x8000000) st
/-- ROUTE_EVT_WRITE (R239): Write of ROUTE_EVTp that returns the pin to inactive when OUT, MODE or POL changes. -/
def execRouteEvtWrite (h : Hdr) (p : Nat) (v : W32) (st : State) : Out := writeStep h (.routeEvt p) v st

end Sys2Proof.Machine
end

