-- ==== Sys2Proof/Machine/RowsSeal.lean ====
section
/-! DEFINITION. Meanings: the seal, the audit trail and the patch (R384 to R398). One definition for each row of the operation table. -/

namespace Sys2Proof.Machine

/-- SEAL_N_CHANGE (R385): The filtered SEAL_N level changes, setting JMP_S and firing source 15. -/
def execSealNChange (high : Bool) (st : State) : Out := eventStep (Sys2Proof.Machine.sealNChange high) st
/-- SEAL_CALC (R388): Write of SEAL_CTRL.CALC that computes SEAL_CRC without changing state. -/
def execSealCalc (h : Hdr) (v : W32) (st : State) : Out := writeStep h .sealCtrl (v ||| 0x2) st
/-- SEAL_CLR_STKY (R385): Write of SEAL_CTRL.CLR_STKY that clears JMP_S and MISMATCH. -/
def execSealClrStky (h : Hdr) (v : W32) (st : State) : Out := writeStep h .sealCtrl (v ||| 0x1) st
/-- SEAL_COMPLETE (R295): A SEAL or UNSEAL finishes its seal-state change and OTP audit writes, takes final effect and sends its reply. -/
def execSealComplete (fails : Nat) (stuck : List Byte) (err : MemErr) (st : State) : Out :=
  fabricStep (Sys2Proof.Machine.sealComplete fails stuck err) st
/-- PATCH_VERIFICATION_END (R397): Verification of a patch ends, activating it or rejecting it, and the PATCH_ACTIVATE reply is sent. -/
def execPatchVerificationEnd (fixed : Nat) (st : State) : Out := fabricStep (Sys2Proof.Machine.patchVerificationEnd fixed) st
/-- CALC_COMPLETE (R388): A SEAL_CTRL.CALC computation ends, SEAL_CRC takes the CRC of the set and BUSY clears. -/
def execCalcComplete (err : MemErr) (st : State) : Out := fabricStep (Sys2Proof.Machine.calcComplete err) st

end Sys2Proof.Machine
end

