-- ==== Sys2Proof/Machine/RowsWeir.lean ====
section
/-! DEFINITION. Meanings: queues, movers and regions (R257 to R285). One definition for each row of the operation table. -/

namespace Sys2Proof.Machine

/-- UNIT_STORE (R263): MV0 writes a unit into a queue, opening or closing packets, or drops it when it does not fit. -/
def execUnitStore (st : State) : Out := fabricStep Sys2Proof.Machine.unitStoreRun st
/-- PKT_TICKS_CLOSE (R262): PKT_TICKS tick boundaries have passed and the open packet closes. -/
def execPktTicksClose (q : Nat) (st : State) : Out := fabricStep (Sys2Proof.Machine.pktTicksClose q) st
/-- WINDOW_PREFETCH (R274): MV1 or MV2 copies committed words into a host port's window, halting on a read fault. -/
def execWindowPrefetch (p : Port) (bad : Option Nat) (fixed : Nat) (st : State) : Out := fabricStep (Sys2Proof.Machine.windowPrefetch p bad fixed) st
/-- QUEUE_ENABLE (R278): Write of WEIR_Qn_CFG.EN that checks and enables a queue, or discards it. -/
def execQueueEnable (h : Hdr) (q : Nat) (v : W32) (st : State) : Out := writeStep h (.weirCfg q) v st
/-- CLOSE (R262): Write of WEIR_Qn_CTRL.CLOSE that closes the open packet. -/
def execCloseQ (h : Hdr) (q : Nat) (v : W32) (st : State) : Out := writeStep h (.weirCtrl q) (v ||| 0x2) st
/-- FLUSH (R271): Write of WEIR_Qn_CTRL.FLUSH that discards every packet now or when the unit in progress ends. -/
def execFlush (h : Hdr) (q : Nat) (v : W32) (st : State) : Out := writeStep h (.weirCtrl q) (v ||| 0x4) st
/-- FLUSH_EFFECT (R271): A deferred flush takes effect when the unit in progress ends. -/
def execFlushEffect (q : Nat) (st : State) : Out := fabricStep (Sys2Proof.Machine.flushEffectRun q) st
/-- MARK_W (R267): Write of WEIR_Qn_CTRL.MARK_W that sets M to the open packet's length slot. -/
def execMarkW (h : Hdr) (q : Nat) (v : W32) (st : State) : Out := writeStep h (.weirCtrl q) (v ||| 0x8) st
/-- MARK_R (R267): Write of WEIR_Qn_CTRL.MARK_R that sets M to R. -/
def execMarkR (h : Hdr) (q : Nat) (v : W32) (st : State) : Out := writeStep h (.weirCtrl q) (v ||| 0x10) st
/-- MARK_CLR (R267): Write of WEIR_Qn_CTRL.MARK_CLR that clears MARK_VALID. -/
def execMarkClr (h : Hdr) (q : Nat) (v : W32) (st : State) : Out := writeStep h (.weirCtrl q) (v ||| 0x20) st
/-- REWIND (R269): Write of WEIR_Qn_CTRL.REWIND that sets R back to the mark. -/
def execRewind (h : Hdr) (q : Nat) (v : W32) (st : State) : Out := writeStep h (.weirCtrl q) (v ||| 0x40) st
/-- SKIP (R270): Write of WEIR_Qn_CTRL.SKIP that sets R to the end of the current packet. -/
def execSkip (h : Hdr) (q : Nat) (v : W32) (st : State) : Out := writeStep h (.weirCtrl q) (v ||| 0x80) st
/-- RESUME (R282): Write of WEIR_Qn_CTRL.RESUME that rechecks QW and clears WHALT. -/
def execResume (h : Hdr) (q : Nat) (v : W32) (st : State) : Out := writeStep h (.weirCtrl q) (v ||| 0x100) st
/-- CLR_STKY (R272): Write of WEIR_Qn_CTRL.CLR_STKY that clears the queue's sticky bits. -/
def execClrStky (h : Hdr) (q : Nat) (v : W32) (st : State) : Out := writeStep h (.weirCtrl q) (v ||| 0x200) st
/-- RELEASE (R266): Write of WEIR_Qn_REL that advances F by N words or to R. -/
def execRelease (h : Hdr) (q : Nat) (v : W32) (st : State) : Out := writeStep h (.weirRel q) v st
/-- WEIR_THR_WRITE (R277): Write of WEIR_Qn_THR that re-arms the threshold on the present side. -/
def execWeirThrWrite (h : Hdr) (q : Nat) (v : W32) (st : State) : Out := writeStep h (.weirThr q) v st
/-- MOVER_CLR (R282): Write of MOVER_CTRL.CLR that clears a mover's fault record. -/
def execMoverClr (h : Hdr) (v : W32) (st : State) : Out := writeStep h .moverCtrl v st
/-- REGION_WRITE (R285): Write of a host region entry, effective from the next cycle. -/
def execRegionWrite (h : Hdr) (e : Nat) (attr : Bool) (v : W32) (st : State) : Out := writeStep h (if attr then .regionAttr e else .regionAddr e) v st
/-- REGION_BOUND_WRITE (R20): Write of REGION_BOUND.B that moves the boundary between table and Weir memory. -/
def execRegionBoundWrite (h : Hdr) (v : W32) (st : State) : Out := writeStep h .regionBound v st

end Sys2Proof.Machine
end

