-- ==== Sys2Proof/Machine/Dispatch.lean ====
section
/-! DEFINITION. The dispatcher: one arm for each command, each a call of the command's meaning. -/

namespace Sys2Proof.Machine

/-- What a command does to everything but the queue of waiting commands. -/
def exec (i : Instr) (s : State) : Host.Outcome State Fault Refusal :=
  match i with
  | .nop h => Sys2Proof.Machine.execNop h s
  | .devStatus h => Sys2Proof.Machine.execDevStatus h s
  | .swidRead h => Sys2Proof.Machine.execSwidRead h s
  | .semTake h lease => Sys2Proof.Machine.execSemTake h lease s
  | .semGive h => Sys2Proof.Machine.execSemGive h s
  | .semStatus h => Sys2Proof.Machine.execSemStatus h s
  | .regRead h a => Sys2Proof.Machine.execRegRead h a s
  | .regWrite h a v => Sys2Proof.Machine.execRegWrite h a v s
  | .regReadBlock h a n sp => Sys2Proof.Machine.execRegReadBlock h a n sp s
  | .regWriteBlock h a n sp vs => Sys2Proof.Machine.execRegWriteBlock h a n sp vs s
  | .tableLoad h ofs ws => Sys2Proof.Machine.execTableLoad h ofs ws s
  | .tableLoadComplete bad fixed => Sys2Proof.Machine.execTableLoadComplete bad fixed s
  | .chanStart h m => Sys2Proof.Machine.execChanStart h m s
  | .chanStop h m => Sys2Proof.Machine.execChanStop h m s
  | .chanSync h m => Sys2Proof.Machine.execChanSync h m s
  | .queueRead h q n shown bad => Sys2Proof.Machine.execQueueRead h q n shown bad s
  | .clockSet h src ref ndiv msel => Sys2Proof.Machine.execClockSet h src ref ndiv msel s
  | .xoStarted => Sys2Proof.Machine.execXoStarted s
  | .refQualified khz => Sys2Proof.Machine.execRefQualified khz s
  | .pllLocked => Sys2Proof.Machine.execPllLocked s
  | .clockSwitch => Sys2Proof.Machine.execClockSwitch s
  | .clockFailTimeout => Sys2Proof.Machine.execClockFailTimeout s
  | .waitCmd h => Sys2Proof.Machine.execWaitCmd h s
  | .ebbArm h p => Sys2Proof.Machine.execEbbArm h p s
  | .ebbDisarm h => Sys2Proof.Machine.execEbbDisarm h s
  | .timeRead h => Sys2Proof.Machine.execTimeRead h s
  | .timeSet h t frac force => Sys2Proof.Machine.execTimeSet h t frac force s
  | .timeAdjust h step frac rate sel => Sys2Proof.Machine.execTimeAdjust h step frac rate sel s
  | .linkEnum h => Sys2Proof.Machine.execLinkEnum h s
  | .enumTimeout => Sys2Proof.Machine.execEnumTimeout s
  | .seal h => Sys2Proof.Machine.execSeal h s
  | .unseal h => Sys2Proof.Machine.execUnseal h s
  | .patchLoad h ofs bytes => Sys2Proof.Machine.execPatchLoad h ofs bytes s
  | .patchActivate h => Sys2Proof.Machine.execPatchActivate h s
  | .packetDiscard p k ls n => Sys2Proof.Machine.execPacketDiscard p k ls n s
  | .partialPacketDiscard p ls n => Sys2Proof.Machine.execPartialPacketDiscard p ls n s
  | .replySent p ls => Sys2Proof.Machine.execReplySent p ls s
  | .replyCut p k ls => Sys2Proof.Machine.execReplyCut p k ls s
  | .leaseExpiry => Sys2Proof.Machine.execLeaseExpiry s
  | .forwardTimeout tag => Sys2Proof.Machine.execForwardTimeout tag s
  | .clrRej h v => Sys2Proof.Machine.execClrRej h v s
  | .clrErr h v => Sys2Proof.Machine.execClrErr h v s
  | .clrLate h v => Sys2Proof.Machine.execClrLate h v s
  | .powerOnReset e => Sys2Proof.Machine.execPowerOnReset e s
  | .brownOut e => Sys2Proof.Machine.execBrownOut e s
  | .resetN e => Sys2Proof.Machine.execResetN e s
  | .watchdogExpiry e => Sys2Proof.Machine.execWatchdogExpiry e s
  | .factoryTestExit e => Sys2Proof.Machine.execFactoryTestExit e s
  | .bootComplete otpBad => Sys2Proof.Machine.execBootComplete otpBad s
  | .sramCleared => Sys2Proof.Machine.execSramCleared s
  | .vrefSettled => Sys2Proof.Machine.execVrefSettled s
  | .aoSavePeriodic => Sys2Proof.Machine.execAoSavePeriodic s
  | .supplyChange sup ls cut => Sys2Proof.Machine.execSupplyChange sup ls cut s
  | .lfSelWrite h v => Sys2Proof.Machine.execLfSelWrite h v s
  | .lfXtalQualified => Sys2Proof.Machine.execLfXtalQualified s
  | .lfLoss => Sys2Proof.Machine.execLfLoss s
  | .refLoss => Sys2Proof.Machine.execRefLoss s
  | .clrLost h v => Sys2Proof.Machine.execClrLost h v s
  | .regCtrlModeWrite h v => Sys2Proof.Machine.execRegCtrlModeWrite h v s
  | .buckProbeResult inductor => Sys2Proof.Machine.execBuckProbeResult inductor s
  | .tickBoundary => Sys2Proof.Machine.execTickBoundary s
  | .chainOrigin nn => Sys2Proof.Machine.execChainOrigin nn s
  | .outputBoundary nn xs => Sys2Proof.Machine.execOutputBoundary nn xs s
  | .engineItem lane stall ecc => Sys2Proof.Machine.execEngineItem lane stall ecc s
  | .modulatorClear nn => Sys2Proof.Machine.execModulatorClear nn s
  | .chopReversal x => Sys2Proof.Machine.execChopReversal x s
  | .rampEnd x => Sys2Proof.Machine.execRampEnd x s
  | .hiccupEntry x ls => Sys2Proof.Machine.execHiccupEntry x ls s
  | .hiccupRestart x => Sys2Proof.Machine.execHiccupRestart x s
  | .faultDetect ds => Sys2Proof.Machine.execFaultDetect ds s
  | .faultClear code tM tF done => Sys2Proof.Machine.execFaultClear code tM tF done s
  | .tempReading q => Sys2Proof.Machine.execTempReading q s
  | .learn h x v => Sys2Proof.Machine.execLearn h x v s
  | .learnComplete x ii ok => Sys2Proof.Machine.execLearnComplete x ii ok s
  | .clrExc h v => Sys2Proof.Machine.execClrExc h v s
  | .clrCm h v => Sys2Proof.Machine.execClrCm h v s
  | .clrTemp h v => Sys2Proof.Machine.execClrTemp h v s
  | .clrOvl h v => Sys2Proof.Machine.execClrOvl h v s
  | .apCfgWrite h nn v => Sys2Proof.Machine.execApCfgWrite h nn v s
  | .excConfigWrite h r v => Sys2Proof.Machine.execExcConfigWrite h r v s
  | .afeTiaFbWrite h nn v => Sys2Proof.Machine.execAfeTiaFbWrite h nn v s
  | .sysTickDivWrite h v => Sys2Proof.Machine.execSysTickDivWrite h v s
  | .engPrioWrite h v => Sys2Proof.Machine.execEngPrioWrite h v s
  | .clrOvr h v => Sys2Proof.Machine.execClrOvr h v s
  | .clrDrop h v => Sys2Proof.Machine.execClrDrop h v s
  | .clrMax h v => Sys2Proof.Machine.execClrMax h v s
  | .coefCommit h v => Sys2Proof.Machine.execCoefCommit h v s
  | .swapRequest h nn v => Sys2Proof.Machine.execSwapRequest h nn v s
  | .swapEdge nn => Sys2Proof.Machine.execSwapEdge nn s
  | .syncFire h m => Sys2Proof.Machine.execSyncFire h m s
  | .syncEdge g xs => Sys2Proof.Machine.execSyncEdge g xs s
  | .syncPinRise high => Sys2Proof.Machine.execSyncPinRise high s
  | .syncPinPulseEnd => Sys2Proof.Machine.execSyncPinPulseEnd s
  | .sluEccClr h v => Sys2Proof.Machine.execSluEccClr h v s
  | .pairLoWrite h a v => Sys2Proof.Machine.execPairLoWrite h a v s
  | .pairHiCommit h a v => Sys2Proof.Machine.execPairHiCommit h a v s
  | .pairLoRead h a => Sys2Proof.Machine.execPairLoRead h a s
  | .sclSpanCommit h nn v => Sys2Proof.Machine.execSclSpanCommit h nn v s
  | .sclAztCommit h nn v => Sys2Proof.Machine.execSclAztCommit h nn v s
  | .sclSshWrite h nn v => Sys2Proof.Machine.execSclSshWrite h nn v s
  | .dsEnable h dd v => Sys2Proof.Machine.execDsEnable h dd v s
  | .dsWtWrite h v => Sys2Proof.Machine.execDsWtWrite h v s
  | .dsWtRead h => Sys2Proof.Machine.execDsWtRead h s
  | .linCfgWrite h sp v => Sys2Proof.Machine.execLinCfgWrite h sp v s
  | .detectorReset h v => Sys2Proof.Machine.execDetectorReset h v s
  | .detectorLatch x => Sys2Proof.Machine.execDetectorLatch x s
  | .statEnaWrite h v => Sys2Proof.Machine.execStatEnaWrite h v s
  | .statLatch h v => Sys2Proof.Machine.execStatLatch h v s
  | .statLatchEdge ss => Sys2Proof.Machine.execStatLatchEdge ss s
  | .statCntRead h ss => Sys2Proof.Machine.execStatCntRead h ss s
  | .meldEnable h uu v => Sys2Proof.Machine.execMeldEnable h uu v s
  | .meldArm h m => Sys2Proof.Machine.execMeldArm h m s
  | .meldClr h m => Sys2Proof.Machine.execMeldClr h m s
  | .meldResRead h uu => Sys2Proof.Machine.execMeldResRead h uu s
  | .meldSlot uu => Sys2Proof.Machine.execMeldSlot uu s
  | .gateEdge uu level => Sys2Proof.Machine.execGateEdge uu level s
  | .ztPeriodEnd uu => Sys2Proof.Machine.execZtPeriodEnd uu s
  | .aztApply uu => Sys2Proof.Machine.execAztApply uu s
  | .routeFiring n err => Sys2Proof.Machine.execRouteFiring n err s
  | .evtPulseEnd p => Sys2Proof.Machine.execEvtPulseEnd p s
  | .gpEdge p level => Sys2Proof.Machine.execGpEdge p level s
  | .wakeNFall => Sys2Proof.Machine.execWakeNFall s
  | .tdFire => Sys2Proof.Machine.execTdFire s
  | .routeFire h w v => Sys2Proof.Machine.execRouteFire h w v s
  | .routeGset h v => Sys2Proof.Machine.execRouteGset h v s
  | .routeGclr h v => Sys2Proof.Machine.execRouteGclr h v s
  | .routeChWrite h cc v => Sys2Proof.Machine.execRouteChWrite h cc v s
  | .routeTdivWrite h v => Sys2Proof.Machine.execRouteTdivWrite h v s
  | .clrCons h v => Sys2Proof.Machine.execClrCons h v s
  | .clrBudget h v => Sys2Proof.Machine.execClrBudget h v s
  | .evtClr h p v => Sys2Proof.Machine.execEvtClr h p v s
  | .routeEvtWrite h p v => Sys2Proof.Machine.execRouteEvtWrite h p v s
  | .irqPendWrite h t w v => Sys2Proof.Machine.execIrqPendWrite h t w v s
  | .irqMaskWrite h t w v => Sys2Proof.Machine.execIrqMaskWrite h t w v s
  | .irqClaim h t => Sys2Proof.Machine.execIrqClaim h t s
  | .irqEoi h t v => Sys2Proof.Machine.execIrqEoi h t v s
  | .irqLostclr h t w v => Sys2Proof.Machine.execIrqLostclr h t w v s
  | .clrBadeoi h t v => Sys2Proof.Machine.execClrBadeoi h t v s
  | .irqCfgWrite h ss v => Sys2Proof.Machine.execIrqCfgWrite h ss v s
  | .seqIrqService late => Sys2Proof.Machine.execSeqIrqService late s
  | .ibiRepeat p => Sys2Proof.Machine.execIbiRepeat p s
  | .unitStore => Sys2Proof.Machine.execUnitStore s
  | .pktTicksClose q => Sys2Proof.Machine.execPktTicksClose q s
  | .windowPrefetch p bad fixed => Sys2Proof.Machine.execWindowPrefetch p bad fixed s
  | .queueEnable h q v => Sys2Proof.Machine.execQueueEnable h q v s
  | .closeQ h q v => Sys2Proof.Machine.execCloseQ h q v s
  | .flush h q v => Sys2Proof.Machine.execFlush h q v s
  | .flushEffect q => Sys2Proof.Machine.execFlushEffect q s
  | .markW h q v => Sys2Proof.Machine.execMarkW h q v s
  | .markR h q v => Sys2Proof.Machine.execMarkR h q v s
  | .markClr h q v => Sys2Proof.Machine.execMarkClr h q v s
  | .rewind h q v => Sys2Proof.Machine.execRewind h q v s
  | .skip h q v => Sys2Proof.Machine.execSkip h q v s
  | .resume h q v => Sys2Proof.Machine.execResume h q v s
  | .clrStky h q v => Sys2Proof.Machine.execClrStky h q v s
  | .release h q v => Sys2Proof.Machine.execRelease h q v s
  | .weirThrWrite h q v => Sys2Proof.Machine.execWeirThrWrite h q v s
  | .moverClr h v => Sys2Proof.Machine.execMoverClr h v s
  | .regionWrite h e attr v => Sys2Proof.Machine.execRegionWrite h e attr v s
  | .regionBoundWrite h v => Sys2Proof.Machine.execRegionBoundWrite h v s
  | .spiQuadWrite h t v => Sys2Proof.Machine.execSpiQuadWrite h t v s
  | .abortRx h t v => Sys2Proof.Machine.execAbortRx h t v s
  | .hostClr h t v => Sys2Proof.Machine.execHostClr h t v s
  | .hostBBaudWrite h v => Sys2Proof.Machine.execHostBBaudWrite h v s
  | .uartGapTimeout => Sys2Proof.Machine.execUartGapTimeout s
  | .uartBreak => Sys2Proof.Machine.execUartBreak s
  | .entdaa p a => Sys2Proof.Machine.execEntdaa p a s
  | .setdasa p a => Sys2Proof.Machine.execSetdasa p a s
  | .setnewda p a => Sys2Proof.Machine.execSetnewda p a s
  | .rstdaa p => Sys2Proof.Machine.execRstdaa p s
  | .getpid p => Sys2Proof.Machine.execGetpid p s
  | .getbcr p => Sys2Proof.Machine.execGetbcr p s
  | .getdcr p => Sys2Proof.Machine.execGetdcr p s
  | .getstatus p => Sys2Proof.Machine.execGetstatus p s
  | .enec p b => Sys2Proof.Machine.execEnec p b s
  | .disec p b => Sys2Proof.Machine.execDisec p b s
  | .setmwl p n => Sys2Proof.Machine.execSetmwl p n s
  | .getmwl p => Sys2Proof.Machine.execGetmwl p s
  | .setmrl p n => Sys2Proof.Machine.execSetmrl p n s
  | .getmrl p => Sys2Proof.Machine.execGetmrl p s
  | .sbusEnable h v => Sys2Proof.Machine.execSbusEnable h v s
  | .pollDue k => Sys2Proof.Machine.execPollDue k s
  | .pollComplete k back ok bytes => Sys2Proof.Machine.execPollComplete k back ok bytes s
  | .pollAbandon k => Sys2Proof.Machine.execPollAbandon k s
  | .sbusClr h v => Sys2Proof.Machine.execSbusClr h v s
  | .portSignalDetect p => Sys2Proof.Machine.execPortSignalDetect p s
  | .trainComplete p rate => Sys2Proof.Machine.execTrainComplete p rate s
  | .trainTimeout p => Sys2Proof.Machine.execTrainTimeout p s
  | .trainRetry p => Sys2Proof.Machine.execTrainRetry p s
  | .signalLoss p => Sys2Proof.Machine.execSignalLoss p s
  | .headerCrcError p lost codes => Sys2Proof.Machine.execHeaderCrcError p lost codes s
  | .frameCrcError p credits codes => Sys2Proof.Machine.execFrameCrcError p credits codes s
  | .retrainU h v => Sys2Proof.Machine.execRetrainU h v s
  | .retrainD h v => Sys2Proof.Machine.execRetrainD h v s
  | .linkClrStky h v => Sys2Proof.Machine.execLinkClrStky h v s
  | .linkClrErr h v => Sys2Proof.Machine.execLinkClrErr h v s
  | .crd p n lost => Sys2Proof.Machine.execCrd p n lost s
  | .creditTimeout p lost => Sys2Proof.Machine.execCreditTimeout p lost s
  | .cmdFrame p f rx seen => Sys2Proof.Machine.execCmdFrame p f rx seen s
  | .rplFrame p f late => Sys2Proof.Machine.execRplFrame p f late s
  | .recFrame p f bad fixed => Sys2Proof.Machine.execRecFrame p f bad fixed s
  | .ackFrame p f => Sys2Proof.Machine.execAckFrame p f s
  | .evtFrame p f => Sys2Proof.Machine.execEvtFrame p f s
  | .synFrame p f => Sys2Proof.Machine.execSynFrame p f s
  | .timFrame p f rx => Sys2Proof.Machine.execTimFrame p f rx s
  | .enuFrame p f => Sys2Proof.Machine.execEnuFrame p f s
  | .helFrame p f => Sys2Proof.Machine.execHelFrame p f s
  | .frameForward p f => Sys2Proof.Machine.execFrameForward p f s
  | .recSend bad fixed => Sys2Proof.Machine.execRecSend bad fixed s
  | .ackTimeout q => Sys2Proof.Machine.execAckTimeout q s
  | .linkSyncFire h v => Sys2Proof.Machine.execLinkSyncFire h v s
  | .timSend => Sys2Proof.Machine.execTimSend s
  | .servoBlock => Sys2Proof.Machine.execServoBlock s
  | .holdoverTimeout => Sys2Proof.Machine.execHoldoverTimeout s
  | .masterTimeout => Sys2Proof.Machine.execMasterTimeout s
  | .reacq h v => Sys2Proof.Machine.execReacq h v s
  | .timeClrStky h v => Sys2Proof.Machine.execTimeClrStky h v s
  | .clrCnt h v => Sys2Proof.Machine.execClrCnt h v s
  | .timeNowRead h => Sys2Proof.Machine.execTimeNowRead h s
  | .powerEntry o => Sys2Proof.Machine.execPowerEntry o s
  | .entryReplyTimeout => Sys2Proof.Machine.execEntryReplyTimeout s
  | .wake id => Sys2Proof.Machine.execWake id s
  | .wakeReady => Sys2Proof.Machine.execWakeReady s
  | .wakeTimer => Sys2Proof.Machine.execWakeTimer s
  | .dozeService => Sys2Proof.Machine.execDozeService s
  | .pwrWakeClr h v => Sys2Proof.Machine.execPwrWakeClr h v s
  | .ebbCycle => Sys2Proof.Machine.execEbbCycle s
  | .ebbResult rs fs => Sys2Proof.Machine.execEbbResult rs fs s
  | .sealNChange high => Sys2Proof.Machine.execSealNChange high s
  | .sealCalc h v => Sys2Proof.Machine.execSealCalc h v s
  | .sealClrStky h v => Sys2Proof.Machine.execSealClrStky h v s
  | .beoEnable h k v => Sys2Proof.Machine.execBeoEnable h k v s
  | .beoCtrlHold h v => Sys2Proof.Machine.execBeoCtrlHold h v s
  | .beoCtrlRelease h v => Sys2Proof.Machine.execBeoCtrlRelease h v s
  | .beoClrStky h v => Sys2Proof.Machine.execBeoClrStky h v s
  | .beoLock h v => Sys2Proof.Machine.execBeoLock h v s
  | .holdTicksExpiry k => Sys2Proof.Machine.execHoldTicksExpiry k s
  | .loopEnable h v => Sys2Proof.Machine.execLoopEnable h v s
  | .overRangeFlag nn hit => Sys2Proof.Machine.execOverRangeFlag nn hit s
  | .overloadTimerClear x ls => Sys2Proof.Machine.execOverloadTimerClear x ls s
  | .sealComplete fails stuck err => Sys2Proof.Machine.execSealComplete fails stuck err s
  | .patchVerificationEnd fixed => Sys2Proof.Machine.execPatchVerificationEnd fixed s
  | .calcComplete err => Sys2Proof.Machine.execCalcComplete err s
  | .uartRxResync => Sys2Proof.Machine.execUartRxResync s
  | .ebbSettleEnd => Sys2Proof.Machine.execEbbSettleEnd s
  | .firmwareMemoryError => Sys2Proof.Machine.execFirmwareMemoryError s

end Sys2Proof.Machine
end

