-- ==== Sys2Proof/Machine/Step.lean ====
section
/-! DEFINITION. One step of the machine: the command at the front of the queue, or one period of the time base when none waits. -/

namespace Sys2Proof.Machine

/-- One step. With a command waiting, the front one runs on the state whose queue is the rest. With none, the clocks advance by
one TCLK period and what follows every command follows (log entry 3). -/
def step (s : State) : Host.Outcome State Fault Refusal :=
  match s.pending with
  | [] => .next (State.finish s s.idle)
  | c :: rest => exec c { s with pending := rest }

/-- `s` with the command that a table word spells put in front; unchanged where the word spells none (no row has bits). -/
def State.withFetchWord (s : State) (nbits w : Nat) : State :=
  match Sys2Proof.decodeTableWord nbits w with
  | none => s
  | some c => { s with pending := c :: s.pending }

end Sys2Proof.Machine
end

