-- ==== Sys2Proof/Machine/Line.lean ====
section
/-! DEFINITION. The symbols of the Acnar line (R337 to R340): control symbols, the sets of training, the frame as it stands on the line and
how a receiver reads it. The rows of the operation table bring what a receiver has read. -/

namespace Sys2Proof.Machine

/-- A symbol of the 8b/10b code: the control character Kx.y, or a data byte (R337). -/
inductive Sym where
  | k (x y : Nat)
  | d (b : Byte)
deriving DecidableEq, Repr

/-- The data character Dx.y is the byte with y in its three high bits and x in its five low ones (R339; PRESUMED, log entry 176). -/
def Sym.dxy (x y : Nat) : Sym := .d (BitVec.ofNat 8 (32 * y + x))
/-- IDLE, between frames. -/
def idleSyms : List Sym := [.k 28 5, .dxy 16 2]
/-- A TRN set: the rate at which the sender trains and its BAUD_MAX. -/
def trnSyms (rate max : Nat) : List Sym := [.k 28 5, .dxy 21 5, .d (BitVec.ofNat 8 rate), .d (BitVec.ofNat 8 max)]
/-- A CRD pair. -/
def crdSyms (n : Nat) : List Sym := [.k 28 1, .d (BitVec.ofNat 8 n)]
/-- TYPE, DEST, SRC and LEN of a frame: what HCRC covers (R340). -/
def headerBytes (f : Frame) : List Byte :=
  [BitVec.ofNat 8 f.type, BitVec.ofNat 8 f.dest, BitVec.ofNat 8 f.src] ++ leBytes 2 f.payload.length
/-- PCRC: absent when LEN is 0; its least significant byte first (R340; DESIGN CHOICE, log entry 176). -/
def pcrcBytes (xs : List Byte) : List Byte := if xs.isEmpty then [] else leBytes 4 (crc32 xs).toNat
/-- The bytes of a frame between SOF and EOF (R340). -/
def frameBytes (f : Frame) : List Byte := headerBytes f ++ [crc8 (headerBytes f)] ++ f.payload ++ pcrcBytes f.payload
/-- A frame on the line (R340). -/
def frameSyms (f : Frame) : List Sym := .k 27 7 :: (frameBytes f).map .d ++ [.k 29 7]

/-- The receiver removes CRD pairs before it handles the frame (R339). -/
def dropCrd : List Sym → List Sym
  | .k 28 1 :: .d _ :: rest => dropCrd rest
  | x :: rest => x :: dropCrd rest
  | [] => []
/-- The data bytes up to the first control character, and what follows them. -/
def dataRun : List Sym → List Byte × List Sym
  | .d b :: rest => ((dataRun rest).1.cons b, (dataRun rest).2)
  | rest => ([], rest)
/-- What a receiver makes of the symbols of a frame (R340, R342): the frame; a header error, which retrains the port; a payload error, which
discards the frame and returns its credits. -/
inductive Arrival where
  | frame (f : Frame)
  | headerError
  | payloadError (credits : Nat)
deriving DecidableEq, Repr
/-- The receiver's checks on the bytes between SOF and EOF (R340, R342). -/
def readBytes (bs : List Byte) (ended : Bool) : Arrival :=
  let len := ofLe ((bs.drop 3).take 2)
  let xs := (bs.drop 6).take len
  let f : Frame := { type := (bs.getD 0 0).toNat, dest := (bs.getD 1 0).toNat, src := (bs.getD 2 0).toNat, payload := xs }
  if bs.length < 6 ∨ crc8 (bs.take 5) ≠ bs.getD 5 0 then .headerError
  else if ended ∧ xs.length = len ∧ (bs.drop 6).drop len = pcrcBytes xs then .frame f
  else .payloadError (if len = 0 then 1 else ceilDiv (10 + len) 16)
/-- A receiver reads the symbols of one frame, with CRD pairs anywhere between them (R339, R340). -/
def readFrame (xs : List Sym) : Arrival :=
  match dropCrd xs with
  | .k 27 7 :: rest => let r := dataRun rest; readBytes r.1 (decide (r.2 = [.k 29 7]))
  | _ => .headerError
/-- What a port sends: TRN sets in TRAIN; the latest frame, or IDLE, and its count of freed credits while UP; nothing while DOWN (R338, R339,
R345). -/
def State.lineOut (s : State) (p : Nat) : List Sym :=
  match s.pState p with
  | 1 => trnSyms (s.fld (.linkPStat p) 5 4) (s.fld .linkCfg 25 24)
  | 2 => ((s.lport p).out.map frameSyms).getD idleSyms ++ crdSyms (s.lport p).freed
  | _ => []

end Sys2Proof.Machine
end

