-- ==== Sys2Proof/Machine/Pads.lean ====
section
/-! DEFINITION. What each ball of the package does, as a function of the state (R43, R44, R241): a pad holds nothing of its own. -/

namespace Sys2Proof.Machine

/-- The groups of balls of *Ball functions* (R43) that are more than supplies and ground. -/
inductive Ball where
  | ap (n : Nat) | ex (x : Nat) | refx | beo (k : Nat) | vref | xin | xl
  | haBus | haCs | haIo | hbTx | hbRx | hbDe | hbBus | psel | irq (p : Port)
  | lvdsTx (p : Nat) | lvdsRx | buckSw | sync | evt (p : Nat) | gp (p : Nat)
  | sbBus | sbClk | sbMiso | sbCs (k : Nat) | control | test | debug
deriving DecidableEq, Repr

/-- What a pad does: high impedance, pulled up or down, driven low or high, pulled low where an open drain is on, under a unit of the hub
(the matrix, a driver, an oscillator, a bus protocol), terminated, off, not read, pulled down and not read, isolated; and the regulator's switch node in either mode (R43, R44). -/
inductive Pad where
  | z | up | down | low | high | unit | terminated | off | inert | downInert | isolated | linear | buck
deriving DecidableEq, Repr

/-- Supply domain that isolates a ball while it is below 1.2 V: VIO_B or VIO_S (R43, R44). -/
def Ball.isolated (s : State) : Ball → Bool
  | .hbTx | .hbRx | .hbDe | .hbBus | .irq .b => !s.bit .supStatus 1
  | .sync | .evt _ | .gp _ | .sbBus | .sbClk | .sbMiso | .sbCs _ => !s.vioS
  | _ => false
/-- Column "In reset" (R43), which holds until the boot has configured the pads. -/
def Ball.inReset : Ball → Pad
  | .ap _ | .ex _ | .refx | .beo _ | .haBus | .haIo | .hbBus | .irq _ | .lvdsTx _ | .sbBus => .z
  | .vref | .xin | .xl => .off
  | .lvdsRx => .terminated
  | .haCs | .hbTx | .hbRx | .sbCs _ | .control => .up
  | .hbDe | .sync | .evt _ | .gp _ | .sbClk | .sbMiso | .test | .debug => .down
  | .psel => .unit
  | .buckSw => .linear
/-- A pad that a unit of the hub drives where a condition holds. -/
def Pad.when (b : Bool) (p q : Pad) : Pad := if b then p else q
/-- Column "In CONFIG" (R43) and what the configured function makes of it afterwards. The EVT pins follow R239 and R241 (an open drain is
released in EBB and HOLD), the SYNC pin R172, the
interrupt pins R247, HB_DE R330, the switch node REG_STATUS.IN_BUCK, the emulator's balls R399 and R403. The table gives HB_TX, HB_RX and
HB_DE for UART only, and HB_SCL and HB_SDA as PSEL_B says: with the other straps they stay as in reset (DESIGN CHOICE, log entry 172). -/
def Ball.configured (s : State) : Ball → Pad
  | .ap n => .when (decide (s.role n ≠ 0)) .unit .z
  | .ex x => .when (s.drv x).on .unit .z
  | .refx => .when (s.bit .beoCtrl 9 && !s.shut && decide (s.pwr.st ≠ .hold ∧ s.proto.dev ≠ .fault)) .unit .z
  | .beo k => .when (if k = 0 then s.beo0.on else s.beo1.on) .unit .z
  | .vref => .unit
  | .xin => .when (s.bit .clkStatus 1 || s.clk.xin) .unit .off
  | .xl => .when (s.bit .clkCtrl 7) .unit .off
  | .haBus => .unit
  | .haCs => .when (decide (s.hostIf.strapA = .gnd)) .up .z
  | .haIo => .z
  | .hbTx => if s.uartB then .when ((s.firstReply .b).any fun r => decide (s.txAt r ≤ s.clk.frc)) .unit .high else .up
  | .hbRx => .up
  | .hbDe => if s.uartB then .when s.deHigh .high .low else .down
  | .hbBus => .when (decide (s.hostIf.strapB ≠ .gnd)) .unit .z
  | .psel => .inert
  | .debug => .downInert
  | .buckSw => .when (s.bit .regStatus 0) .buck .linear
  | .irq p => .when (s.irqPin p) .low .z
  | .lvdsTx p => .when (s.bit .linkCfg p) .unit .z
  | .lvdsRx => .terminated
  | .sync => if s.bit .sluSyncCtrl 4 then .when s.syncPin .high .low else .down
  | .evt p =>
    let level := s.route.evtOut.getLsbD p != s.bit (.routeEvt p) 30
    if !s.bit (.routeEvt p) 31 then .down
    else if s.bit (.routeEvt p) 26 then .when (level || !s.fabricOn) .z .low
    else .when level .high .low
  | .gp _ | .sbMiso | .test => .down
  | .sbBus => .z
  | .sbClk => .low
  | .sbCs k => .when ((List.range 8).any fun j => (s.poll j).busy && !(s.poll j).cut && s.bit (.sbusSpCfg j) 29 && (s.bit (.sbusSpCfg j) 28 == (k == 1))) .low .high
  | .control => .up
/-- What a ball does (R43, R44, R241): isolated where its domain is absent, as in reset during a boot and, for the EVT pins, in OFF; no
clock, driver or emulator runs in OFF (R369, R375). -/
def State.pad (s : State) (b : Ball) : Pad :=
  if b.isolated s then .isolated
  else if s.proto.dev = .boot ∨ s.pwr.st = .off then b.inReset
  else b.configured s

end Sys2Proof.Machine
end

