-- ==== Sys2Proof/Safety.lean ====
section
/-! DEFINITION. The terms in which claims about runs are made: the memories in canonical form, a packet that passes steps 1 to 7 of
R300, the state on which its command then runs, the reply it leaves, what a command leaves alone. -/

namespace Sys2Proof.Machine

/-- The memories are in canonical form: addresses rising, no entry equal to what an unlisted address reads as. -/
def State.memoriesWf (s : State) : Bool := memWf s.sram 0 && memWf s.otp 0 && memWf s.coef 0
/-- The registers and run-time records are stored under rising keys. -/
def State.keysWf (s : State) : Bool :=
  keysRise s.regs && keysRise s.chains && keysRise s.past && keysRise s.drivers && keysRise s.sources && keysRise s.ds &&
  keysRise s.dets && keysRise s.stats && keysRise s.melds && keysRise s.queues && keysRise s.syncLast && keysRise s.polls
/-- A state that a run can reach holds its data in canonical form and no tag outside R292. -/
def State.wf (s : State) : Bool := s.memoriesWf && s.keysWf && s.proto.tags.all fun t => decide (t.1 < 96)

/-- The state on which the command of an admitted packet runs: its transfers have shown their status bytes, the owner's lease is renewed,
its tag is in flight (R293, R306, R320). -/
def State.ready (s : State) (h : Hdr) (c : HostCmd) : State :=
  ((s.portSent h c).renew h).takeTag h
/-- A packet from a local port for this node that passes steps 1 to 7 of R300: the port is open, the hub is in RUN with no power
entry under way, the TAG is legal and free, the command is legal in the device state, no long command stands in its way, and its source
owns the semaphore where it needs it. -/
def Admitted (h : Hdr) (c : HostCmd) (s : State) : Prop :=
  (∃ p, h.src = .port p ∧ s.portOpen p = true ∧ (s.portSent h c).writing p = true) ∧ s.pwr.st = .run ∧ s.pwr.entering = false ∧ s.proto.factory = false ∧
  s.proto.dev ≠ .boot ∧ h.known = true ∧ h.fit = true ∧ h.tag < 96 ∧ s.tagBusy h.tag = false ∧
  (h.node = 0x40 ∨ s.nodeAddr = some h.node) ∧ (s.ready h c).gate h c = none
/-- A REG_WRITE of a word to a register that passes steps 1 to 9 of R300. -/
def Accepted (h : Hdr) (r : Reg) (v : W32) (s : State) : Prop :=
  Admitted h (.regWrite r.addr v) s ∧ (s.ready h (.regWrite r.addr v)).checkReg h.src r v = none
/-- The reply to a local packet (R286, R303). -/
def replyOf (h : Hdr) (node : Nat) (st : Status) (data : List Byte) : Reply :=
  { src := h.src, tag := h.tag, node := node, status := st, data := data, frees := true }
/-- The reply queue of `u` is that of `s` with one reply more, which is ready as `u` is reached. -/
def Replies (h : Hdr) (st : Status) (data : List Byte) (s u : State) : Prop :=
  u.proto.replies = s.proto.replies ++ [{ replyOf h (s.nodeAddr.getD 0x40) st data with ready := u.clk.frc }]
/-- `u` is `s` after an answer: beyond it only the transfers of the ports, the lease's deadline, the tags in flight and the reply queue have
moved, the interrupt lines may have been evaluated before the reply, and a port's reply-queue source may have fired (R244, R254, R293, R294,
R306, R320). -/
def AnsweredFrom (s u : State) : Prop :=
  ∃ y x a b r d ts rp, (y = s ∨ y = s.irqSettle) ∧ (x = y ∨ x = y.irqFire 64 ∨ x = y.irqFire 65) ∧
    u = { x with hostIf := { x.hostIf with busA := a, busB := b, rxAt := r }
                 proto := { x.proto with deadline := d, tags := ts, replies := rp } }
/-- A command's own effect leads from `s` to `u`, and what follows every command (the save of a changed item of the AO list, the
balance loop's output, the interrupt lines, commands held by a power entry) follows on `u`. -/
def Leads (i : Instr) (s u : State) : Prop := exec i s = .next (State.finish s u)
/-- A command answers OK with data, and its own effect leads from `s` to `w`. -/
def Answers (i : Instr) (h : Hdr) (data : List Byte) (s w : State) : Prop :=
  ∃ u, Leads i s u ∧ Replies h .ok data s u ∧ AnsweredFrom w u
/-- A command is refused with a status and data and changes nothing but, for STATE_CONFLICT, their count (R304). -/
def Refuses (i : Instr) (h : Hdr) (st : Status) (data : List Byte) (s : State) : Prop :=
  ∃ u, Leads i s u ∧ Replies h st data s u ∧
    AnsweredFrom (if st = .stateConflict then s.satAdd .cmdStateRejects 31 0 1 else s) u

end Sys2Proof.Machine
end

