-- ==== Sys2Proof/WellFormed.lean ====
section
/-! DEFINITION. Well-formed commands: what the fields of a packet can spell, and indices of blocks that exist (R286 to R288,
R314, R423). The machine answers every command, well-formed or not; a register row whose index names no register is
answered with BAD_ADDR. -/

namespace Sys2Proof

/-- A header whose TAG and NODE fit a byte (R286). -/
def Hdr.wf (h : Hdr) : Bool :=
  decide (h.tag < 256) && decide (h.node < 256) && decide (h.rx < 2 ^ 64) &&
    (match h.src with | .port _ => true | .link n _ => decide (n < 64))

/-- A frame whose header fields fit (R340). -/
def Frame.wf (f : Frame) : Bool :=
  decide (f.type < 256) && decide (f.dest < 256) && decide (f.src < 256) && decide (f.payload.length ≤ 208)

/-- A register of R100 that exists. -/
def ExcReg.wf : ExcReg → Bool
  | .ctrl x | .level x | .chop x | .pair x => decide (x < 4)
  | .isrc n => decide (n < 8)

/-- A condition of a driver, source or channel that exists (R132). -/
def FaultKind.wf : FaultKind → Bool
  | .low x | .high x | .fsp x | .fsn x | .sat x | .ref x => decide (x < 4)
  | .comp n => decide (n < 8)
  | .cm nn => decide (nn < 24)

/-- A detection that its fields can spell. -/
def Detection.wf (d : Detection) : Bool := d.kind.wf && decide (d.tF < 2 ^ 64)

/-- A command with operands that its fields can spell. -/
def Instr.wf : Instr → Bool
  | .nop h => h.wf
  | .devStatus h => h.wf
  | .swidRead h => h.wf
  | .semTake h lease => h.wf && decide (lease < 65536)
  | .semGive h => h.wf
  | .semStatus h => h.wf
  | .regRead h a => h.wf && decide (a < 2 ^ 32)
  | .regWrite h a _ => h.wf && decide (a < 2 ^ 32)
  | .regReadBlock h a n s => h.wf && decide (a < 2 ^ 32) && decide (n < 65536) && decide (s < 256)
  | .regWriteBlock h a n s vs => h.wf && decide (a < 2 ^ 32) && decide (s < 256) && decide (vs.length = n) && decide (n ≤ 1037)
  | .tableLoad h ofs ws => h.wf && decide (ofs < 2 ^ 32) && decide (ws.length ≤ 518)
  | .tableLoadComplete _ _ => true
  | .chanStart h m => h.wf && decide (m < 2 ^ 24)
  | .chanStop h m => h.wf && decide (m < 2 ^ 24)
  | .chanSync h m => h.wf && decide (m < 256)
  | .queueRead h q n shown _ => h.wf && decide (q < 256) && decide (n < 65536) && decide (shown ≤ n)
  | .clockSet h src ref ndiv msel => h.wf && decide (src < 256) && decide (ref < 256) && decide (ndiv < 256) && decide (msel < 256)
  | .xoStarted => true
  | .refQualified khz => decide (khz < 65536)
  | .pllLocked => true
  | .clockSwitch => true
  | .clockFailTimeout => true
  | .waitCmd h => h.wf
  | .ebbArm h p => h.wf && decide (p.mask < 2 ^ 24)
  | .ebbDisarm h => h.wf
  | .timeRead h => h.wf
  | .timeSet h t frac _ => h.wf && decide (t < 2 ^ 64) && decide (frac < 65536)
  | .timeAdjust h step frac rate sel => h.wf && decide (-(2 ^ 63) ≤ step ∧ step < 2 ^ 63) && decide (frac < 65536) && decide (-(2 ^ 31) ≤ rate ∧ rate < 2 ^ 31) && decide (sel < 256)
  | .linkEnum h => h.wf
  | .enumTimeout => true
  | .seal h => h.wf
  | .unseal h => h.wf
  | .patchLoad h ofs bytes => h.wf && decide (ofs < 2 ^ 32) && decide (1 ≤ bytes.length ∧ bytes.length ≤ 4096)
  | .patchActivate h => h.wf
  | .packetDiscard _ _ _ _ => true
  | .partialPacketDiscard _ _ _ => true
  | .replySent _ _ => true
  | .replyCut _ _ _ => true
  | .leaseExpiry => true
  | .forwardTimeout tag => decide (tag < 96)
  | .clrRej h _ => h.wf
  | .clrErr h _ => h.wf
  | .clrLate h _ => h.wf
  | .powerOnReset _ => true
  | .brownOut _ => true
  | .resetN _ => true
  | .watchdogExpiry _ => true
  | .factoryTestExit _ => true
  | .bootComplete _ => true
  | .sramCleared => true
  | .vrefSettled => true
  | .aoSavePeriodic => true
  | .supplyChange _ _ _ => true
  | .lfSelWrite h _ => h.wf
  | .lfXtalQualified => true
  | .lfLoss => true
  | .refLoss => true
  | .clrLost h _ => h.wf
  | .regCtrlModeWrite h _ => h.wf
  | .buckProbeResult _ => true
  | .tickBoundary => true
  | .chainOrigin nn => decide (nn < 24)
  | .outputBoundary nn xs => decide (nn < 24) && xs.all fun x => decide (-1 ≤ x ∧ x ≤ 1)
  | .engineItem lane _ _ => decide (lane < 4)
  | .modulatorClear nn => decide (nn < 24)
  | .chopReversal x => decide (x < 4)
  | .rampEnd x => decide (x < 4)
  | .hiccupEntry x _ => decide (x < 4)
  | .hiccupRestart x => decide (x < 4)
  | .faultDetect ds => ds.all Detection.wf
  | .faultClear _ _ tF _ => decide (tF < 2 ^ 64)
  | .tempReading q => decide (-(2 ^ 15) ≤ q ∧ q < 2 ^ 15)
  | .learn h x _ => h.wf && decide (x < 4)
  | .learnComplete x i _ => decide (x < 4) && decide (i < 4096)
  | .clrExc h _ => h.wf
  | .clrCm h _ => h.wf
  | .clrTemp h _ => h.wf
  | .clrOvl h _ => h.wf
  | .apCfgWrite h nn _ => h.wf && decide (nn < 48)
  | .excConfigWrite h r _ => h.wf && r.wf
  | .afeTiaFbWrite h nn _ => h.wf && decide (nn < 4)
  | .sysTickDivWrite h _ => h.wf
  | .engPrioWrite h _ => h.wf
  | .clrOvr h _ => h.wf
  | .clrDrop h _ => h.wf
  | .clrMax h _ => h.wf
  | .coefCommit h _ => h.wf
  | .swapRequest h nn _ => h.wf && decide (nn < 24)
  | .swapEdge nn => decide (nn < 24)
  | .syncFire h m => h.wf && decide (m < 256)
  | .syncEdge g _ => decide (g < 8)
  | .syncPinRise _ => true
  | .syncPinPulseEnd => true
  | .sluEccClr h _ => h.wf
  | .pairLoWrite h a _ => h.wf && decide (a < 2 ^ 32)
  | .pairHiCommit h a _ => h.wf && decide (a < 2 ^ 32)
  | .pairLoRead h a => h.wf && decide (a < 2 ^ 32)
  | .sclSpanCommit h nn _ => h.wf && decide (nn < 24)
  | .sclAztCommit h nn _ => h.wf && decide (nn < 24)
  | .sclSshWrite h nn _ => h.wf && decide (nn < 24)
  | .dsEnable h dd _ => h.wf && decide (dd < 16)
  | .dsWtWrite h _ => h.wf
  | .dsWtRead h => h.wf
  | .linCfgWrite h s _ => h.wf && decide (s < 40)
  | .detectorReset h _ => h.wf
  | .detectorLatch x => decide (x < 8)
  | .statEnaWrite h _ => h.wf
  | .statLatch h _ => h.wf
  | .statLatchEdge ss => decide (ss < 32)
  | .statCntRead h ss => h.wf && decide (ss < 32)
  | .meldEnable h uu _ => h.wf && decide (uu < 16)
  | .meldArm h m => h.wf && decide (m < 2 ^ 16)
  | .meldClr h m => h.wf && decide (m < 2 ^ 16)
  | .meldResRead h uu => h.wf && decide (uu < 16)
  | .meldSlot uu => decide (uu < 16)
  | .gateEdge uu _ => decide (uu < 16)
  | .ztPeriodEnd uu => decide (uu < 16)
  | .aztApply uu => decide (uu < 16)
  | .routeFiring _ _ => true
  | .evtPulseEnd p => decide (p < 8)
  | .gpEdge p _ => decide (p < 8)
  | .wakeNFall => true
  | .tdFire => true
  | .routeFire h w _ => h.wf && decide (w < 2)
  | .routeGset h _ => h.wf
  | .routeGclr h _ => h.wf
  | .routeChWrite h cc _ => h.wf && decide (cc < 64)
  | .routeTdivWrite h _ => h.wf
  | .clrCons h _ => h.wf
  | .clrBudget h _ => h.wf
  | .evtClr h p _ => h.wf && decide (p < 8)
  | .routeEvtWrite h p _ => h.wf && decide (p < 8)
  | .irqPendWrite h t w _ => h.wf && decide (t < 3) && decide (w < 4)
  | .irqMaskWrite h t w _ => h.wf && decide (t < 3) && decide (w < 4)
  | .irqClaim h t => h.wf && decide (t < 3)
  | .irqEoi h t _ => h.wf && decide (t < 3)
  | .irqLostclr h t w _ => h.wf && decide (t < 3) && decide (w < 4)
  | .clrBadeoi h t _ => h.wf && decide (t < 3)
  | .irqCfgWrite h ss _ => h.wf && decide (ss < 128)
  | .seqIrqService _ => true
  | .ibiRepeat _ => true
  | .unitStore => true
  | .pktTicksClose q => decide (q < 16)
  | .windowPrefetch _ _ _ => true
  | .queueEnable h q _ => h.wf && decide (q < 16)
  | .closeQ h q _ => h.wf && decide (q < 16)
  | .flush h q _ => h.wf && decide (q < 16)
  | .flushEffect q => decide (q < 16)
  | .markW h q _ => h.wf && decide (q < 16)
  | .markR h q _ => h.wf && decide (q < 16)
  | .markClr h q _ => h.wf && decide (q < 16)
  | .rewind h q _ => h.wf && decide (q < 16)
  | .skip h q _ => h.wf && decide (q < 16)
  | .resume h q _ => h.wf && decide (q < 16)
  | .clrStky h q _ => h.wf && decide (q < 16)
  | .release h q _ => h.wf && decide (q < 16)
  | .weirThrWrite h q _ => h.wf && decide (q < 16)
  | .moverClr h _ => h.wf
  | .regionWrite h e _ _ => h.wf && decide (e < 16)
  | .regionBoundWrite h _ => h.wf
  | .spiQuadWrite h t _ => h.wf && decide (t < 2)
  | .abortRx h t _ => h.wf && decide (t < 2)
  | .hostClr h t _ => h.wf && decide (t < 2)
  | .hostBBaudWrite h _ => h.wf
  | .uartGapTimeout => true
  | .uartBreak => true
  | .entdaa _ a => decide (a < 128)
  | .setdasa _ a => decide (a < 128)
  | .setnewda _ a => decide (a < 128)
  | .rstdaa _ => true
  | .getpid _ => true
  | .getbcr _ => true
  | .getdcr _ => true
  | .getstatus _ => true
  | .enec _ b => decide (b < 256)
  | .disec _ b => decide (b < 256)
  | .setmwl _ n => decide (n < 65536)
  | .getmwl _ => true
  | .setmrl _ n => decide (n < 65536)
  | .getmrl _ => true
  | .sbusEnable h _ => h.wf
  | .pollDue k => decide (k < 8)
  | .pollComplete k _ _ bytes => decide (k < 8) && decide (bytes.length ≤ 6)
  | .pollAbandon k => decide (k < 8)
  | .sbusClr h _ => h.wf
  | .portSignalDetect p => decide (p < 2)
  | .trainComplete p _ => decide (p < 2)
  | .trainTimeout p => decide (p < 2)
  | .trainRetry p => decide (p < 2)
  | .signalLoss p => decide (p < 2)
  | .headerCrcError p _ _ => decide (p < 2)
  | .frameCrcError p _ _ => decide (p < 2)
  | .retrainU h _ => h.wf
  | .retrainD h _ => h.wf
  | .linkClrStky h _ => h.wf
  | .linkClrErr h _ => h.wf
  | .crd p _ _ => decide (p < 2)
  | .creditTimeout p _ => decide (p < 2)
  | .cmdFrame p f _ _ => decide (p < 2) && f.wf
  | .rplFrame p f _ => decide (p < 2) && f.wf
  | .recFrame p f _ _ => decide (p < 2) && f.wf
  | .ackFrame p f => decide (p < 2) && f.wf
  | .evtFrame p f => decide (p < 2) && f.wf
  | .synFrame p f => decide (p < 2) && f.wf
  | .timFrame p f _ => decide (p < 2) && f.wf
  | .enuFrame p f => decide (p < 2) && f.wf
  | .helFrame p f => decide (p < 2) && f.wf
  | .frameForward p f => decide (p < 2) && f.wf
  | .recSend _ _ => true
  | .ackTimeout q => decide (q < 16)
  | .linkSyncFire h _ => h.wf
  | .timSend => true
  | .servoBlock => true
  | .holdoverTimeout => true
  | .masterTimeout => true
  | .reacq h _ => h.wf
  | .timeClrStky h _ => h.wf
  | .clrCnt h _ => h.wf
  | .timeNowRead h => h.wf
  | .powerEntry _ => true
  | .entryReplyTimeout => true
  | .wake _ => true
  | .wakeReady => true
  | .wakeTimer => true
  | .dozeService => true
  | .pwrWakeClr h _ => h.wf
  | .ebbCycle => true
  | .ebbResult rs fs => decide (rs.length ≤ 8) && fs.all Detection.wf
  | .sealNChange _ => true
  | .sealCalc h _ => h.wf
  | .sealClrStky h _ => h.wf
  | .beoEnable h k _ => h.wf && decide (k < 2)
  | .beoCtrlHold h _ => h.wf
  | .beoCtrlRelease h _ => h.wf
  | .beoClrStky h _ => h.wf
  | .beoLock h _ => h.wf
  | .holdTicksExpiry k => decide (k < 2)
  | .loopEnable h _ => h.wf
  | .overRangeFlag nn _ => decide (nn < 24)
  | .overloadTimerClear x _ => decide (x < 4)
  | .sealComplete _ stuck _ => decide (stuck.length ≤ 32)
  | .patchVerificationEnd _ => true
  | .calcComplete _ => true
  | .uartRxResync => true
  | .ebbSettleEnd => true
  | .firmwareMemoryError => true

end Sys2Proof
end

