-- ==== Sys2Proof/Certificates/Slice0/Obligations.lean ====
section
/-! DEFINITION. The statements put to the provers. Most say that a command answers a next state, and which: `Leads i s u` says that the
command's own effect leads from `s` to `u`, on which what follows every command follows (statement WhatFollowsEveryCommand says what
that leaves alone); `AnsweredFrom w u` says that `u` is the state `w`, spelled out in the statement, but for the answer's own traces. So
every such statement is its own frame. `Admitted` and `Accepted` say that a packet passes steps 1 to 7, and 1 to 9, of R300. -/

open Sys2Proof Sys2Proof.Machine

/-! ### The machine -/

/-- A step with a command waiting runs the front one on the state whose queue is the rest. With none waiting the time base moves on (a
DESIGN CHOICE, log entry 3). -/
def Obligations.StepRunsTheFrontCommand : Prop :=
  (∀ (c : Instr) (rest : List Instr) (s : State), s.pending = c :: rest → step s = exec c { s with pending := rest }) ∧
  ∀ s : State, s.pending = [] → step s = .next (State.finish s s.idle)

/-- The requests of both interrupt lines as last evaluated, from which the in-band interrupts of an I3C port follow (R254), are the
requests of R247 in the state at hand. -/
def Claims.LinesEvaluated (s : State) : Prop := s.irq.lineA = s.line 0 ∧ s.irq.lineB = s.line 1
/-- The state after power-on reset: registers at the values of the register tables (R426; log entries name those the tables do not give),
BOOT, no command waiting, semaphore free, chains IDLE, queues empty, no interrupt pending, FRC at 0, memories empty. Both interrupt lines
are evaluated. -/
def Obligations.ResetHoldsItsValues : Prop :=
  Claims.LinesEvaluated State.reset ∧ ((∀ r : Reg, State.reset.reg r = r.reset) ∧ State.reset.wf = true ∧ State.reset.pending = [] ∧
  State.reset.proto.dev = .boot ∧ State.reset.proto.owner = none ∧ State.reset.proto.tags = [] ∧ State.reset.proto.replies = [] ∧
  (∀ n, (State.reset.ch n).st = .idle) ∧ (∀ q, (State.reset.queue q).w = 0 ∧ (State.reset.queue q).pkt = none) ∧
  State.reset.irq.pend = 0 ∧ State.reset.clk.frc = 0 ∧ State.reset.pwr.st = .run ∧
  (∀ a, State.reset.sramByte a = 0) ∧ (∀ a, State.reset.otpByte a = 0) ∧ State.reset.onPll = false)

/-- What follows every command touches the copies of the save area, the balance loop with its outputs and event, the interrupt
controller and its lost-event bits, and has the gates of the Meld units and the routing channels note what has reached them. Where the
loop is off, of all that only the copies, the lines as last evaluated with what hangs on their rise, the edges of gates and the judgement
of waiting events move, with what the channels ask at an MCLK edge: a copy only with an item of the save list, an edge only at a unit that
is enabled, a judgement only of an event that has none, what is asked at an edge only where time has reached one. No held command is assumed here (LinesEvaluatedByEveryStep holds with them). -/
def Obligations.WhatFollowsEveryCommand : Prop :=
  ∀ old s : State, s.proto.held = [] →
    (∃ a b z r i w b0 b1 l p e m k,
      State.finish old s =
        { s with clk := { s.clk with copyA := a, copyB := b, savedAt := z }, regs := r, irq := i, weir := w, beo0 := b0, beo1 := b1
                 loop := l, route := { s.route with pend := p, edge := e }, melds := m, freeCtr := k } ∧
      (s.clk.mclk ≤ old.clk.mclk → e = s.route.edge) ∧
      (∀ q : Reg, decodeAddr q.addr = some q → (∀ t w, q ≠ .irqLost t w) → (State.finish old s).reg q = s.reg q) ∧
      (∀ u, ∃ g, (State.finish old s).meld u = { s.meld u with gateIn := g }) ∧
      (s.aoItems = old.aoItems → a = s.clk.copyA ∧ b = s.clk.copyB ∧ z = s.clk.savedAt)) ∧
    (s.loop.st = 0 → ∃ a b z la lb ca cb ib ia ja p e m k,
      State.finish old s =
        { s with clk := { s.clk with copyA := a, copyB := b, savedAt := z }
                 irq := { s.irq with lineA := la, lineB := lb, claimedA := ca, claimedB := cb, ibis := ib, ibiA := ia, ibiB := ja }
                 route := { s.route with pend := p, edge := e }, melds := m, freeCtr := k } ∧
      ((∀ e ∈ s.route.pend, e.seen.isSome = true) → p = s.route.pend) ∧
      ((∀ u, u < 16 → s.muOn u = false) → m = s.melds ∧ k = s.freeCtr))

/-- Every command and event completes: whatever the state, it answers a next state, which keeps the rest of the queue and has both
interrupt lines evaluated. -/
def Claims.EveryCommandCompletes : Prop :=
  ∀ (i : Instr) (s : State), ∃ t, exec i s = .next t ∧ t.pending = s.pending ∧ Claims.LinesEvaluated t
/-- After every step, of a command or of an idle queue, both interrupt lines are evaluated. No command ends in a fault or a refusal:
every one answers a next state and leaves the rest of the queue to the next steps. -/
def Obligations.LinesEvaluatedByEveryStep : Prop :=
  Claims.EveryCommandCompletes ∧ ∀ s t : State, Claims.LinesEvaluated s → step s = .next t → Claims.LinesEvaluated t

/-! ### Packets (R286 to R288, R314) -/

/-- The command that a row of the opcode reference carries. -/
def Claims.packetOf : Instr → Option (Hdr × HostCmd)
  | .nop h => some (h, .nop)
  | .devStatus h => some (h, .devStatus)
  | .swidRead h => some (h, .swidRead)
  | .semTake h l => some (h, .semTake l)
  | .semGive h => some (h, .semGive)
  | .semStatus h => some (h, .semStatus)
  | .regRead h a => some (h, .regRead a)
  | .regWrite h a v => some (h, .regWrite a v)
  | .regReadBlock h a n s => some (h, .regReadBlock a n s)
  | .regWriteBlock h a n s vs => some (h, .regWriteBlock a n s vs)
  | .tableLoad h o ws => some (h, .tableLoad o ws)
  | .chanStart h m => some (h, .chanStart m)
  | .chanStop h m => some (h, .chanStop m)
  | .chanSync h m => some (h, .chanSync m)
  | .queueRead h q n shown bad => some (h, .queueRead q n shown bad)
  | .clockSet h a b c d => some (h, .clockSet a b c d)
  | .waitCmd h => some (h, .wait)
  | .ebbArm h p => some (h, .ebbArm p)
  | .ebbDisarm h => some (h, .ebbDisarm)
  | .timeRead h => some (h, .timeRead)
  | .timeSet h t f force => some (h, .timeSet t f force)
  | .timeAdjust h st f r sel => some (h, .timeAdjust st f r sel)
  | .linkEnum h => some (h, .linkEnum)
  | .seal h => some (h, .seal)
  | .unseal h => some (h, .unseal)
  | .patchLoad h o bs => some (h, .patchLoad o bs)
  | .patchActivate h => some (h, .patchActivate)
  | _ => none
/-- What the hardware adds to a QUEUE_READ and its packet does not carry. -/
def Claims.shownOf : HostCmd → Nat × Option Nat
  | .queueRead _ _ shown bad => (shown, bad)
  | _ => (0, none)

/-- The receiver reads a reply back as its NODE, TAG, STATUS and data (R286 to R288, R303). -/
def Claims.RepliesReadBack : Prop :=
  ∀ r : Reply, r.node < 256 → r.tag < 256 → r.data.length < 65533 →
    unframe 0x5a (replyBytes r) = some (r.node, r.tag, statusCode r.status, r.data) ∧ statusOf (statusCode r.status) = some r.status
/-- The receiver reads the packet of every well-formed command of the opcode reference as that command: frame, NODE, TAG, OPCODE, CRC
and every parameter at every value that its bytes can spell. A tag or node keeps its low byte, which is all of it where the header is
well-formed. So is a reply: NODE, TAG, STATUS and data (R286 to R288, R303). -/
def Obligations.PacketsReadBack : Prop :=
  Claims.RepliesReadBack ∧ (∀ (i : Instr) (h : Hdr) (c : HostCmd), i.wf = true → Claims.packetOf i = some (h, c) →
    unframe 0xa5 (packetBytes h c) = some (h.node, h.tag, opcodeOf c, paramsOf c) ∧
    commandOf (opcodeOf c) (paramsOf c) (Claims.shownOf c).1 (Claims.shownOf c).2 = c ∧
    paramLen (opcodeOf c) (paramsOf c) = some (paramsOf c).length)

/-! ### The interface (R289 to R313) -/

/-- Steps 1 to 3 of R300 at a local port: the first failure decides the status, and nothing else happens but the answer. -/
def Obligations.FirstChecksAnswer : Prop :=
  ∀ (h : Hdr) (c : HostCmd) (p : Port) (s : State) (body : State → Res) (st : Status),
    h.src = .port p → s.portOpen p = true → (s.portSent h c).writing p = true → s.pwr.st = .run → s.proto.factory = false → s.proto.dev ≠ .boot →
    ((h.known = false ∧ st = .badOpcode) ∨ (h.known = true ∧ h.fit = false ∧ st = .badLen) ∨
      (h.known = true ∧ h.fit = true ∧ 96 ≤ h.tag ∧ st = .badTag) ∨
      (h.known = true ∧ h.fit = true ∧ h.tag < 96 ∧ s.tagBusy h.tag = true ∧ st = .tagInUse)) →
    AnsweredFrom s (s.submit h c body) ∧
    ∃ frees, (s.submit h c body).proto.replies = s.proto.replies ++
      [{ src := h.src, tag := h.tag, node := s.nodeAddr.getD 0x40, status := st, data := [], frees := frees, ready := s.clk.frc }]

/-- An address that a port may write without the semaphore: its own target's registers of the interrupt controller, and CTRL and REL of a
queue that it owns (R246, R273, R302). -/
def Claims.ownWrite (s : State) (p : Port) (a : Nat) : Prop :=
  ∃ r : Reg, decodeAddr a = some r ∧
    ((∃ w, r = .irqPend (portIx p) w ∨ r = .irqMask (portIx p) w ∨ r = .irqLostclr (portIx p) w) ∨ r = .irqEoi (portIx p) ∨ r = .irqCtrl (portIx p) ∨
     ∃ q, (r = .weirCtrl q ∨ r = .weirRel q) ∧ s.qOwner q = 1 + portIx p)
/-- The words that a command writes: one for REG_WRITE, those of the block for REG_WRITE_BLOCK (R312). -/
def Claims.writtenBy : HostCmd → List Nat
  | .regWrite a _ => [a]
  | .regWriteBlock a n sp _ => (List.range n).map fun k => a + 4 * (if sp = 0 then k else k % sp)
  | _ => []
/-- The opcodes that each device state takes (R297 to R299, R314): none in BOOT; all but EBB_DISARM in CONFIG; in RUN neither those of Ebb mode
nor those of a patch; in EBB_ACTIVE and FAULT a few, and writes to the addresses that the state allows. -/
def Claims.LegalCommands : Prop :=
  ∀ (s : State) (src : Src) (c : HostCmd),
    let op := opcodeOf c
    let irq (a : Nat) : Prop := 0x90000 ≤ a ∧ a < 0xa0000
    let write : Prop := op = 0x11 ∨ op = 0x13
    s.legal src c = true ↔
      (s.proto.dev = .config ∧ op ≠ 0x3a) ∨
      (s.proto.dev = .run ∧ op ∉ [0x39, 0x3a, 0x58, 0x59]) ∨
      (s.proto.dev = .ebb ∧ (op ∈ [0x00, 0x01, 0x02, 0x08, 0x09, 0x0a, 0x10, 0x12, 0x28, 0x38, 0x3a, 0x40] ∨
        (write ∧ ∀ a ∈ Claims.writtenBy c, irq a ∨ decodeAddr a = some .pwrMode ∨ decodeAddr a = some .semCfg ∨
          ∃ p q, src = .port p ∧ (decodeAddr a = some (.weirCtrl q) ∨ decodeAddr a = some (.weirRel q)) ∧ s.qOwner q = 1 + portIx p))) ∨
      (s.proto.dev = .fault ∧ (op ∈ [0x00, 0x01, 0x02, 0x08, 0x09, 0x0a, 0x10, 0x12, 0x40] ∨ (write ∧ ∀ a ∈ Claims.writtenBy c, irq a)))
/-- The commands that need the semaphore (R302, R314): all but queries, SEM_TAKE, register reads, TIME_READ, writes of which every word needs
none, and QUEUE_READ by the port that owns the queue. -/
def Claims.SemaphoreNeeds : Prop :=
  ∀ (s : State) (src : Src) (c : HostCmd),
    s.needsSem src c = false ↔
      opcodeOf c ∈ [0x00, 0x01, 0x02, 0x08, 0x0a, 0x10, 0x12, 0x40] ∨
      ((opcodeOf c = 0x11 ∨ opcodeOf c = 0x13) ∧ ∀ a ∈ Claims.writtenBy c, ∃ p, src = .port p ∧ Claims.ownWrite s p a) ∨
      ∃ q n shown bad p, c = .queueRead q n shown bad ∧ src = .port p ∧ s.qOwner q = 1 + portIx p
/-- What each long command in progress refuses (R295). -/
def Claims.LongsRefuse : Prop :=
  ∀ (s : State) (src : Src) (c : HostCmd) (op : LongOp),
    s.blockedBy src c op = true ↔
      match op with
      | .clockSet => opcodeOf c ∈ [0x20, 0x30, 0x38, 0x39]
      | .tableLoad _ _ => opcodeOf c = 0x18 ∨
        ((opcodeOf c = 0x11 ∨ opcodeOf c = 0x13) ∧ ∃ a ∈ Claims.writtenBy c, 0x10000000 ≤ a ∧ a < 0x10400000)
      | .seal | .unseal | .patchActivate => s.needsSem src c = true
      | .linkEnum => opcodeOf c = 0x48
      | .forward _ _ _ => False
/-- Which commands each device state takes (LegalCommands), which need the semaphore (SemaphoreNeeds), which a long command in progress
refuses (LongsRefuse). Steps 5 to 7 of R300 in their order: a command that is not legal in the device state, one that a long command in progress refuses,
one that needs the semaphore and whose source did not hold it when the packet came are refused. The source held it where it owns it and
its deadline had not come, and where its lease has ended since, at a check after the packet came (R306). -/
def Obligations.GateRefusesInOrder : Prop :=
  Claims.LegalCommands ∧ Claims.SemaphoreNeeds ∧ Claims.LongsRefuse ∧ ∀ (h : Hdr) (c : HostCmd) (s : State),
    (s.legal h.src c = false → s.gate h c = some (s.conflict 0xff 0)) ∧
    (∀ x, s.legal h.src c = true → s.proto.longs.find? (fun x => s.blockedBy h.src c x.2) = some x →
      s.gate h c = some (s.conflict 0x32 (longCode x.2))) ∧
    (s.legal h.src c = true → s.proto.longs.find? (fun x => s.blockedBy h.src c x.2) = none →
      s.gate h c = if s.needsSem h.src c = true ∧ s.ownsAt h = false then some (.notOwner, []) else none) ∧
    (s.ownsAt h = true ↔
      (s.proto.owner = some h.src ∧ h.rx < s.proto.deadline) ∨ ∃ d, s.proto.lapsed = some (h.src, d) ∧ h.rx < d)

/-- Corrected time of the present TCLK period, in ns: by the parameters of the epoch in force, which an epoch that starts with the next
period is not yet (R357, R358). -/
def Claims.timeNow (s : State) : Nat :=
  match s.tim.ended.find? fun e => decide (s.clk.frc < e.1) with
  | some e => corrected e.2.2.1 e.2.2.2 s.clk.frc
  | none => corrected s.tim.ofs s.tim.rate s.clk.frc
/-- NOP, DEV_STATUS, SWID_READ, SEM_STATUS and TIME_READ answer OK with the data of R314 and change nothing. -/
def Obligations.QueriesAnswer : Prop :=
  ∀ (h : Hdr) (s : State),
    (Admitted h .nop s → Answers (.nop h) h [] s s) ∧
    (Admitted h .devStatus s → ∃ d, Answers (.devStatus h) h d s s ∧ d.length = 12 ∧
      d.take 6 = [BitVec.ofNat 8 (devCode s.proto.dev), BitVec.ofNat 8 s.proto.faultCause, BitVec.ofNat 8 s.sl.sealed.toNat,
        BitVec.ofNat 8 (ownerCode s.proto.owner), BitVec.ofNat 8 (s.nodeAddr.getD 0xff), BitVec.ofNat 8 (s.fld .rstCause 2 0)] ∧
      ∀ n, n < 24 → ((d.getD (6 + n / 4) 0).toNat / 4 ^ (n % 4)) % 4 = chCode (s.ch n).st) ∧
    (Admitted h .swidRead s →
      Answers (.swidRead h) h (leBytes 4 Sys2Proof.romVersion.toNat ++ leBytes 4 s.patchIdNow ++ leBytes 4 s.codeCrcNow.toNat) s s) ∧
    (Admitted h .semStatus s →
      Answers (.semStatus h) h (leBytes 4 s.semStatusWord.toNat ++ leBytes 2 (s.ready h .semStatus).leaseLeft) s s) ∧
    (Admitted h .timeRead s → Answers (.timeRead h) h (leBytes 8 (Claims.timeNow s) ++ leBytes 8 s.clk.frc) s s)

/-- A command answers OK with data; of its effect the listed registers take the listed words, every other register keeps its word, and
nothing else changes. -/
def Claims.Sets (i : Instr) (h : Hdr) (data : List Byte) (s : State) (l : List (Reg × W32)) : Prop :=
  ∃ rs, Answers i h data s { s with regs := rs } ∧
    ∀ q : Reg, decodeAddr q.addr = some q → cellGet rs q.addr q.reset = (l.lookup q).getD (s.reg q)

/-- R307: the first check at or after the deadline frees the semaphore, sets EXP of a local owner and fires source 66 or 67; a link
source's lease ends without them; before the deadline, or while nothing is held, in BOOT and in the power states in which the sequencer
does not run the check does nothing. -/
def Claims.LeaseExpires : Prop :=
  ∀ (s : State) (o : Src),
    let free : Proto := { s.proto with owner := none, staging := s.proto.staging.filter fun x => decide (x.1 ≠ o)
                                       lapsed := some (o, s.proto.deadline) }
    (s.proto.owner = some o → s.proto.deadline ≤ s.clk.frc → s.pwr.st = .run ∨ s.pwr.st = .doze → s.proto.dev ≠ .boot →
      (o = .port .a → Leads .leaseExpiry s (({ s with proto := { free with expA := true } } : State).irqFire 66)) ∧
      (o = .port .b → Leads .leaseExpiry s (({ s with proto := { free with expB := true } } : State).irqFire 67)) ∧
      (∀ n p, o = .link n p → Leads .leaseExpiry s { s with proto := free })) ∧
    (s.proto.owner = none ∨ s.clk.frc < s.proto.deadline ∨ s.proto.dev = .boot ∨ (s.pwr.st ≠ .run ∧ s.pwr.st ≠ .doze) →
      Leads .leaseExpiry s s)
/-- R305: SEM_TAKE grants a free semaphore, renews the lease of its holder, is refused while another source holds it; the lease of 0 takes
SEM_CFG.LEASE, one outside 10 to 60,000 is refused; SEM_GIVE frees the semaphore, and a source that did not hold it is refused (R306).
R307: the first check at or after the deadline frees the semaphore, sets EXP of a local owner and fires source 66 or 67; a link source's
lease ends without them; before the deadline, or while nothing is held, in BOOT and while the sequencer does not run the check does
nothing. -/
def Obligations.SemaphoreIsTakenAndGiven : Prop :=
  Claims.LeaseExpires ∧ (∀ (h : Hdr) (lease : Nat) (s : State),
    (Admitted h (.semTake lease) s → s.proto.owner = none ∨ s.proto.owner = some h.src →
      lease = 0 ∨ (10 ≤ lease ∧ lease ≤ 60000) →
      let l := if lease = 0 then s.fld .semCfg 15 0 else lease
      let fresh : Bool := decide (s.proto.owner = none)
      let g := if fresh then (s.proto.gen + 1) % 65536 else s.proto.gen
      ∃ u, Leads (.semTake h lease) s u ∧ Replies h .ok (leBytes 2 g ++ leBytes 2 l) s u ∧ u.proto.deadline = h.rx + l * 24576 ∧
        AnsweredFrom
          { s with proto := { s.proto with owner := some h.src, lease := l, gen := g
                                           lapsed := if fresh then none else s.proto.lapsed
                                           expA := s.proto.expA && !(fresh && decide (h.src = .port .a))
                                           expB := s.proto.expB && !(fresh && decide (h.src = .port .b)) } } u) ∧
    (Admitted h (.semTake lease) s → s.proto.owner.isSome = true → s.proto.owner ≠ some h.src →
      Refuses (.semTake h lease) h .semHeld
        (leBytes 4 s.semStatusWord.toNat ++ leBytes 2 (s.ready h (.semTake lease)).leaseLeft) s) ∧
    (Admitted h (.semTake lease) s → s.proto.owner = none ∨ s.proto.owner = some h.src →
      (1 ≤ lease ∧ lease ≤ 9) ∨ 60000 < lease → Refuses (.semTake h lease) h .badParam [] s) ∧
    (Admitted h .semGive s → (s.proto.owner = some h.src ∨ ∃ d, s.proto.lapsed = some (h.src, d)) ∧
      Answers (.semGive h) h (leBytes 2 s.proto.gen) s
        { s with proto := { s.proto with owner := none, staging := s.proto.staging.filter fun x => decide (some x.1 ≠ s.proto.owner)
                                         lapsed := none } }) ∧
    (s.legal h.src .semGive = true → s.proto.longs.find? (fun x => s.blockedBy h.src .semGive x.2) = none →
      s.proto.owner ≠ some h.src → (∀ d, s.proto.lapsed ≠ some (h.src, d)) → s.gate h .semGive = some (.notOwner, [])))

/-- Registers that a host sets and that no rule changes otherwise: what is read is what is stored. -/
def Claims.setting : Reg → Bool
  | .sysTickDiv | .apCfg _ | .apChsel _ | .excLevel _ | .excChop _ | .isrcCfg _ | .afeCfg _ | .monCm _ | .sluCic _ | .sluFir _
  | .sluRank _ | .sluIir _ | .sluRate _ | .sluSh _ | .sclCfg _ | .linTbl _ | .dtCoef _ | .statCfg _ | .statPer _ | .meldGate _
  | .meldP0 _ | .meldP1 _ | .meldP2 _ | .meldP3 _ | .routeCh _ | .routeSet _ | .routeCm _ | .routeQt _ | .routeRem _ | .irqCfg _
  | .weirCfg _ | .weirArea _ | .weirPkt _ | .weirThr _ | .regionBound | .hostBBaud | .sbusSpCfg _ | .linkCfg | .timeSrvPri
  | .timeJumpLimit | .pwrWakeEn | .pwrTimer | .ebbPulse | .sealMetro | .beoScale _ | .beoHval _ => true
  | _ => false
/-- REG_READ (R312, R313): a set register reads as it stands, a window word as its four bytes, an OTP word likewise; an address that is
not a multiple of 4 or that nothing occupies is refused; a window word is refused before SRAM_READY, by the region table, and by an
uncorrectable error, the last two recorded by MV7. A single-bit error that its read corrects is counted (R21). -/
def Obligations.RegisterReads : Prop :=
  ∀ (h : Hdr) (a : Nat) (s : State), Admitted h (.regRead a) s →
    (∀ r : Reg, r.addr = a → decodeAddr a = some r → Claims.setting r = true →
      Answers (.regRead h a) h (leBytes 4 (s.reg r).toNat) s s) ∧
    (a % 4 ≠ 0 ∨ (decodeAddr a = none ∧ ¬ (0x10000000 ≤ a ∧ a < 0x10400000) ∧ ¬ (0x20000000 ≤ a ∧ a < 0x20002000)) →
      Refuses (.regRead h a) h .badAddr [] s) ∧
    (a % 4 = 0 → 0x20000000 ≤ a → a < 0x20002000 → Answers (.regRead h a) h ((List.range 4).map fun k => s.otpByte (a + k)) s s) ∧
    (a % 4 = 0 → 0x10000000 ≤ a → a < 0x10400000 →
      (s.bit .bootStatus 0 = false → Refuses (.regRead h a) h .stateConflict [BitVec.ofNat 8 (devCode s.proto.dev), 0xfe, 0] s) ∧
      (s.bit .bootStatus 0 = true → s.allows a 3 = true → h.ecc ≠ some 0 →
        Answers (.regRead h a) h ((List.range 4).map fun k => s.sramByte (a + k)) s
          { s with eng := { s.eng with corrected := s.eng.corrected + if h.fix.contains 0 then 1 else 0 } }) ∧
      (s.bit .bootStatus 0 = true → s.allows a 3 = false →
        ∃ u, Leads (.regRead h a) s u ∧ Replies h .regionFault [] s u ∧ AnsweredFrom (s.moverFault 7 1 0 a) u) ∧
      (s.bit .bootStatus 0 = true → s.allows a 3 = true → h.ecc = some 0 →
        ∃ u, Leads (.regRead h a) s u ∧ Replies h .memEcc [] s u ∧ AnsweredFrom (s.moverFault 7 2 0 a) u))

/-- The REG_WRITE or REG_READ that a row named after a register stands for: the register's address by the address map, the word with the
row's bit. The SYNC fire keeps the pin fields as they stand and has no fixed word. -/
def Claims.accessOf : Instr → Option Instr
  | .learn h x v => some (.regWrite h (0x40000 + 0x20 * x) (v ||| 4))
  | .clrExc h v => some (.regWrite h 0x40200 (v ||| 1))
  | .clrCm h v => some (.regWrite h 0x40200 (v ||| 2))
  | .clrTemp h v => some (.regWrite h 0x40200 (v ||| 4))
  | .clrOvl h v => some (.regWrite h 0x30200 (v ||| 1))
  | .apCfgWrite h n v => some (.regWrite h (0x20000 + 4 * n) v)
  | .excConfigWrite h (.ctrl x) v => some (.regWrite h (0x20200 + 0x40 * x) v)
  | .excConfigWrite h (.level x) v => some (.regWrite h (0x20204 + 0x40 * x) v)
  | .excConfigWrite h (.chop x) v => some (.regWrite h (0x20208 + 0x40 * x) v)
  | .excConfigWrite h (.isrc n) v => some (.regWrite h (0x20400 + 4 * n) v)
  | .excConfigWrite h (.pair p) v => some (.regWrite h (0x20420 + 4 * p) v)
  | .afeTiaFbWrite h n v => some (.regWrite h (0x30100 + 4 * n) v)
  | .sysTickDivWrite h v => some (.regWrite h 0x100 v)
  | .engPrioWrite h v => some (.regWrite h 0x130 v)
  | .clrOvr h v => some (.regWrite h 0x110 (v ||| 1))
  | .clrDrop h v => some (.regWrite h 0x110 (v ||| 2))
  | .clrMax h v => some (.regWrite h 0x110 (v ||| 4))
  | .lfSelWrite h v => some (.regWrite h 0x10000 v)
  | .clrLost h v => some (.regWrite h 0x10000 (v ||| 0x10000))
  | .regCtrlModeWrite h v => some (.regWrite h 0x10010 v)
  | .coefCommit h v => some (.regWrite h 0x51808 v)
  | .swapRequest h n v => some (.regWrite h (0x50018 + 0x100 * n) (v ||| 0x80000000))
  | .sluEccClr h v => some (.regWrite h 0x51834 (v ||| 0x80000000))
  | .pairLoWrite h a v => some (.regWrite h a v)
  | .pairHiCommit h a v => some (.regWrite h a v)
  | .pairLoRead h a => some (.regRead h a)
  | .sclSpanCommit h n v => some (.regWrite h (0x60010 + 0x20 * n) v)
  | .sclAztCommit h n v => some (.regWrite h (0x60018 + 0x20 * n) v)
  | .sclSshWrite h n v => some (.regWrite h (0x60000 + 0x20 * n) v)
  | .linCfgWrite h n v => some (.regWrite h (0x60400 + 4 * n) v)
  | .dsEnable h d v => some (.regWrite h (0x60800 + 4 * d) v)
  | .dsWtWrite h v => some (.regWrite h 0x60908 v)
  | .dsWtRead h => some (.regRead h 0x60908)
  | .detectorReset h v => some (.regWrite h 0x60a80 v)
  | .statEnaWrite h v => some (.regWrite h 0x60d00 v)
  | .statLatch h v => some (.regWrite h 0x60d04 v)
  | .statCntRead h n => some (.regRead h (0x61000 + 0x40 * n))
  | .meldEnable h u v => some (.regWrite h (0x70000 + 0x40 * u) v)
  | .meldArm h m => some (.regWrite h 0x70400 (BitVec.ofNat 32 (m % 65536)))
  | .meldClr h m => some (.regWrite h 0x70400 (BitVec.ofNat 32 (m % 65536 * 65536)))
  | .meldResRead h u => some (.regRead h (0x7002c + 0x40 * u))
  | .routeFire h w v => some (.regWrite h (0x80200 + 4 * w) v)
  | .routeGset h v => some (.regWrite h 0x80218 v)
  | .routeGclr h v => some (.regWrite h 0x8021c v)
  | .routeChWrite h c v => some (.regWrite h (0x80000 + 4 * c) v)
  | .routeTdivWrite h v => some (.regWrite h 0x80298 v)
  | .clrCons h v => some (.regWrite h 0x80220 (v ||| 2))
  | .clrBudget h v => some (.regWrite h 0x80220 (v ||| 1))
  | .evtClr h p v => some (.regWrite h (0x802e0 + 4 * p) (v ||| 0x8000000))
  | .routeEvtWrite h p v => some (.regWrite h (0x802e0 + 4 * p) v)
  | .irqPendWrite h t w v => some (.regWrite h (0x90400 + 0x100 * t + 4 * w) v)
  | .irqMaskWrite h t w v => some (.regWrite h (0x90410 + 0x100 * t + 4 * w) v)
  | .irqLostclr h t w v => some (.regWrite h (0x90440 + 0x100 * t + 4 * w) v)
  | .irqClaim h t => some (.regRead h (0x90450 + 0x100 * t))
  | .irqEoi h t v => some (.regWrite h (0x90454 + 0x100 * t) v)
  | .clrBadeoi h t v => some (.regWrite h (0x9045c + 0x100 * t) (v ||| 4))
  | .irqCfgWrite h n v => some (.regWrite h (0x90000 + 4 * n) v)
  | .queueEnable h q v => some (.regWrite h (0xa0000 + 0x40 * q) v)
  | .closeQ h q v => some (.regWrite h (0xa0018 + 0x40 * q) (v ||| 2))
  | .flush h q v => some (.regWrite h (0xa0018 + 0x40 * q) (v ||| 4))
  | .markW h q v => some (.regWrite h (0xa0018 + 0x40 * q) (v ||| 8))
  | .markR h q v => some (.regWrite h (0xa0018 + 0x40 * q) (v ||| 0x10))
  | .markClr h q v => some (.regWrite h (0xa0018 + 0x40 * q) (v ||| 0x20))
  | .rewind h q v => some (.regWrite h (0xa0018 + 0x40 * q) (v ||| 0x40))
  | .skip h q v => some (.regWrite h (0xa0018 + 0x40 * q) (v ||| 0x80))
  | .resume h q v => some (.regWrite h (0xa0018 + 0x40 * q) (v ||| 0x100))
  | .clrStky h q v => some (.regWrite h (0xa0018 + 0x40 * q) (v ||| 0x200))
  | .release h q v => some (.regWrite h (0xa001c + 0x40 * q) v)
  | .weirThrWrite h q v => some (.regWrite h (0xa0014 + 0x40 * q) v)
  | .moverClr h v => some (.regWrite h 0xa0480 v)
  | .regionWrite h e false v => some (.regWrite h (0xa0800 + 8 * e) v)
  | .regionWrite h e true v => some (.regWrite h (0xa0804 + 8 * e) v)
  | .regionBoundWrite h v => some (.regWrite h 0xa0900 v)
  | .spiQuadWrite h t v => some (.regWrite h (0xb0000 + 0x100 * t) v)
  | .abortRx h t v => some (.regWrite h (0xb000c + 0x100 * t) (v ||| 2))
  | .hostClr h t v => some (.regWrite h (0xb000c + 0x100 * t) (v ||| 1))
  | .hostBBaudWrite h v => some (.regWrite h 0xb0110 v)
  | .clrRej h v => some (.regWrite h 0xb041c (v ||| 1))
  | .clrErr h v => some (.regWrite h 0xb041c (v ||| 2))
  | .clrLate h v => some (.regWrite h 0xb041c (v ||| 4))
  | .sbusEnable h v => some (.regWrite h 0xb0800 v)
  | .sbusClr h v => some (.regWrite h 0xb0808 (v ||| 1))
  | .retrainU h v => some (.regWrite h 0xc000c (v ||| 1))
  | .retrainD h v => some (.regWrite h 0xc000c (v ||| 2))
  | .linkClrErr h v => some (.regWrite h 0xc000c (v ||| 4))
  | .linkClrStky h v => some (.regWrite h 0xc000c (v ||| 8))
  | .linkSyncFire h v => some (.regWrite h 0xc0040 v)
  | .timeNowRead h => some (.regRead h 0xc0114)
  | .clrCnt h v => some (.regWrite h 0xc0140 (v ||| 1))
  | .timeClrStky h v => some (.regWrite h 0xc0140 (v ||| 2))
  | .reacq h v => some (.regWrite h 0xc0140 (v ||| 4))
  | .pwrWakeClr h v => some (.regWrite h 0x1011c v)
  | .sealClrStky h v => some (.regWrite h 0xd0010 (v ||| 1))
  | .sealCalc h v => some (.regWrite h 0xd0010 (v ||| 2))
  | .beoEnable h k v => some (.regWrite h (0xe0010 + 0x20 * k) v)
  | .beoCtrlHold h v => some (.regWrite h 0xe0000 v)
  | .beoCtrlRelease h v => some (.regWrite h 0xe0000 v)
  | .beoClrStky h v => some (.regWrite h 0xe0000 (v ||| 2))
  | .beoLock h v => some (.regWrite h 0xe0000 (v ||| 0x80000000))
  | .loopEnable h v => some (.regWrite h 0xe0100 v)
  | _ => none
/-- A row named after a register is the REG_WRITE or REG_READ of the register at its address (R309, R312, R423). -/
def Obligations.RowsAreRegisterAccesses : Prop :=
  (∀ i c : Instr, i.wf = true → Claims.accessOf i = some c → ∀ s : State, exec i s = exec c s) ∧
  ∀ (h : Hdr) (m : Nat) (s : State), m < 256 →
    exec (.syncFire h m) s = exec (.regWrite h 0x51830 ((s.reg .sluSyncCtrl &&& 0x17) ||| BitVec.ofNat 32 (m * 0x10000))) s

/-- Registers whose fields a write sets and that have no further rule. -/
def Claims.plain : Reg → Bool
  | .monExcWin _ | .monExcLearn _ | .sluCoefAddr | .sluSgrp _ | .routeHand | .routeCm _ | .routeSl _ | .routeQt _ | .irqSeqQmask
  | .weirSrcLo _ | .weirSrcHi _ | .linkPDly _ | .linkRxq | .timeJumpLimit | .pwrWakeEn | .pwrTimer | .pwrBankRet
  | .sealMetro => true
  | _ => false
/-- Registers with no field that a host may write. -/
def Claims.readOnly : Reg → Bool
  | .sysTickCount | .engStatus | .engCapacityLo | .engLoadPred | .engDrop _ | .clkStatus | .supStatus | .rstCause | .bootStatus
  | .aoStatus | .aoCopyA _ | .excStatus _ | .isrcStatus | .afeStatus | .afeOvl | .monCmStky | .monTempStatus | .sluState _ | .sluGd _
  | .sluEnbw _ | .dsStat _ | .statMeanLo _ | .statSeq _ | .meldStatus _ | .meldResLo _ | .meldStky | .routeStat _ | .routeCstat _
  | .irqInsv _ _ | .irqLost _ _ | .irqClaim _ | .irqLevel _ | .weirStatus _ | .weirW _ | .weirR _ | .moverStatus _ | .hostStat _
  | .cmdErr _ | .semStatus | .devState | .cmdStateRejects | .sbusStatus | .linkStatus | .linkNode | .linkPErr _ | .timeOfsLo
  | .timeNowLo | .timeCnt | .pwrStatus | .pwrRefuser | .pwrWakePend | .ebbStatus | .sealStatus | .sealRef | .auditStatus | .swidRom
  | .patchStatus | .beoStatus | .beoOut _ | .beoLoopStatus | .beoLoopIter => true
  | _ => false
/-- REG_WRITE of a register whose fields a write only sets: the writable fields take the word, the others keep theirs (R5). -/
def Obligations.PlainRegistersAreSet : Prop :=
  ∀ (h : Hdr) (r : Reg) (v : W32) (s : State), Claims.plain r = true → Accepted h r v s →
    Answers (.regWrite h r.addr v) h [] s
      (s.setReg r ((s.reg r &&& ~~~ BitVec.ofNat 32 r.spec.rw) ||| (v &&& BitVec.ofNat 32 r.spec.rw)))

/-- A word with a field outside the range that its register's table gives (R4). -/
def Claims.outOfRange (r : Reg) (v : W32) : Prop :=
  match r with
  | .sysTickDiv => bits v.toNat 22 0 < 96 ∨ 6144000 < bits v.toNat 22 0
  | .apCfg _ => 4 < bits v.toNat 2 0 ∨ (bits v.toNat 2 0 = 4 ∧ 23 < bits v.toNat 12 8)
  | .excLevel _ => bits v.toNat 13 0 < 500 ∨ 5250 < bits v.toNat 13 0
  | .excChop _ => bits v.toNat 22 0 < 1536 ∨ 6144000 < bits v.toNat 22 0 ∨ bits v.toNat 30 23 < 8
  | .isrcCfg _ => 47 < bits v.toNat 13 8 ∨ bits v.toNat 7 0 = 0 ∨ 200 < bits v.toNat 7 0
  | .afeTia _ => 1500 < bits v.toNat 27 16
  | .monTempCfg => bits v.toNat 7 0 < 60 ∨ 125 < bits v.toNat 7 0
  | .sclCfg _ => 47 < bits v.toNat 5 0
  | .dtCoef _ => 23 < bits v.toNat 12 8
  | .routeCh _ => bits v.toNat 15 8 = 0
  | .routeGsrc _ => 56 < bits v.toNat 7 0
  | .weirPkt _ => bits v.toNat 31 16 = 0
  | .regionBound => bits v.toNat 3 0 < 2 ∨ 8 < bits v.toNat 3 0
  | .hostBBaud => bits v.toNat 23 0 < 9600 ∨ 12000000 < bits v.toNat 23 0
  | .semCfg => bits v.toNat 15 0 < 10 ∨ 60000 < bits v.toNat 15 0
  | .cmdLink => bits v.toNat 15 0 = 0
  | .beoCfg _ => 39 < bits v.toNat 5 0
  | .meldCfg _ => 8 < bits v.toNat 11 8 ∨ 55 < bits v.toNat 5 0
  | .meldGate _ => 32 < bits v.toNat 5 0
  | _ => False
/-- Steps 8 and 9 of R300 for a REG_WRITE, in their order: BAD_ADDR for an address that names nothing, the OTP window, the coefficient
port turned to the view of the engine's bank, or a register with no field that a host may write; BAD_PARAM for a field outside its range
(the ranges of some registers are written out in Claims.outOfRange), and for the HI half of a pair whose LO the source has not staged
(R310); SEALED for a change of a legally relevant field, or of a window word of a metrological block or region, while the hub is sealed
(R6, R193). Nothing else happens. -/
def Obligations.WriteChecksRefuse : Prop :=
  ∀ (h : Hdr) (a : Nat) (v : W32) (s : State), Admitted h (.regWrite a v) s →
    (placeOf a = none ∨ (∃ x, placeOf a = some (.otp x)) ∨
        (∃ r, placeOf a = some (.reg r) ∧ (Claims.readOnly r = true ∨ unwritable r = true)) ∨
        (s.bit .sluCoefAddr 13 = true ∧ (placeOf a = some (.reg .sluCoefLo) ∨ placeOf a = some (.reg .sluCoefHi))) →
      Refuses (.regWrite h a v) h .badAddr [] s) ∧
    (∀ r : Reg, placeOf a = some (.reg r) → unwritable r = false →
      ¬ (s.bit .sluCoefAddr 13 = true ∧ (r = .sluCoefLo ∨ r = .sluCoefHi)) →
      (Claims.outOfRange r v ∨ rangeBad r v = true ∨ (∃ lo, hiOf lo = some r ∧ slotOf s.proto.staging h.src lo = none) →
        Refuses (.regWrite h a v) h .badParam [] s) ∧
      (rangeBad r v = false → (∀ lo, hiOf lo = some r → (slotOf s.proto.staging h.src lo).isSome = true) → s.sl.sealed = true →
        s.touchesSet h.src r v = true ∨ (Claims.plain r = true ∧ (s.reg r ^^^ v) &&& s.memberMask r ≠ 0) →
        Refuses (.regWrite h a v) h .sealed [] s)) ∧
    (∀ x : Nat, placeOf a = some (.sram x) → s.sl.sealed = true → s.sramMetro x = true → Refuses (.regWrite h a v) h .sealed [] s)

/-- A command is refused with a status and data on a state `w`, and changes nothing there but, for STATE_CONFLICT, their count (R304). -/
def Claims.RefusesOn (i : Instr) (h : Hdr) (st : Status) (data : List Byte) (s w : State) : Prop :=
  ∃ u, Leads i s u ∧ Replies h st data s u ∧
    AnsweredFrom (if st = .stateConflict then w.satAdd .cmdStateRejects 31 0 1 else w) u
/-- The words of a block command with their addresses (R312). -/
def Claims.blockWords (a sp : Nat) (vs : List W32) : List (Nat × W32) := vs.zipIdx.map fun x => (blockAddr a sp x.2, x.1)
/-- The state after the first `k` words of a block command have been written one by one. -/
def Claims.wrote (h : Hdr) (ws : List (Nat × W32)) (s : State) : Nat → State
  | 0 => s
  | k + 1 => match ws[k]? with
    | some (a, v) => ((Claims.wrote h ws s k).putAt h k a v).1
    | none => Claims.wrote h ws s k
/-- The state after the first `k` words of a block command have been read one by one. -/
def Claims.readTill (h : Hdr) (a sp : Nat) (s : State) : Nat → State
  | 0 => s
  | k + 1 => ((Claims.readTill h a sp s k).readAt h true k (blockAddr a sp k)).1
/-- REG_WRITE_BLOCK (R6, R312): every word meets steps 8 and 9 as it would when its turn comes, and the first that fails them refuses the
whole block; then the words are written in order, and a word that its register refuses ends the block with that status and the number of
words written. -/
def Claims.BlockWrites : Prop :=
  ∀ (h : Hdr) (a n sp : Nat) (vs : List W32) (s : State),
    let c : HostCmd := .regWriteBlock a n sp vs
    let ws := Claims.blockWords a sp vs
    let st (k : Nat) : State := Claims.wrote h ws (s.ready h c) k
    let passes (k : Nat) : Prop := ∀ x, ws[k]? = some x → (st k).checkAt h x.1 x.2 = none
    Admitted h c s → 1 ≤ n → n ≤ 1024 → sp ≤ 16 →
    (∀ k x r, ws[k]? = some x → (∀ j, j < k → passes j) → (st k).checkAt h x.1 x.2 = some r →
      Leads (.regWriteBlock h a n sp vs) s ((s.ready h c).irqSettle.answer h r.1 r.2 true)) ∧
    ((∀ k, passes k) →
      ((∀ k x, ws[k]? = some x → ((st k).putAt h k x.1 x.2).2 = none) →
        Leads (.regWriteBlock h a n sp vs) s ((st vs.length).irqSettle.answer h .ok (leBytes 2 vs.length) true)) ∧
      (∀ k x r, ws[k]? = some x → (∀ j y, j < k → ws[j]? = some y → ((st j).putAt h j y.1 y.2).2 = none) →
        ((st k).putAt h k x.1 x.2).2 = some r →
        Leads (.regWriteBlock h a n sp vs) s ((st (k + 1)).irqSettle.answer h r.1 (r.2 ++ leBytes 2 k) true)))
/-- REG_READ_BLOCK (R7, R312): the words are read in order, each leaving what a read in a block leaves; the first that is refused ends
the block. -/
def Claims.BlockReads : Prop :=
  ∀ (h : Hdr) (a n sp : Nat) (s : State),
    let c : HostCmd := .regReadBlock a n sp
    let st (k : Nat) : State := Claims.readTill h a sp (s.ready h c) k
    Admitted h c s → 1 ≤ n → n ≤ 1024 → sp ≤ 16 → (∀ k, k < n → placeOf (blockAddr a sp k) ≠ none) →
    (∀ f : Nat → W32, (∀ k, k < n → ((st k).readAt h true k (blockAddr a sp k)).2 = .ok (f k)) →
      Leads (.regReadBlock h a n sp) s ((st n).irqSettle.answer h .ok ((List.range n).flatMap fun k => leBytes 4 (f k).toNat) true)) ∧
    (∀ k r, k < n → (∀ j, j < k → ∃ x, ((st j).readAt h true j (blockAddr a sp j)).2 = .ok x) →
      ((st k).readAt h true k (blockAddr a sp k)).2 = .error r →
      Leads (.regReadBlock h a n sp) s ((st (k + 1)).irqSettle.answer h r.1 r.2 true))
/-- The SRAM window (R312, R313): REG_WRITE and REG_WRITE_BLOCK write words where the region table allows it and no block in use lies,
each word in place of its four bytes; a span returns to its first word; of two words at one address the later stands. REG_READ_BLOCK
reads words in their order. A write is refused before SRAM_READY, in a block in use, by the region table and by an uncorrectable error,
the last two recorded by MV7. Both block commands refuse a bad count or span, and an address that names nothing; whatever their words
name, they meet their checks, and are read or written, one by one in their order (R6, R7, R312). -/
def Obligations.WindowWordsReadAndWritten : Prop :=
  Claims.BlockWrites ∧ Claims.BlockReads ∧
  ∀ (h : Hdr) (a n sp : Nat) (v : W32) (vs : List W32) (s : State),
    let fixed (k : Nat) : Eng := { s.eng with corrected := s.eng.corrected + (List.range k).countP fun i => h.fix.contains i }
    (Admitted h (.regWrite a v) s → a % 4 = 0 → 0x10000000 ≤ a → a < 0x10400000 → s.sl.sealed = false ∨ s.sramMetro a = false →
      (s.bit .bootStatus 0 = false ∨ s.blockInUse a = true →
        Refuses (.regWrite h a v) h .stateConflict [BitVec.ofNat 8 (devCode s.proto.dev), 0xfe, 0] s) ∧
      (s.bit .bootStatus 0 = true → s.blockInUse a = false →
        (s.allows a 2 = false →
          ∃ u, Leads (.regWrite h a v) s u ∧ Replies h .regionFault [] s u ∧ AnsweredFrom (s.moverFault 7 1 0 a) u) ∧
        (s.allows a 2 = true → h.ecc = some 0 →
          ∃ u, Leads (.regWrite h a v) s u ∧ Replies h .memEcc [] s u ∧ AnsweredFrom (s.moverFault 7 2 0 a) u) ∧
        (s.allows a 2 = true → h.ecc ≠ some 0 →
          ∃ m, Answers (.regWrite h a v) h [] s { s with sram := m, eng := fixed 1 } ∧
            ∀ b, cellGet m b 0 = if a ≤ b ∧ b < a + 4 then BitVec.ofNat 8 (v.toNat / 256 ^ (b - a)) else s.sramByte b))) ∧
    (Admitted h (.regWriteBlock a n sp vs) s → 1 ≤ n → n ≤ 1024 → sp ≤ 16 → vs.length = n → (∀ k, k < n → h.ecc ≠ some k) →
      s.bit .bootStatus 0 = true →
      (∀ k, k < n → let x := blockAddr a sp k
        x % 4 = 0 ∧ 0x10000000 ≤ x ∧ x < 0x10400000 ∧ s.allows x 2 = true ∧ s.blockInUse x = false ∧
          (s.sl.sealed = false ∨ s.sramMetro x = false)) →
      ∃ m, Answers (.regWriteBlock h a n sp vs) h (leBytes 2 n) s { s with sram := m, eng := fixed n } ∧
        (∀ b, (∀ k, k < n → ¬ (blockAddr a sp k ≤ b ∧ b < blockAddr a sp k + 4)) → cellGet m b 0 = s.sramByte b) ∧
        ∀ k j, k < n → j < 4 → (∀ l, k < l → l < n → blockAddr a sp l ≠ blockAddr a sp k) →
          cellGet m (blockAddr a sp k + j) 0 = BitVec.ofNat 8 ((vs.getD k 0).toNat / 256 ^ j)) ∧
    (Admitted h (.regReadBlock a n sp) s → 1 ≤ n → n ≤ 1024 → sp ≤ 16 → (∀ k, k < n → h.ecc ≠ some k) → s.bit .bootStatus 0 = true →
      (∀ k, k < n → let x := blockAddr a sp k; x % 4 = 0 ∧ 0x10000000 ≤ x ∧ x < 0x10400000 ∧ s.allows x 3 = true) →
      Answers (.regReadBlock h a n sp) h
        ((List.range n).flatMap fun k => (List.range 4).map fun j => s.sramByte (blockAddr a sp k + j)) s { s with eng := fixed n }) ∧
    (n = 0 ∨ 1024 < n ∨ 16 < sp →
      (Admitted h (.regReadBlock a n sp) s → Refuses (.regReadBlock h a n sp) h .badParam [] s) ∧
      (Admitted h (.regWriteBlock a n sp vs) s → Refuses (.regWriteBlock h a n sp vs) h .badParam [] s)) ∧
    (Admitted h (.regReadBlock a n sp) s → 1 ≤ n → n ≤ 1024 → sp ≤ 16 → (∃ k, k < n ∧ placeOf (blockAddr a sp k) = none) →
      Refuses (.regReadBlock h a n sp) h .badAddr [] s) ∧
    (Admitted h (.regWriteBlock a n sp vs) s → 1 ≤ n → n ≤ 1024 → sp ≤ 16 → vs ≠ [] → placeOf a = none →
      Refuses (.regWriteBlock h a n sp vs) h .badAddr [] s)

/-- A long command is accepted: it joins those in progress, its reply comes later, nothing else changes. -/
def Claims.Defers (i : Instr) (h : Hdr) (op : LongOp) (s w : State) : Prop :=
  ∃ u, Leads i s u ∧ u.proto.replies = s.proto.replies ∧
    AnsweredFrom { w with proto := { w.proto with longs := w.proto.longs ++ [(h, op)] } } u
/-- A long command ends: its reply joins the queue of its port, and it is in progress no longer. -/
def Claims.Ends (i : Instr) (h : Hdr) (op : LongOp) (st : Status) (data : List Byte) (s w : State) : Prop :=
  ∃ u, Leads i s u ∧ Replies h st data s u ∧
    AnsweredFrom { w with proto := { w.proto with longs := w.proto.longs.filter fun x => decide (x ≠ (h, op)) } } u
/-- The first `k` words of a table load stand in SRAM, and nothing else has moved there. -/
def Claims.TableWords (ofs k : Nat) (ws : List W64) (s : State) (m : List Host.Cell) : Prop :=
  (∀ b, ¬ (0x10080000 + 8 * ofs ≤ b ∧ b < 0x10080000 + 8 * (ofs + k)) → cellGet m b 0 = s.sramByte b) ∧
  ∀ i j, i < k → j < 8 → cellGet m (0x10080000 + 8 * (ofs + i) + j) 0 = BitVec.ofNat 8 ((ws.getD i 0).toNat / 256 ^ j)
/-- TABLE_LOAD (R80, R193, R283, R295, R313): BAD_PARAM for a count out of range or a word past the window, SEALED for a metrological
block or region, STATE_CONFLICT before SRAM_READY and in a block in use; else it is in progress until MV5 has written its last word, with
OK as the answer, or meets a word that the region table denies or an error, which ends it there. Its words stand in SRAM from
0x1008_0000 + 8 × OFS. -/
def Obligations.TableLoadWritesItsWords : Prop :=
  ∀ (h : Hdr) (ofs : Nat) (ws : List W64) (s : State),
    (Admitted h (.tableLoad ofs ws) s →
      (ws = [] ∨ 512 < ws.length ∨ 0x10400000 < 0x10080000 + 8 * (ofs + ws.length) →
        Refuses (.tableLoad h ofs ws) h .badParam [] s) ∧
      (ws ≠ [] → ws.length ≤ 512 → 0x10080000 + 8 * (ofs + ws.length) ≤ 0x10400000 →
        (s.sl.sealed = true → (∃ k, k < ws.length ∧ s.sramMetro (0x10080000 + 8 * (ofs + k)) = true) →
          Refuses (.tableLoad h ofs ws) h .sealed [] s) ∧
        (s.sl.sealed = false ∨ (∀ k, k < ws.length → s.sramMetro (0x10080000 + 8 * (ofs + k)) = false) →
          (s.bit .bootStatus 0 = false ∨ (∃ k, k < ws.length ∧ s.blockInUse (0x10080000 + 8 * (ofs + k)) = true) →
            Refuses (.tableLoad h ofs ws) h .stateConflict [BitVec.ofNat 8 (devCode s.proto.dev), 0xfe, 0] s) ∧
          (s.bit .bootStatus 0 = true → (∀ k, k < ws.length → s.blockInUse (0x10080000 + 8 * (ofs + k)) = false) →
            Claims.Defers (.tableLoad h ofs ws) h (.tableLoad ofs ws) s s)))) ∧
    (∀ p fixed, h.src = .port p → s.fabricOn = true →
      s.proto.longs.find? (fun x => match x.2 with | .tableLoad _ _ => true | _ => false) = some (h, .tableLoad ofs ws) →
      let eng : Eng := { s.eng with corrected := s.eng.corrected + fixed }
      let free (k : Nat) : Prop := ∀ i, i < k → s.allows (0x10080000 + 8 * (ofs + i)) 2 = true
      ((∀ bad, (∀ k, k < ws.length → bad ≠ some k) → free ws.length →
        ∃ m, Claims.Ends (.tableLoadComplete bad fixed) h (.tableLoad ofs ws) .ok [] s { s with sram := m, eng := eng } ∧
          Claims.TableWords ofs ws.length ws s m) ∧
      (∀ bad k, k < ws.length → (∀ i, i ≤ k → bad ≠ some i) → free k → s.allows (0x10080000 + 8 * (ofs + k)) 2 = false →
        ∃ m, Claims.Ends (.tableLoadComplete bad fixed) h (.tableLoad ofs ws) .regionFault [] s
            (({ s with sram := m, eng := eng } : State).moverFault 5 1 0 (0x10080000 + 8 * (ofs + k))) ∧
          Claims.TableWords ofs k ws s m) ∧
      (∀ k, k < ws.length → free k →
        ∃ m, Claims.Ends (.tableLoadComplete (some k) fixed) h (.tableLoad ofs ws) .memEcc [] s
            (({ s with sram := m, eng := eng } : State).moverFault 5 2 0 (0x10080000 + 8 * (ofs + k))) ∧
          Claims.TableWords ofs k ws s m)))

/-- Pairs whose registers hold the quantity as it reads. -/
def Claims.heldPair : Reg → Bool
  | .engCapacityLo | .sclZeroLo _ | .sclSpanLo _ | .sclAztLo _ | .linNtcALo _ | .linNtcBLo _ | .linNtcCLo _ | .dsOfsLo _ | .meldALo _
  | .meldBLo _ | .beoOfsLo _ | .beoLoopSpLo | .beoLoopIlimLo | .beoLoopUofsLo => true
  | _ => false
/-- Pairs that their chapter closes to writes: those of a Meld unit while its EN is 1 (R209), BEO_OFS and the pairs of the balance loop under
LOCK (R409), and ILIM while the loop's EN is 1 (R406). -/
def Claims.pairClosed (s : State) : Reg → Prop
  | .meldALo u | .meldBLo u => s.bit (.meldCfg u) 31 = true
  | .beoOfsLo _ | .beoLoopSpLo | .beoLoopUofsLo => s.bit .beoCtrl 31 = true
  | .beoLoopIlimLo => s.bit .beoCtrl 31 = true ∨ s.bit .beoLoopCfg 31 = true
  | _ => False
/-- The slots of R310: a LO write fills its source's staging slot, or leaves it where the pair's chapter refuses writes (R209, R406, R409);
a HI write commits the pair and empties the slot, for the pairs
without further rules (zero offset, NTC coefficients); a LO read of a pair whose registers hold the quantity fills the source's shadow slot with the HI half as it stands; a HI read
returns the shadow and empties the slot, or the live value. No other slot of either kind changes. -/
def Obligations.PairsAreStagedAndCommitted : Prop :=
  ∀ (h : Hdr) (lo hi : Reg) (v : W32) (s : State), hiOf lo = some hi →
    let slots (l : List (Src × Nat × W32)) (x : List (Nat × W32)) : List (Src × Nat × W32) :=
      (l.filter fun y => decide (y.1 ≠ h.src)) ++ x.map fun y => (h.src, y.1, y.2)
    (Accepted h lo v s →
      (¬ Claims.pairClosed s lo → Answers (.pairLoWrite h lo.addr v) h [] s
        { s with proto := { s.proto with staging := slots s.proto.staging [(lo.addr, v)] } }) ∧
      (Claims.pairClosed s lo → ∃ d, Refuses (.pairLoWrite h lo.addr v) h .stateConflict d s)) ∧
    (∀ w, (match hi with | .sclZeroHi _ | .linNtcAHi _ | .linNtcBHi _ | .linNtcCHi _ => True | _ => False) →
      Accepted h hi v s → slotOf s.proto.staging h.src lo = some w →
      ∃ rs, Answers (.pairHiCommit h hi.addr v) h [] s
          { s with regs := rs, proto := { s.proto with staging := slots s.proto.staging [] } } ∧
        (∀ q : Reg, decodeAddr q.addr = some q → q ≠ lo → q ≠ hi → cellGet rs q.addr q.reset = s.reg q) ∧
        cellGet rs lo.addr lo.reset = w ∧ cellGet rs hi.addr hi.reset = v &&& 0xf) ∧
    (Claims.heldPair lo = true →
      (Admitted h (.regRead lo.addr) s → decodeAddr lo.addr = some lo → decodeAddr hi.addr = some hi →
        Answers (.pairLoRead h lo.addr) h (leBytes 4 (s.reg lo).toNat) s
          { s with proto := { s.proto with shadow := slots s.proto.shadow [(hi.addr, hiWord (pairVal (s.reg lo) (s.reg hi)))] } }) ∧
      (Admitted h (.regRead hi.addr) s → decodeAddr lo.addr = some lo → decodeAddr hi.addr = some hi →
        (∀ w, slotOf s.proto.shadow h.src hi = some w → Answers (.regRead h hi.addr) h (leBytes 4 w.toNat) s
          { s with proto := { s.proto with shadow := slots s.proto.shadow [] } }) ∧
        (slotOf s.proto.shadow h.src hi = none →
          Answers (.regRead h hi.addr) h (leBytes 4 (hiWord (pairVal (s.reg lo) (s.reg hi))).toNat) s s)))

/-- CHAN_START, CHAN_STOP and CHAN_SYNC (R30, R171, R297, R315, R316, R427): a start whose chains are all IDLE with nothing pending, or
stop-pending, whose configuration is allowed and whose load stays within 95 % makes them start-pending, clears their SAT, shows the values
of R427 for the bank in force and enters RUN; a stop makes chains that are not IDLE stop-pending and cancels pending starts; a sync waits
for its edge. Start and stop answer with the tick count of the boundary at which they take effect. A conflict names the lowest chain; a
configuration that is not allowed is BAD_PARAM, a load above 95 % BUDGET. A single-bit error in the coefficients that the sequencer reads
for a start shows in SLU_ECC.CORR; an uncorrectable one takes its effects on the chain it was read for (R162; what the check then computes
is the DESIGN CHOICE of log entry 154). -/
def Obligations.ChainsStartAndStop : Prop :=
  ∀ (h : Hdr) (m : Nat) (s : State),
    let met (w : State) : State := w.memErr (hdrErr h 0)
    let named (n : Nat) : Prop := n < 24 ∧ m / 2 ^ n % 2 = 1
    let clash (n : Nat) : Prop := ((s.ch n).st ≠ .idle ∧ (s.ch n).stopPend = false) ∨ ((s.ch n).st = .idle ∧ (s.ch n).startPend = true)
    let next := leBytes 4 (((s.reg .sysTickCount).toNat + 1) % 2 ^ 32)
    let load := s.loadWith fun n => m / 2 ^ n % 2 == 1
    (Admitted h (.chanStart m) s →
      (∀ n, named n → clash n → (∀ k, k < n → ¬ (named k ∧ clash k)) →
        Claims.RefusesOn (.chanStart h m) h .stateConflict
          [BitVec.ofNat 8 (devCode s.proto.dev), BitVec.ofNat 8 n, BitVec.ofNat 8 (chCode (s.ch n).st)] s (met s)) ∧
      ((∀ n, named n → ¬ clash n) →
        ((∃ n, named n ∧ s.startConfigOk m n = false) → Claims.RefusesOn (.chanStart h m) h .badParam [] s (met s)) ∧
        ((∀ n, named n → s.startConfigOk m n = true) →
          (19 * s.capacity < 20 * load → Claims.RefusesOn (.chanStart h m) h .budget [] s (met s)) ∧
          (20 * load ≤ 19 * s.capacity → ∃ rs cs,
            Answers (.chanStart h m) h next s
              (met { s with regs := rs, chains := cs
                            proto := { s.proto with dev := if m % 2 ^ 24 = 0 then s.proto.dev else .run } }) ∧
            (∀ n, cellGet cs n {} = if n < 24 ∧ m / 2 ^ n % 2 = 1 then { s.ch n with startPend := true, sat := false } else s.ch n) ∧
            (∀ n, named n →
              let at_ (r : Reg) : W32 := cellGet rs r.addr r.reset
              at_ (.sluDec n) = BitVec.ofNat 32 (min (2 ^ 24 - 1) (s.decimD n)) ∧
              at_ (.sluWin n) = BitVec.ofNat 32 (min (2 ^ 32 - 1) (s.winW n (s.bank n))) ∧
              at_ (.sluSettle n) = BitVec.ofNat 32 (min 65535 ((s.winW n (s.bank n) + s.decimD n - 1) / s.decimD n)) ∧
              at_ (.sluGd n) = s.gdWord n (s.bank n) ∧ at_ (.sluGdnx n) = s.gdWord n (1 - s.bank n) ∧
              at_ (.sluEnbw n) = BitVec.ofNat 32 (s.enbw n (s.bank n))) ∧
            ∀ q : Reg, decodeAddr q.addr = some q →
              (∀ n, named n → q ≠ .sluDec n ∧ q ≠ .sluWin n ∧ q ≠ .sluSettle n ∧ q ≠ .sluGd n ∧ q ≠ .sluGdnx n ∧ q ≠ .sluEnbw n) →
              cellGet rs q.addr q.reset = s.reg q)))) ∧
    (Admitted h (.chanStop m) s → ∃ cs, Answers (.chanStop h m) h next s { s with chains := cs } ∧
      ∀ n, cellGet cs n {} =
        if ¬ (n < 24 ∧ m / 2 ^ n % 2 = 1) then s.ch n
        else if (s.ch n).st = .idle then { s.ch n with startPend := false } else { s.ch n with stopPend := true, startPend := false }) ∧
    (Admitted h (.chanSync m) s → Answers (.chanSync h m) h [] s
      { s with syncs := s.syncs ++ ((List.range 8).filter fun g => m / 2 ^ g % 2 == 1).map fun g => (g, false, s.clk.mclk + 1) })

/-- A command that writes `v` to register `r`: REG_WRITE itself, or the row of the register. -/
def Claims.writes (i : Instr) (h : Hdr) (r : Reg) (v : W32) : Prop := i = .regWrite h r.addr v ∨ Claims.accessOf i = some (.regWrite h r.addr v)
/-- The registers that a write of a control register clears or reloads, and the words they take; none where the write does more. -/
def Claims.cleared (r : Reg) (v : W32) (s : State) : Option (List (Reg × W32)) :=
  let on (k : Nat) (l : List (Reg × W32)) : List (Reg × W32) := if v.getLsbD k then l else []
  match r with
  | .cmdCtrl => some (on 0 [(.cmdStateRejects, 0)] ++ on 1 [(.cmdErr 0, 0), (.cmdErr 1, 0)] ++ on 2 [(.cmdLink, s.reg .cmdLink &&& 0xffff)])
  | .engCtrl => some ([(.engStatus, s.reg .engStatus &&& ~~~ ((v &&& 1) ||| (v &&& 2) <<< 1))] ++
      on 1 ((.engDropAux, 0) :: (List.range 24).map fun n => (.engDrop n, 0)) ++ on 2 [(.engLoadMax, s.reg .engLoadLast)])
  | .afeCtrl => if v.getLsbD 0 && (List.range 24).any fun n => (s.ch n).ovlNow then none else some (on 0 [(.afeOvl, 0)])
  | .monCtrl => some (on 0 ((List.range 4).map fun x => (.monExcStatus x, s.reg (.monExcStatus x) &&& 0xffffd03f)) ++
      on 1 [(.monCmStky, 0), (.monIsrc, s.reg .monIsrc &&& 0xffff00ff)] ++ on 2 [(.monTempStatus, s.reg .monTempStatus &&& 0xffffff8f)])
  | .sluEcc => some (on 31 [(.sluEcc, 0)])
  | .routeCtrl => some (on 0 ([(.routeBudg0, 0), (.routeBudg1, 0)] ++
      (List.range 64).map fun c => (.routeStat c, s.reg (.routeStat c) &&& 0xfffeffff)) ++ on 1 ((List.range 144).map fun c => (.routeCstat c, 0)))
  | .irqLostclr t w => some [(.irqLost t w, s.reg (.irqLost t w) &&& ~~~ v)]
  | .moverCtrl => some (((List.range 8).filter fun m => v.getLsbD m).flatMap fun m => [(.moverStatus m, 0), (.moverFaddr m, 0)])
  | .hostCtrl t => if v.getLsbD 1 then none else some (on 0 [(.hostStat t, 0)])
  | .sbusCtrl => some (on 0 ((.sbusStatus, 0) :: (List.range 8).map fun k => (.sbusSpCnt k, 0)))
  | .linkCtrl => if v &&& 3 = 0 then some (on 2 [(.linkPErr 0, 0), (.linkPErr 1, 0)] ++ on 3 [(.linkStatus, s.reg .linkStatus &&& 0xfffffff3)])
      else none
  | .timeCtrl => if v.getLsbD 2 then none else
      some (on 0 [(.timeCnt, 0)] ++ on 1 [(.timeSrvStat, s.reg .timeSrvStat &&& 0xffc7ffff)])
  | .pwrWakeClr => some [(.pwrWakePend, s.reg .pwrWakePend &&& ~~~ v)]
  | _ => none
/-- Writes that clear counters and sticky bits clear those that their bits name, and nothing else: CLR_REJ, CLR_ERR, CLR_LATE, CLR_OVR,
CLR_DROP, CLR_MAX, CLR_OVL, CLR_EXC, CLR_CM, CLR_TEMP, SLU_ECC.CLR, CLR_CONS, CLR_BUDGET, IRQ_LOSTCLR, MOVER_CTRL, HOST_CTRL.CLR,
SBUS_CTRL.CLR, the clears of LINK_CTRL and TIME_CTRL, PWR_WAKE_CLR. Where comparators still flag, CLR_OVL leaves AFE_OVL with their bits,
which rise again, and source 3 fires (R126). -/
def Obligations.StickyBitsAreCleared : Prop :=
  (∀ (i : Instr) (h : Hdr) (v : W32) (s : State), Claims.writes i h .afeCtrl v → Accepted h .afeCtrl v s → v.getLsbD 0 = true →
    (∃ n, n < 24 ∧ (s.ch n).ovlNow = true) → ∃ rs, Answers i h [] s (({ s with regs := rs } : State).irqFire 3) ∧
      (∀ n, n < 24 → (cellGet rs (Reg.afeOvl).addr (Reg.afeOvl).reset).getLsbD n = (s.ch n).ovlNow) ∧
      ∀ q : Reg, decodeAddr q.addr = some q → q ≠ .afeOvl → cellGet rs q.addr q.reset = s.reg q) ∧
  ∀ (i : Instr) (h : Hdr) (r : Reg) (v : W32) (s : State) (l : List (Reg × W32)),
    Claims.writes i h r v → Claims.cleared r v s = some l → Accepted h r v s → Claims.Sets i h [] s l

/-- An event leads to a state that differs from `w` in the listed registers alone. -/
def Claims.LeadsTo (i : Instr) (s w : State) (l : List (Reg × W32)) : Prop :=
  ∃ rs, Leads i s { w with regs := rs } ∧
    ∀ q : Reg, decodeAddr q.addr = some q → cellGet rs q.addr q.reset = (l.lookup q).getD (w.reg q)
/-- A count in a field of a register, saturating (R317). -/
def Claims.counted (s : State) (r : Reg) (hi lo : Nat) : Reg × W32 :=
  (r, putBits (s.reg r) hi lo (min (2 ^ (hi + 1 - lo) - 1) (s.fld r hi lo + 1)))
/-- R319 to R321, R326: what a transfer at a port leaves. UART, and a write transfer of I2C or I3C, show no status byte; every other
transfer shows it and clears DROP; written bytes fill the receive buffer as far as it has room, and what finds none is counted apart; on a
read the bytes of the first reply are counted, on SPI from the start of each frame. A transfer that goes on adds its further bytes. -/
def Claims.TransfersShowTheStatus : Prop :=
  (∀ (s : State) (p : Port) (l : Lead),
    let spi : Prop := p = .a ∧ s.hostIf.strapA = .gnd
    let uart : Prop := p = .b ∧ s.hostIf.strapB = .gnd
    let ready := (s.firstReply p).isSome
    let fill (b : Bus) : Bus := { b with rx := min 8448 (b.rx + l.got), overrun := b.overrun + (b.rx + l.got - 8448) }
    (uart → s.lead p l = s.modBus p fun b => fill { b with first := if l.cont then b.first else some l.first }) ∧
    (¬ uart → l.cont = true → s.lead p l = s.modBus p fun b =>
      if b.first = some 0xa5 then fill b
      else if b.first = some 0 ∧ (if spi then b.rdy = true else ready = true) then { b with pos := b.pos + l.got } else b) ∧
    (¬ uart → l.cont = false →
      (¬ spi → l.first = 0xa5 → s.lead p l = s.modBus p fun b => fill { b with first := some 0xa5 }) ∧
      (spi ∨ l.first ≠ 0xa5 → s.lead p l = s.modBus p fun b =>
        let b : Bus := { b with drop := false, first := some l.first, rdy := ready, shown := some (s.statusByte p)
                                pos := if spi then 0 else b.pos }
        if l.first = 0xa5 then fill b else if l.first = 0 ∧ ready = true then { b with pos := b.pos + l.got } else b))) ∧
  ∀ (s : State) (p : Port),
    let x := s.statusByte p
    x.toNat / 32 = devCode s.proto.dev ∧ x.getLsbD 4 = (s.firstReply p).isSome ∧
      x.getLsbD 3 = decide ((s.bus p).rx + 4165 ≤ 8448) ∧ x.getLsbD 2 = s.line (portIx p) ∧
      x.getLsbD 1 = decide (s.proto.owner = some (.port p)) ∧ x.getLsbD 0 = (s.bus p).drop
/-- R330, where port B is a UART with HALF = 1: HB_DE rises once a reply is ready, the reply before it has gone and HB_RX has been idle for
TURN bit times, DE_LEAD bit times before the start bit, and falls DE_LAG bit times after the last stop bit; while it is high the port takes
nothing. In full duplex a reply leaves as it is ready (the DESIGN CHOICE of log entry 174 is how a reply's times are counted). -/
def Claims.HalfDuplexTurnsRound : Prop :=
  ∀ s : State, let half : Prop := s.hostIf.strapB = .gnd ∧ (s.reg .hostBUart).getLsbD 0 = true
    let bitTimes (n : Nat) : Nat := (n * 24576000 + s.hostIf.rate - 1) / s.hostIf.rate
    let rise (r : Reply) : Nat := max (max r.ready (s.hostIf.sentB.getD 0)) (s.hostIf.rxAt + bitTimes (s.fld .hostBUart 31 24))
    (half → ∀ r, s.txAt r = rise r + bitTimes (s.fld .hostBUart 19 16)) ∧
    (¬ half → s.deHigh = false ∧ ∀ r, s.txAt r = r.ready) ∧
    (half → (s.deHigh = true ↔ (∃ r, s.firstReply .b = some r ∧ rise r ≤ s.clk.frc) ∨
      ∃ t, s.hostIf.sentB = some t ∧ s.clk.frc < t + bitTimes (s.fld .hostBUart 23 20))) ∧
    (s.deHigh = true → s.portOpen .b = false ∧ Leads .uartBreak s s ∧ Leads .uartGapTimeout s s)
/-- Bytes have come on HB_RX (R330). -/
def Claims.heardNow (s : State) (p : Port) : State :=
  if p = .b ∧ s.hostIf.strapB = .gnd then { s with hostIf := { s.hostIf with rxAt := max s.hostIf.rxAt s.clk.frc } } else s
/-- The state after transfers that brought a packet which is dropped, with the buffer as `g` leaves it: DROP shows it, and a UART receiver
waits for an idle line (R289, R319, R320, R329). -/
def Claims.dropped (s : State) (p : Port) (g : Bus → Bus) : State :=
  let t := s.modBus p fun b => { g b with drop := true }
  { t with hostIf := { t.hostIf with resync := t.hostIf.resync || (decide (p = .b) && decide (s.hostIf.strapB = .gnd)) } }
/-- Transfers at a port that does not run: in EBB and HOLD an SPI frame shifts 0x00 out (R377), and nothing else happens. -/
def Claims.asleep (s : State) (p : Port) (ls : List Lead) : State :=
  if p = .a ∧ s.hostIf.strapA = .gnd ∧ (s.pwr.st = .ebb ∨ s.pwr.st = .hold) ∧ ls ≠ [] then s.modBus p fun b => { b with shown := some 0 } else s
/-- Packets that a receiver drops are counted by their cause, and show in DROP; a packet cut off inside is counted in PART; a reply whose
last byte has left frees its tag, lets the next follow, a WAIT enter and a bit rate take effect; an SPI frame cut short discards its reply,
counts it and frees its tag, where on I2C and I3C the reply resumes; where no reply waits, an SPI frame sends none, or a half-duplex port
has not started it, the transfers do no more than show the status byte; a port that does not run takes nothing (R289, R293, R318 to R321,
R323, R326, R328 to R330, R371, R377). The words of a QUEUE_READ reply are in QueuesAreRead. -/
def Obligations.PacketsAndRepliesLeave : Prop :=
  Claims.TransfersShowTheStatus ∧ Claims.HalfDuplexTurnsRound ∧
  ∀ (p : Port) (ls : List Lead) (n : Nat) (s : State),
    let t := s.transfers p ls
    let u := Claims.heardNow t p
    let less (b : Bus) : Bus := { b with rx := b.rx - n }
    let lose (b : Bus) : Bus := { b with rx := b.rx - (n - b.overrun), overrun := b.overrun - n }
    let spi : Prop := p = .a ∧ s.hostIf.strapA = .gnd
    (s.portLive p = false → ∀ k d, let z := Claims.asleep s p ls
      Leads (.packetDiscard p d ls n) s z ∧ Leads (.partialPacketDiscard p ls n) s z ∧
      Leads (.replySent p ls) s z ∧ Leads (.replyCut p k ls) s z) ∧
    (s.portLive p = true → s.portOpen p = false → ∀ d,
      Leads (.packetDiscard p d ls n) s s ∧ Leads (.partialPacketDiscard p ls n) s s) ∧
    (s.portLive p = true → s.portOpen p = true → t.writing p = true →
      (∀ k f,
        ((k = .badStart ∧ f = (15, 8)) ∨ (k = .badLength ∧ f = (15, 8)) ∨ (k = .badCrc ∧ f = (7, 0)) ∨
          (k = .inBoot ∧ f = (23, 16) ∧ s.proto.dev = .boot)) →
        Claims.LeadsTo (.packetDiscard p k ls n) s (Claims.dropped u p less) [Claims.counted s (.cmdErr (portIx p)) f.1 f.2]) ∧
      (0 < (t.bus p).overrun →
        Claims.LeadsTo (.packetDiscard p .bufferFull ls n) s (Claims.dropped u p lose) [Claims.counted s (.cmdErr (portIx p)) 31 24]) ∧
      ((t.bus p).overrun = 0 → Leads (.packetDiscard p .bufferFull ls n) s (u.modBus p less)) ∧
      (s.proto.dev ≠ .boot → Leads (.packetDiscard p .inBoot ls n) s (u.modBus p less)) ∧
      Claims.LeadsTo (.partialPacketDiscard p ls n) s (u.modBus p lose) [Claims.counted s (.hostStat (portIx p)) 15 8]) ∧
    (s.portLive p = true → s.portOpen p = true → t.writing p = false → ∀ k,
      Leads (.packetDiscard p k ls n) s t ∧ Leads (.partialPacketDiscard p ls n) s t) ∧
    (s.portLive p = true → s.firstReply p = none ∨ t.sending p = false ∨
      (p = .b ∧ s.half = true ∧ ∃ r, s.firstReply p = some r ∧ s.clk.frc < s.txAt r) → Leads (.replySent p ls) s t) ∧
    (s.portLive p = true → ¬ spi ∨ t.sending p = false → ∀ k, Leads (.replyCut p k ls) s t) ∧
    (s.portLive p = true → t.sending p = true →
      ∀ r pre post, s.proto.replies = pre ++ r :: post → (∀ x ∈ pre, x.src ≠ .port p) → r.src = .port p → r.q = none →
      let freed : Proto := { s.proto with replies := pre ++ post
                                          tags := if r.frees then s.proto.tags.filter fun x => x.1 ≠ r.tag else s.proto.tags }
      (spi → ∀ k, Claims.LeadsTo (.replyCut p k ls) s { t.modBus p (fun b => { b with pos := 0 }) with proto := freed }
        [Claims.counted s (.hostStat (portIx p)) 23 16]) ∧
      (p = .a ∨ s.half = false ∨ s.txAt r ≤ s.clk.frc →
        let mine (x : Port × Nat × Nat) : Bool := r.frees && decide (x.1 = p ∧ x.2.1 = r.tag)
        let v := t.modBus p fun b => { b with pos := 0, rdy := (pre ++ post).any fun x => decide (x.src = .port p) }
        Leads (.replySent p ls) s
          { v with
            hostIf := { v.hostIf with
              rate := ((s.hostIf.ratePend.filter mine).getLast?.map (·.2.2)).getD s.hostIf.rate
              ratePend := s.hostIf.ratePend.filter fun x => !mine x
              sentB := if p = .b then some s.clk.frc else s.hostIf.sentB }
            pwr := { s.pwr with waitReply := if r.status = .accepted ∧ s.pwr.waitReply = some (.port p, r.tag) then none else s.pwr.waitReply }
            proto := freed }))

/-- A forwarded command whose reply has not come within CMD_LINK.TMO is answered LINK_TIMEOUT, and its node, tag and port are remembered
for a late reply; before that the check does nothing (R290). -/
def Claims.ForwardedCommandsTimeOut : Prop :=
  ∀ (h : Hdr) (p : Port) (n op due : Nat) (s : State), h.src = .port p → s.fabricOn = true →
    (h, .forward n op due) ∈ s.proto.longs → (∀ x ∈ s.proto.longs, x.1.tag = h.tag → x = (h, .forward n op due)) →
    (due ≤ s.clk.frc → ∃ u, Leads (.forwardTimeout h.tag) s u ∧ Replies h .linkTimeout [] s u ∧ AnsweredFrom
      { s with proto := { s.proto with longs := s.proto.longs.filter fun x => decide (x ≠ (h, .forward n op due))
                                       late := s.proto.late ++ [(h.node, h.tag, p)] } } u) ∧
    (s.clk.frc < due → Leads (.forwardTimeout h.tag) s s)
/-- Step 4 of R300 (R290, R291): a packet for this node or for 0x40 runs here; one for another node leaves in CMD frames through the port
on its side and waits for its reply, LINK_DOWN where no port is UP, LINK_TIMEOUT at once where that one is not (R343); a broadcast of CHAN_START, CHAN_STOP or CHAN_SYNC leaves through every
port that is UP and runs here; any other broadcast, and a NODE that no node can have, is refused. A LINK_ENUM in progress refuses both. A
forwarded command whose reply has not come within CMD_LINK.TMO is answered LINK_TIMEOUT, and is remembered for a late reply. -/
def Obligations.NodesAreReached : Prop :=
  Claims.ForwardedCommandsTimeOut ∧ (∀ (h : Hdr) (c : HostCmd) (p : Port) (s : State) (body : State → Res), h.src = .port p →
    let frames := (cmdFrames 0x01 h.node (s.nodeAddr.getD 0xff) p (packetBytes h c)).map fun f => (false, none, f)
    (h.node = 0x40 ∨ s.nodeAddr = some h.node → s.perform h c body = s.execute h c body) ∧
    (h.node ≠ 0x40 → s.nodeAddr ≠ some h.node →
      ((h.node = 0x7f ∧ opcodeOf c ≠ 0x20 ∧ opcodeOf c ≠ 0x21 ∧ opcodeOf c ≠ 0x22) ∨ (64 ≤ h.node ∧ h.node ≠ 0x7f) →
        s.perform h c body = s.answer h .badNode []) ∧
      (h.node < 64 → s.portUp 0 = false → s.portUp 1 = false → s.perform h c body = s.answer h .linkDown []) ∧
      ((h.node = 0x7f ∧ (opcodeOf c = 0x20 ∨ opcodeOf c = 0x21 ∨ opcodeOf c = 0x22)) ∨
          (h.node < 64 ∧ (s.portUp 0 = true ∨ s.portUp 1 = true)) → (∃ x ∈ s.proto.longs, x.2 = .linkEnum) →
        s.perform h c body = s.answer h .stateConflict [BitVec.ofNat 8 (devCode s.proto.dev), 0x32, 0x48]) ∧
      ((∀ x ∈ s.proto.longs, x.2 ≠ .linkEnum) →
        (h.node < 64 → s.portUp 0 = true ∨ s.portUp 1 = true → s.portUp (if s.nodeAddr.getD 0xff < h.node then 1 else 0) = false →
          s.perform h c body = s.answer h .linkTimeout []) ∧
        (h.node < 64 → s.portUp 1 = true → s.nodeAddr.getD 0xff < h.node → s.perform h c body =
          { s with link := { s.link with dn := { s.link.dn with tx := s.link.dn.tx ++ frames } }
                   proto := { s.proto with longs := s.proto.longs ++
                     [(h, .forward h.node (opcodeOf c) (s.clk.frc + s.fld .cmdLink 15 0 * 24576))] } }) ∧
        (h.node < 64 → s.portUp 0 = true → h.node < s.nodeAddr.getD 0xff → s.perform h c body =
          { s with link := { s.link with up := { s.link.up with tx := s.link.up.tx ++ frames } }
                   proto := { s.proto with longs := s.proto.longs ++
                     [(h, .forward h.node (opcodeOf c) (s.clk.frc + s.fld .cmdLink 15 0 * 24576))] } }) ∧
        (h.node = 0x7f → opcodeOf c = 0x20 ∨ opcodeOf c = 0x21 ∨ opcodeOf c = 0x22 → s.perform h c body =
          State.execute
            { s with link := { s.link with up := { s.link.up with tx := s.link.up.tx ++ if s.portUp 0 then frames else [] }
                                           dn := { s.link.dn with tx := s.link.dn.tx ++ if s.portUp 1 then frames else [] } } } h c body))))

/-- Switching SYSCLK to HFRC (R74, R75, R328): SYSCLK_SRC falls, the periods from here on are not clocked from the PLL, the tick's
capacity is the lower one, and a bit rate of port B that needs the PLL falls back to 115,200 with its mark. -/
def Claims.SwitchesToHfrc : Prop :=
  ∀ s : State, ∃ rs, s.toHfrc =
      { s with regs := rs
               eng := { s.eng with capNow := min s.eng.capNow (8 * 2 ^ s.fld .clkCtrl 5 4) }
               clk := { s.clk with offPll := if s.clk.offPll.any (fun x => x.2.isNone) then s.clk.offPll
                 else s.clk.offPll ++ [(s.clk.mclk, none)] }
               hostIf := if s.hostIf.strapB = .gnd ∧
                     (3000000 < s.hostIf.rate ∨ s.hostIf.ratePend.any (fun x => decide (3000000 < x.2.2)) = true) then
                   { s.hostIf with rate := 115200, ratePend := [] }
                 else s.hostIf } ∧
    let fast : Prop := s.hostIf.strapB = .gnd ∧ (3000000 < s.hostIf.rate ∨ s.hostIf.ratePend.any (fun x => decide (3000000 < x.2.2)) = true)
    cellGet rs (Reg.clkStatus).addr (Reg.clkStatus).reset = s.reg .clkStatus &&& 0xfffffffe ∧
    (fast → cellGet rs (Reg.hostStat 1).addr (Reg.hostStat 1).reset = s.reg (.hostStat 1) ||| 2 ∧
      cellGet rs (Reg.hostBBaud).addr (Reg.hostBBaud).reset = putBits (s.reg .hostBBaud) 23 0 115200) ∧
    ∀ q : Reg, decodeAddr q.addr = some q → q ≠ .clkStatus → ¬ (fast ∧ (q = .hostStat 1 ∨ q = .hostBBaud)) →
      cellGet rs q.addr q.reset = s.reg q
/-- CLOCK_SET (R71 to R74), what it refuses: parameters out of range, a new MCLK_SEL while a chain or the balance loop runs, a capacity
below the load at its end or at HFRC on the way. Otherwise it starts: at once with the switch, where SYSCLK is to be HFRC or the locked PLL
has that reference; with leaving the PLL, where SYSCLK comes from it; else with the reference. -/
def Claims.ClockSetStarts : Prop :=
  ∀ (h : Hdr) (src ref ndiv msel : Nat) (s : State), Admitted h (.clockSet src ref ndiv msel) s →
    let i : Instr := .clockSet h src ref ndiv msel
    let o : ClkOp := { hdr := some h, pll := decide (src = 1), ext := decide (ref = 1), ndiv := ndiv, msel := msel, phase := .switch }
    let same : Prop := s.bit .clkStatus 3 = true ∧ s.clk.pll = some (decide (ref = 1), ndiv)
    let moves : Prop := msel ≠ s.fld .clkCtrl 5 4
    let budget : Bool := s.clockBudget src msel (decide (src = 1) && s.onPll && !decide same)
    (1 < src ∨ 1 < ref ∨ ndiv < 6 ∨ 24 < ndiv ∨ 3 < msel → Refuses i h .badParam [] s) ∧
    (src ≤ 1 → ref ≤ 1 → 6 ≤ ndiv → ndiv ≤ 24 → msel ≤ 3 →
      (∀ n, n < 24 → moves → s.chBusy n = true → (∀ k, k < n → s.chBusy k = false) → Refuses i h .stateConflict
        [BitVec.ofNat 8 (devCode s.proto.dev), BitVec.ofNat 8 n, BitVec.ofNat 8 (chCode (s.ch n).st)] s) ∧
      (moves → (∀ n, n < 24 → s.chBusy n = false) → s.bit .beoLoopCfg 31 = true →
        Refuses i h .stateConflict [BitVec.ofNat 8 (devCode s.proto.dev), 0x31, 1] s) ∧
      (¬ moves ∨ ((∀ n, n < 24 → s.chBusy n = false) ∧ s.bit .beoLoopCfg 31 = false) →
        (budget = true → Refuses i h .budget [] s) ∧
        (budget = false →
          (src = 0 ∨ same → Claims.Defers i h .clockSet s { s with clk := { s.clk with op := some o } }) ∧
          (src = 1 → ¬ same → s.onPll = true →
            Claims.Defers i h .clockSet s { s with clk := { s.clk with op := some { o with phase := .leave } } }) ∧
          (src = 1 → ¬ same → s.onPll = false →
            ∃ rs, Claims.Defers i h .clockSet s
                { s with regs := rs, clk := { s.clk with
                    pll := none, xin := s.clk.xin && decide (ref = 1)
                    op := some { o with
                      phase := if (if ref = 1 then s.clk.xin else s.bit .clkStatus 1) then .qualify else .startXo
                      since := s.clk.frc } } } ∧
              cellGet rs (Reg.clkStatus).addr (Reg.clkStatus).reset =
                s.reg .clkStatus &&& (if ref = 1 then 0xfffffff1 else 0xfffffff3) ∧
              ∀ q : Reg, decodeAddr q.addr = some q → q ≠ .clkStatus → cellGet rs q.addr q.reset = s.reg q))))
/-- A change of clock ends: the CLOCK_SET under way is answered; one that a restore runs ends without an answer (R73, R86). -/
def Claims.ClockEnds (i : Instr) (o : ClkOp) (st : Status) (data : List Byte) (s w : State) : Prop :=
  (o.hdr = none → Leads i s w) ∧
  ∀ h p, h.src = .port p → o.hdr = some h → s.proto.longs = [(h, .clockSet)] → Claims.Ends i h .clockSet st data s w
/-- CLOCK_SET (R71 to R76), the steps: the oscillator or buffer started, the reference qualified within 4 % of 196,608 kHz ÷ NDIV, the PLL
locked, the switch at an MCLK edge, which changes CLK_CTRL and CLK_PLL.NDIV and answers with CLK_STATUS; to HFRC it stops the PLL and,
unless XO_KEEP, its reference. A step that has not ended in its time, 2 ms or 400 µs, stops them and answers CLOCK_FAIL; before that the
timeout does nothing. What it refuses and where it starts is said first, and what the switch to HFRC brings with it. -/
def Obligations.ClocksAreSet : Prop :=
  Claims.SwitchesToHfrc ∧ Claims.ClockSetStarts ∧
  ∀ (o : ClkOp) (s : State), s.clk.op = some o →
    (o.phase = .startXo → Claims.LeadsTo .xoStarted s { s with clk := { s.clk with xin := o.ext, op := some { o with phase := .qualify } } }
      [(.clkStatus, if o.ext then s.reg .clkStatus else s.reg .clkStatus ||| 2)]) ∧
    (o.phase ≠ .startXo → Leads .xoStarted s s) ∧
    (∀ khz, khz < 65536 → o.phase = .qualify → 96 * 196608 ≤ 100 * (khz * o.ndiv) → 100 * (khz * o.ndiv) ≤ 104 * 196608 →
      Claims.LeadsTo (.refQualified khz) s
        { s with clk := { s.clk with op := some { o with phase := .lock, since := s.clk.frc } } }
        [(.clkStatus, s.reg .clkStatus ||| 4), (.clkPll, putBits (s.reg .clkPll) 31 16 khz)]) ∧
    (∀ khz, o.phase ≠ .qualify ∨ 100 * (khz * o.ndiv) < 96 * 196608 ∨ 104 * 196608 < 100 * (khz * o.ndiv) →
      Leads (.refQualified khz) s s) ∧
    (o.phase = .lock → Claims.LeadsTo .pllLocked s
      { s with clk := { s.clk with pll := some (o.ext, o.ndiv), op := some { o with phase := .switch } } }
      [(.clkStatus, s.reg .clkStatus ||| 8)]) ∧
    (o.phase ≠ .lock → Leads .pllLocked s s) ∧
    (o.phase = .leave → ∃ rs, Leads .clockSwitch s
        (let t := s.toEdge.toHfrc
         { t with regs := rs, clk := { t.clk with
             pll := none, xin := t.clk.xin && o.ext
             op := some { o with phase := if (if o.ext then t.clk.xin else t.bit .clkStatus 1) then .qualify else .startXo
                                 since := t.clk.frc } } }) ∧
      ∀ q : Reg, decodeAddr q.addr = some q →
        cellGet rs q.addr q.reset =
          (if q = .clkCtrl then s.toEdge.toHfrc.reg q &&& 0xfffffffe
          else if q = .clkStatus then s.toEdge.toHfrc.reg q &&& (if o.ext then 0xfffffff1 else 0xfffffff3)
          else s.toEdge.toHfrc.reg q)) ∧
    ((o.phase = .switch → o.pll = true →
        let t := s.toEdge
        ∃ w, Claims.ClockEnds .clockSwitch o .ok (leBytes 4 (t.reg .clkStatus ||| 1).toNat) s w ∧
          (∀ q : Reg, decodeAddr q.addr = some q → w.reg q =
            if q = .clkStatus then t.reg q ||| 1
            else if q = .clkCtrl then putBits (putBits (t.reg q ||| 1) 6 6 o.ext.toNat) 5 4 o.msel
            else if q = .clkPll then putBits (t.reg q) 4 0 o.ndiv
            else t.reg q) ∧
          w = { t with regs := w.regs, eng := { t.eng with capNow := min t.eng.capNow (32 * 2 ^ (o.msel % 4)) }
                       clk := { t.clk with op := none, offPll := t.clk.offPll.map fun x => if x.2.isNone then (x.1, some t.clk.mclk) else x } }) ∧
      (o.phase = .switch → o.pll = false →
        let t := s.toEdge
        let hf := ({ t with regs := cellSet t.regs (Reg.clkCtrl).addr (putBits (t.reg .clkCtrl &&& 0xfffffffe) 5 4 o.msel) } : State)
        (t.onPll = false → Claims.ClockEnds .clockSwitch o .ok (leBytes 4 (t.reg .clkStatus).toNat) s
          { hf with eng := { t.eng with capNow := min t.eng.capNow (8 * 2 ^ (o.msel % 4)) }, clk := { t.clk with op := none } }) ∧
        (t.onPll = true →
          let keep := t.bit .clkCtrl 8
          let st := t.reg .clkStatus &&& (if keep then 0xfffffff2 else 0xfffffff0)
          ∃ rs, Claims.ClockEnds .clockSwitch o .ok (leBytes 4 st.toNat) s
              { hf.toHfrc with regs := rs, clk := { hf.toHfrc.clk with pll := none, xin := keep && t.clk.xin, op := none } } ∧
            ∀ q : Reg, decodeAddr q.addr = some q → cellGet rs q.addr q.reset = if q = .clkStatus then st else hf.toHfrc.reg q)) ∧
      (((o.phase = .qualify ∨ o.phase = .startXo) ∧ o.since + 49152 ≤ s.clk.frc) ∨ (o.phase = .lock ∧ o.since + 9831 ≤ s.clk.frc) →
        let keep := s.bit .clkCtrl 8
        let st := s.reg .clkStatus &&& (if keep then 0xfffffff3 else 0xfffffff1)
        ∃ rs, Claims.ClockEnds .clockFailTimeout o .clockFail (leBytes 4 st.toNat) s
            { s with regs := rs, clk := { s.clk with pll := none, xin := keep && s.clk.xin, op := none } } ∧
          ∀ q : Reg, decodeAddr q.addr = some q → cellGet rs q.addr q.reset = if q = .clkStatus then st else s.reg q) ∧
      (((o.phase = .qualify ∨ o.phase = .startXo) ∧ s.clk.frc < o.since + 49152) ∨ (o.phase = .lock ∧ s.clk.frc < o.since + 9831) →
        Leads .clockFailTimeout s s))


/-- QUEUE_READ (R274, R275, R283, R304): the words that the window holds, then those from there on, up to C and up to the slots that find
one; a word that the region table denies, or with an uncorrectable error, halts the reading and is recorded by the port's mover; the other
slots repeat the last word delivered from the queue to the port; the trailer tells UNDERRUN, RHALT and the count. R advances as
the reply leaves. A queue that is off is refused, as are a count of 0 or above 4,096. -/
def Obligations.QueuesAreRead : Prop :=
  (∀ (h : Hdr) (p : Port) (q n shown : Nat) (bad : Option Nat) (s : State), h.src = .port p → Admitted h (.queueRead q n shown bad) s →
    (q < 16 → 1 ≤ n → n ≤ 4096 → s.qOn q = true →
      let x := s.queue q
      let staged := if (s.win p).q = some q then (s.win p).words else []
      let want := min n shown
      let first := x.r + s.owed q + staged.length
      let fetch := if x.rhalt then 0 else min (want - staged.length) (x.c - first)
      -- the first of the fetched words that cannot be read
      let stop (j : Nat) : Prop := s.allows (s.qAddr q (first + j)) 1 = false ∨ bad = some j
      let before := match p with | .a => x.lastA | .b => x.lastB
      ∀ j, j ≤ fetch → (∀ l, l < j → ¬ stop l) → (j < fetch → stop j) →
      let got := (staged ++ (List.range j).map fun l => s.qWord q (first + l)).take want
      let k := got.length
      let last := got.getLastD before
      let halted := x.rhalt || decide (j < fetch)
      let data := (got ++ List.replicate (n - k) last).flatMap (fun w => leBytes 8 w.toNat) ++
        leBytes 4 ((if k < n then 2 ^ 31 else 0) + (if halted then 2 ^ 30 else 0) + k)
      let t := s.setWin p { q := some q, words := staged.drop k }
      let t : State := { t with eng := { t.eng with corrected := t.eng.corrected + h.fix.length } }
      let t := if j < fetch then
          t.moverFault (1 + portIx p) (if s.allows (s.qAddr q (first + j)) 1 then 2 else 1) q (s.qAddr q (first + j))
        else t
      ∃ u, Leads (.queueRead h q n shown bad) s u ∧
        u.proto.replies = s.proto.replies ++ [{ replyOf h (s.nodeAddr.getD 0x40) .ok data with q := some (q, k, before), ready := s.clk.frc }] ∧
        ∃ v, AnsweredFrom v u ∧ v = { t with queues := v.queues } ∧
          ∀ y, v.queue y = if y ≠ q then s.queue y else
            { x with underrun := x.underrun || decide (k < n), rhalt := halted
                     lastA := if p = .a then last else x.lastA, lastB := if p = .b then last else x.lastB }) ∧
    (16 ≤ q ∨ n = 0 ∨ 4096 < n → Claims.RefusesOn (.queueRead h q n shown bad) h .badParam [] s
      { s with eng := { s.eng with corrected := s.eng.corrected + h.fix.length } }) ∧
    (q < 16 → 1 ≤ n → n ≤ 4096 → s.qOn q = false → Claims.RefusesOn (.queueRead h q n shown bad) h .stateConflict
      [BitVec.ofNat 8 (devCode s.proto.dev), BitVec.ofNat 8 (0x20 + q), 0] s
      { s with eng := { s.eng with corrected := s.eng.corrected + h.fix.length } })) ∧
  ∀ (p : Port) (r : Reply) (q n : Nat) (before : W64) (ls : List Lead) (s : State), s.portLive p = true →
    s.proto.replies = [r] → r.src = .port p → r.q = some (q, n, before) → n ≤ 4096 → r.status = .ok → s.hostIf.ratePend = [] →
    p = .a ∨ s.half = false ∨ s.txAt r ≤ s.clk.frc →
    let v := (s.transfers p ls).modBus p fun b => { b with pos := 0, rdy := false }
    let t : State := { v with hostIf := { v.hostIf with sentB := if p = .b then some s.clk.frc else s.hostIf.sentB } }
    let proto : Proto := { s.proto with replies := []
                                        tags := if r.frees then s.proto.tags.filter fun x => x.1 ≠ r.tag else s.proto.tags }
    (s.transfers p ls).sending p = true →
    (s.qOn q = true → s.fld (.weirThr q) 31 30 = 0 → Leads (.replySent p ls) s
      (State.setQueue { t with proto := proto } q { s.queue q with r := min (s.queue q).c ((s.queue q).r + n), thrHigh := false })) ∧
    (s.qOn q = false → Leads (.replySent p ls) s { t with proto := proto })

/-- A step of corrected time by `step` units of 2^−16 ns with a change of RATE by command (R358, R362, R363): a new epoch from the next
TCLK period on, at which corrected time is continuous but for the step, to within the rounding of one ns; TIME_LAST_STEP, and FORCED for
one beyond the limit; for a step that is not 0 the event 0x1900 and its count; on a MASTER it counts in STEPSEQ. -/
def Claims.stepped (s w : State) (step rate : Int) : Prop :=
  let forced : Bool := decide (((s.reg .timeJumpLimit).toNat : Int) * 65536 < |step|)
  let master : Bool := s.fld .timeSrvStat 25 23 == 5
  w.tim = { ofs := w.tim.ofs, rate := rate, epoch := s.tim.epoch + 1, rates := cellSet s.tim.rates (s.tim.epoch + 1) rate
            ended := s.tim.ended ++ [(s.clk.frc + 1, s.tim.epoch, s.tim.ofs, s.tim.rate)] } ∧
  (∃ d : Int, -1 ≤ d ∧ d ≤ 1 ∧
    ((w.timeOf (s.clk.frc + 1) : Nat) : Int) % 2 ^ 64 = ((corrected (s.tim.ofs + step) s.tim.rate (s.clk.frc + 1) : Nat) + d) % 2 ^ 64) ∧
  (∀ q : Reg, decodeAddr q.addr = some q → w.reg q =
    if q = .timeLastStep then BitVec.ofInt 32 (max (-(2 ^ 31)) (min (2 ^ 31 - 1) (step / 65536)))
    else if q = .timeCnt ∧ step ≠ 0 then putBits (s.reg q) 23 16 (min 255 (s.fld q 23 16 + 1))
    else if q = .timeSrvStat then
      putBits (putBits (s.reg q) 22 22 forced.toNat) 7 0 ((s.fld q 7 0 + master.toNat) % 256)
    else s.reg q) ∧
  w.weir.mv0 = s.weir.mv0 ++ (if step = 0 then []
    else s.queuesAll.map fun q => (q, eventUnit 0x1900 { s.now with t := w.timeOf (s.clk.frc + 1), ep := w.tim.epoch })) ∧
  w = { s with regs := w.regs, tim := w.tim, weir := { s.weir with mv0 := w.weir.mv0 }
               servo := if master then { s.servo with flag := forced } else s.servo }
/-- A step that is refused (R362): it is noted, source 72 fires and event 0x1901 goes to every enabled queue; time does not change. -/
def Claims.stepRefused (s : State) (step : Int) : State :=
  State.event (State.irqFire ((s.setReg .timeLastStep (BitVec.ofInt 32 (max (-(2 ^ 31)) (min (2 ^ 31 - 1) (step / 65536))))).setBit .timeSrvStat
    19 true) 72) 0x1901 s.now s.queuesAll
/-- TIME_SET and TIME_ADJUST (R360, R361, R363; that LAST_STEP is cut to whole ns downwards and how STEPSEQ counts are the DESIGN CHOICEs of
log entry 93, by which parameters t(F_p) is taken that of log entry 94): refused while a servo that is no MASTER holds the time; a step beyond TIME_JUMP_LIMIT is
refused, unless forced; else the step, or the rate alone, takes effect. -/
def Obligations.TimeIsStepped : Prop :=
  ∀ (h : Hdr) (s : State),
    let held : Prop := s.bit .timeSrvCfg 31 = true ∧ s.fld .timeSrvStat 25 23 ≠ 5
    let limit : Int := (s.reg .timeJumpLimit).toNat * 65536
    (∀ (t frac : Nat) (force : Bool), Admitted h (.timeSet t frac force) s →
      let step := timeDiff t (s.timeOf h.rx) * 65536 + frac
      (held → Refuses (.timeSet h t frac force) h .stateConflict [BitVec.ofNat 8 (devCode s.proto.dev), 0xfe, 0] s) ∧
      (¬ held → limit < |step| → force = false →
        ∃ u, Leads (.timeSet h t frac force) s u ∧ Replies h .jumpRefused [] s u ∧ AnsweredFrom (Claims.stepRefused s step) u) ∧
      (¬ held → |step| ≤ limit ∨ force = true → ∃ w, Answers (.timeSet h t frac force) h [] s w ∧ Claims.stepped s w step s.tim.rate)) ∧
    ∀ (st : Int) (frac : Nat) (rate : Int) (sel : Nat), Admitted h (.timeAdjust st frac rate sel) s →
      let step := st * 65536 + frac
      let rate' := if sel / 2 % 2 = 1 then rate else s.tim.rate
      (sel % 4 = 0 → Refuses (.timeAdjust h st frac rate sel) h .badParam [] s) ∧
      (sel % 4 ≠ 0 → held →
        Refuses (.timeAdjust h st frac rate sel) h .stateConflict [BitVec.ofNat 8 (devCode s.proto.dev), 0xfe, 0] s) ∧
      (sel % 2 = 1 → ¬ held → limit < |step| →
        ∃ u, Leads (.timeAdjust h st frac rate sel) s u ∧ Replies h .jumpRefused [] s u ∧ AnsweredFrom (Claims.stepRefused s step) u) ∧
      (sel % 2 = 1 → ¬ held → |step| ≤ limit →
        ∃ w, Answers (.timeAdjust h st frac rate sel) h [] s w ∧ Claims.stepped s w step rate') ∧
      (sel % 4 = 2 → ¬ held → ∃ t, Answers (.timeAdjust h st frac rate sel) h [] s { s with tim := t } ∧
        t = { ofs := t.ofs, rate := rate, epoch := s.tim.epoch + 1, rates := cellSet s.tim.rates (s.tim.epoch + 1) rate
              ended := s.tim.ended ++ [(s.clk.frc + 1, s.tim.epoch, s.tim.ofs, s.tim.rate)] } ∧
        ∃ d : Int, -1 ≤ d ∧ d ≤ 1 ∧
          ((corrected t.ofs t.rate (s.clk.frc + 1) : Nat) : Int) % 2 ^ 64 = ((s.timeOf (s.clk.frc + 1) : Nat) + d) % 2 ^ 64)

/-- A node takes an address (R348, R364, R366): source 71 where it changes; a MASTER shows it as MASTER, 0x3F while it is unassigned; any
other node that is now the better candidate becomes MASTER (`elect`, statement TimeIsServed). -/
def Claims.AddressIsTaken : Prop :=
  ∀ (s : State) (a : Nat), a < 256 →
    let t := State.irqFire (s.setReg .linkNode (putBits (s.reg .linkNode) 7 0 a)) 71
    (s.fld .linkNode 7 0 = a → s.setNode a = s) ∧
    (s.fld .linkNode 7 0 ≠ a →
      (s.fld .timeSrvStat 25 23 = 5 →
        s.setNode a = t.setReg .timeSrvStat (putBits (t.reg .timeSrvStat) 31 26 (if a = 0xff then 0x3f else a))) ∧
      (s.fld .timeSrvStat 25 23 ≠ 5 → s.setNode a = t.elect))
/-- LINK_ENUM (R348; the destination byte 0x7F of ENU and the start of the 10 ms are the model's, log entries 41 and 146): only at the root, which takes address 0, with source 71 where its address changes; without a downstream port the
hub counts itself; else address 1 is offered downstream and the command waits; when 10 ms have passed it is answered LINK_TIMEOUT, and
before that the timeout does nothing. -/
def Obligations.NodesAreEnumerated : Prop :=
  Claims.AddressIsTaken ∧ ∀ (h : Hdr) (s : State),
    let t := s.setNode 0
    (Admitted h .linkEnum s → s.portUp 0 = true →
      Refuses (.linkEnum h) h .stateConflict [BitVec.ofNat 8 (devCode s.proto.dev), 0xfe, 0] s) ∧
    (Admitted h .linkEnum s → s.portUp 0 = false → s.portUp 1 = false →
      ∃ u, Leads (.linkEnum h) s u ∧ u.proto.replies = s.proto.replies ++ [{ replyOf h 0 .ok [1] with ready := s.clk.frc }] ∧
        AnsweredFrom (t.setReg .linkNode (putBits (t.reg .linkNode) 15 8 1)) u) ∧
    (Admitted h .linkEnum s → s.portUp 0 = false → s.portUp 1 = true →
      Claims.Defers (.linkEnum h) h .linkEnum s
        { t with link := { t.link with
            enumAt := s.clk.frc
            dn := { t.link.dn with tx := t.link.dn.tx ++ [(true, none, { type := 0x0b, dest := 0x7f, src := 0, payload := [1, 0] })] } } }) ∧
    (∀ p, h.src = .port p → s.fabricOn = true → s.proto.longs = [(h, .linkEnum)] →
      (s.link.enumAt + 245760 ≤ s.clk.frc → Claims.Ends .enumTimeout h .linkEnum .linkTimeout [] s s) ∧
      (s.clk.frc < s.link.enumAt + 245760 → Leads .enumTimeout s s))

/-- SEAL and UNSEAL (R389, R390, R391): SEAL computes the CRC of the set; a set that is the reference seals without a count; any other
needs an open jumper once a count stands, and room in the counter; UNSEAL needs both. At the completion the seal state changes, its event
is written and source 15 fires; a counted SEAL programs the next counter bit and, while the record memory lasts, its audit record, of which
some bits may not take (a record whose CRC then fails sets REC_BAD), fires source 16 as either becomes full, and makes the set the
reference; where its bit has failed three attempts it ends AUDIT_FULL; memory errors that reading the set meets take their effects at the
completion (`memErr`; R21, R162; log entry 154). The jumper shows at once and
its change is kept. -/
def Obligations.TheHubIsSealed : Prop :=
  (∀ (h : Hdr) (s : State) (crc : W32), crc = crc32 s.setStream →
    (Admitted h .seal s → s.sl.sealed = true → Answers (.seal h) h (leBytes 2 s.auditCount ++ leBytes 4 (s.reg .sealCrc).toNat) s s) ∧
    (Admitted h .seal s → s.sl.sealed = false → (s.sl.refValid = true ∧ crc = s.reg .sealRef) ∨
      (s.auditCount ≠ 2048 ∧ (s.auditCount = 0 ∨ s.sl.jumper = true)) → Claims.Defers (.seal h) h .seal s (s.setReg .sealCrc crc)) ∧
    (Admitted h .seal s → s.sl.sealed = false → (s.sl.refValid = false ∨ crc ≠ s.reg .sealRef) →
      let w : State := State.event { s.setReg .sealCrc crc with sl := { s.sl with mismatch := true } } 0x1b03 s.now s.queuesAll
      (s.auditCount = 2048 → ∃ u, Leads (.seal h) s u ∧ Replies h .auditFull [] s u ∧ AnsweredFrom w u) ∧
      (s.auditCount ≠ 2048 → s.auditCount ≠ 0 → s.sl.jumper = false → ∃ u, Leads (.seal h) s u ∧
        Replies h .stateConflict [BitVec.ofNat 8 (devCode s.proto.dev), 0xfe, 0] s u ∧
        AnsweredFrom (w.satAdd .cmdStateRejects 31 0 1) u)) ∧
    (Admitted h .unseal s →
      (s.sl.sealed = false → Answers (.unseal h) h [] s s) ∧
      (s.sl.sealed = true → s.sl.jumper = false →
        Refuses (.unseal h) h .stateConflict [BitVec.ofNat 8 (devCode s.proto.dev), 0xfe, 0] s) ∧
      (s.sl.sealed = true → s.sl.jumper = true → s.auditCount = 2048 → Refuses (.unseal h) h .auditFull [] s) ∧
      (s.sl.sealed = true → s.sl.jumper = true → s.auditCount ≠ 2048 → Claims.Defers (.unseal h) h .unseal s s))) ∧
  (∀ (h : Hdr) (p : Port) (n : Nat) (stuck : List Byte) (err : MemErr) (s : State), h.src = .port p → s.fabricOn = true →
    (s.proto.longs = [(h, .unseal)] → ∃ u, Leads (.sealComplete n stuck err) s u ∧ Replies h .ok [] s u ∧
      AnsweredFrom (State.irqFire (State.event { s with sl := { s.sl with sealed := false }, proto := { s.proto with longs := [] } }
        0x1b02 s.now s.queuesAll) 15) u) ∧
    (s.proto.longs = [(h, .seal)] →
      let t := s.memErr err
      let i : Instr := .sealComplete n stuck err
      (s.sl.refValid = true → s.reg .sealCrc = s.reg .sealRef →
        ∃ u, Leads i s u ∧ Replies h .ok (leBytes 2 s.auditCount ++ leBytes 4 (s.reg .sealCrc).toNat) s u ∧
          AnsweredFrom (State.irqFire (State.event { t with sl := { t.sl with sealed := true }, proto := { t.proto with longs := [] } }
            0x1b00 s.now s.queuesAll) 15) u) ∧
      (s.sl.refValid = false ∨ s.reg .sealCrc ≠ s.reg .sealRef →
        (3 ≤ n → ∃ u, Leads i s u ∧ Replies h .auditFull [] s u ∧
          AnsweredFrom { t with sl := { t.sl with cntErr := true }, proto := { t.proto with longs := [] } } u) ∧
        (n < 3 → s.auditCount < 2048 →
          let c := s.auditCount
          let body := s.auditRecord c
          ∃ m, let w : State := { t with otp := m, proto := { t.proto with longs := [] } }
            let good : Bool := decide (128 ≤ c) || w.recGood c
            let v := (if c = 127 ∨ c = 2047 then w.irqFire 16 else w).setReg .sealRef (s.reg .sealCrc)
            (∃ u, Leads i s u ∧ Replies h .ok (leBytes 2 w.auditCount ++ leBytes 4 (s.reg .sealCrc).toNat) s u ∧
              AnsweredFrom (State.irqFire (State.event
                { v with sl := { t.sl with sealed := true, refValid := true, recBad := s.sl.recBad || !good } } 0x1b01 s.now s.queuesAll) 15) u) ∧
            ∀ a, cellGet m a 0 = s.otpByte a ||| (if a = 0x20000800 + c / 8 then BitVec.ofNat 8 (2 ^ (c % 8)) else 0) |||
              (if c < 128 ∧ 0x20000900 + 32 * c ≤ a ∧ a < 0x20000900 + 32 * c + 32 then
                body.getD (a - (0x20000900 + 32 * c)) 0 &&& ~~~ (stuck.getD (a - (0x20000900 + 32 * c)) 0) else 0))))) ∧
  (∀ (high : Bool) (s : State), (high ≠ s.sl.jumper → Leads (.sealNChange high) s
      (State.irqFire { s with sl := { s.sl with jumper := high, jmpS := true } } 15)) ∧ Leads (.sealNChange s.sl.jumper) s s) ∧
  (∀ (i : Instr) (h : Hdr) (v : W32) (s : State), Claims.writes i h .sealCtrl v → Accepted h .sealCtrl v s → Answers i h [] s
    { s with sl := { s.sl with jmpS := s.sl.jmpS && !v.getLsbD 0, mismatch := s.sl.mismatch && !v.getLsbD 0
                               calcPend := s.sl.calcPend || v.getLsbD 1 } }) ∧
  ∀ (err : MemErr) (s : State), (s.sl.calcPend = true → s.fabricOn = true →
      Leads (.calcComplete err) s
        ((({ s with sl := { s.sl with calcPend := false } } : State).setReg .sealCrc (crc32 s.setStream)).memErr err)) ∧
    (s.sl.calcPend = false → Leads (.calcComplete err) s s)

/-- PATCH_LOAD and PATCH_ACTIVATE (R397): bytes go to patch RAM at 0x1004_0000 + OFS, while the hub is open and no patch is active; so is an
activation refused; an image whose format, key hash and signature are right becomes active; one that fails leaves the ROM in force, keeps the step it failed,
fires source 17 and writes event 0x1B05. The errors that reading the image corrected are counted (R21). -/
def Obligations.PatchesAreLoaded : Prop :=
  (∀ (h : Hdr) (ofs : Nat) (bs : List Byte) (s : State), Admitted h (.patchLoad ofs bs) s →
    (65536 < ofs + bs.length → Refuses (.patchLoad h ofs bs) h .badParam [] s) ∧
    (ofs + bs.length ≤ 65536 → s.sl.sealed = true → Refuses (.patchLoad h ofs bs) h .sealed [] s) ∧
    (ofs + bs.length ≤ 65536 → s.sl.sealed = false → s.sl.active = true →
      Refuses (.patchLoad h ofs bs) h .stateConflict [BitVec.ofNat 8 (devCode s.proto.dev), 0xfe, 0] s) ∧
    (ofs + bs.length ≤ 65536 → s.sl.sealed = false → s.sl.active = false → ∃ m, Answers (.patchLoad h ofs bs) h [] s { s with sram := m } ∧
      ∀ b, cellGet m b 0 = if 0x10040000 + ofs ≤ b ∧ b < 0x10040000 + ofs + bs.length then bs.getD (b - (0x10040000 + ofs)) 0
        else s.sramByte b)) ∧
  (∀ (h : Hdr) (s : State), Admitted h .patchActivate s →
    (s.sl.sealed = true → Refuses (.patchActivate h) h .sealed [] s) ∧
    (s.sl.sealed = false → s.sl.active = true →
      Refuses (.patchActivate h) h .stateConflict [BitVec.ofNat 8 (devCode s.proto.dev), 0xfe, 0] s) ∧
    (s.sl.sealed = false → s.sl.active = false → Claims.Defers (.patchActivate h) h .patchActivate s s)) ∧
  ∀ (h : Hdr) (p : Port) (fixed : Nat) (s : State), h.src = .port p → s.fabricOn = true → s.proto.longs = [(h, .patchActivate)] →
    let eng : Eng := { s.eng with corrected := s.eng.corrected + fixed }
    (∀ crc : W32, crc = ~~~ crc32Run (~~~ Sys2Proof.romCrc) (s.patchBytes 0xa0 (ofLe (s.patchBytes 12 4))) → s.patchCheck = 0 →
      ∃ u, Leads (.patchVerificationEnd fixed) s u ∧ Replies h .ok (leBytes 4 (ofLe (s.patchBytes 8 4)) ++ leBytes 4 crc.toNat) s u ∧
      AnsweredFrom (State.event
        { s with eng := eng, sl := { s.sl with active := true, patchId := ofLe (s.patchBytes 8 4), codeCrc := crc }
                 proto := { s.proto with longs := [] } } 0x1b04 s.now s.queuesAll) u) ∧
    (∀ k, k = s.patchCheck → k ≠ 0 → ∃ u, Leads (.patchVerificationEnd fixed) s u ∧
      Replies h (if k = 1 then .badParam else .authFail) [] s u ∧
      AnsweredFrom (State.event (State.irqFire { s with eng := eng, sl := { s.sl with fail := k }, proto := { s.proto with longs := [] } } 17)
        0x1b05 s.now s.queuesAll) u)

/-- WAIT (R370): what is refused; an accepted WAIT is answered ACCEPTED and holds later commands until its entry ends. DOZE is open to every
state but keeps the budget where it stops the PLL; EBB needs the device armed; EBB and HOLD need an enabled source that can wake the hub. -/
def Obligations.WaitIsChecked : Prop :=
  ∀ (h : Hdr) (p : Port) (s : State), h.src = .port p → Admitted h .wait s →
    let t := s.fld .pwrMode 2 0
    let wakes (st : PwrState) : Prop := ∃ i, i < 9 ∧ s.bit .pwrWakeEn i = true ∧ wakeActs st i = true
    let stops : Prop := s.onPll = true ∧ s.portUp 0 = false ∧ s.portUp 1 = false
    let hfrc := capacityOf (8 * 2 ^ s.mclkSel) s.div
    (t = 0 ∨ 5 ≤ t → Refuses (.waitCmd h) h .badParam [] s) ∧
    (t = 2 → s.proto.dev = .config ∨ s.proto.dev = .run →
      Refuses (.waitCmd h) h .stateConflict [BitVec.ofNat 8 (devCode s.proto.dev), 0xff, 0] s) ∧
    (t = 1 → stops → 0 < s.div → 19 * hfrc < 20 * s.loadP → Refuses (.waitCmd h) h .budget [] s) ∧
    (t = 2 → s.proto.dev = .ebb → ¬ wakes .ebb → Refuses (.waitCmd h) h .badParam [] s) ∧
    (t = 3 → ¬ wakes .hold → Refuses (.waitCmd h) h .badParam [] s) ∧
    ((t = 1 ∧ (stops → 20 * s.loadP ≤ 19 * hfrc)) ∨ (t = 2 ∧ s.proto.dev = .ebb ∧ wakes .ebb) ∨ (t = 3 ∧ wakes .hold) ∨ t = 4 →
      ∃ u, Leads (.waitCmd h) s u ∧ Replies h .accepted [] s u ∧
        AnsweredFrom { s with pwr := { s.pwr with entering := true, waitReply := some (.port p, h.tag), target := t
                                                  waitAt := s.clk.frc } } u)

/-- An entry that ends without its target: PWR_LAST_ENTRY takes the result, the reason and who; source 12 fires; held commands go on. -/
def Claims.entryOver (s : State) (result reason who : Nat) : State :=
  let t := (s.setReg .pwrLastEntry (BitVec.ofNat 32 (who * 65536 + reason * 256 + s.pwr.target * 16 + result))).irqFire 12
  { t with pwr := { t.pwr with entering := false, waitReply := none } }
/-- A refusal is counted and its block named (R371, R373). -/
def Claims.refusedBy (s : State) (who : Nat) : State :=
  (s.satAdd .pwrRefuseCount 31 0 1).setReg .pwrRefuser (BitVec.ofNat 32 who)
/-- R371: when the ACCEPTED reply of a WAIT has left: a reply to a host port by its own event, one over the link once no RPL frame of this
node for the sender's node waits at a port (the DESIGN CHOICE of log entry 169). -/
def Claims.replyGone (s : State) : Prop :=
  match s.pwr.waitReply with
  | none => True
  | some (.port _, _) => False
  | some (.link n _, _) => ∀ x ∈ s.link.up.tx ++ s.link.dn.tx, x.2.1 = none → x.2.2.type = 0x02 → x.2.2.dest ≠ n
/-- R371: an ACCEPTED reply that has not left REPLY_TMO ms after the WAIT was accepted ends the entry; before that the check does nothing.
A reply over the link names the link, 0x06. -/
def Claims.EntryRepliesTimeOut : Prop :=
  (∀ (n : Nat) (p : Port) (tag : Nat) (s : State), s.pwr.waitReply = some (.link n p, tag) →
    let due := s.pwr.waitAt + s.fld .pwrCfg 7 0 * 24576
    (s.pwr.entering = true → ¬ Claims.replyGone s → due ≤ s.clk.frc →
      Leads .entryReplyTimeout s (Claims.entryOver (Claims.refusedBy s 6) 2 5 6)) ∧
    (s.pwr.entering = false ∨ Claims.replyGone s ∨ s.clk.frc < due → Leads .entryReplyTimeout s s)) ∧
  ∀ (p : Port) (tag : Nat) (s : State), s.pwr.waitReply = some (.port p, tag) →
    let who := match p with | .a => 4 | .b => 5
    let due := s.pwr.waitAt + s.fld .pwrCfg 7 0 * 24576
    (s.pwr.entering = true → due ≤ s.clk.frc → Leads .entryReplyTimeout s (Claims.entryOver (Claims.refusedBy s who) 2 5 who)) ∧
    (s.pwr.entering = false ∨ s.clk.frc < due → Leads .entryReplyTimeout s s)
/-- What a power entry leads to once nothing ends it (R375). -/
def Claims.Commits (o : EntryObs) (s : State) : Prop :=
  let t := s.pwr.target
  let rested (u : State) : Prop := u.reg .pwrLastEntry = BitVec.ofNat 32 (16 * t) ∧ u.pwr.commitLf = s.clk.lf
  (t = 1 → s.portUp 0 = true ∨ s.portUp 1 = true →
    Claims.LeadsTo (.powerEntry o) s { s with pwr := { s.pwr with st := .doze, commitLf := s.clk.lf } } [(.pwrLastEntry, 0x10)]) ∧
  (t = 1 → s.portUp 0 = false → s.portUp 1 = false → ∃ u, Leads (.powerEntry o) s u ∧ u.pwr.st = .doze ∧ rested u ∧
    u.onPll = false ∧ u.clk.pll = none ∧ u.clk.op = none ∧ u.chains = s.chains ∧ u.drivers = s.drivers ∧ u.sram = s.sram) ∧
  (t = 3 ∨ t = 4 → ∃ u, Leads (.powerEntry o) s u ∧ u.pwr.st = (if t = 3 then .hold else .off) ∧ rested u ∧
    (∀ n, n < 24 → (u.ch n).st = .idle ∧ (u.ch n).startPend = false) ∧ u.eng.jobs = [] ∧
    (∀ k, k < 8 → u.poll k = { s.poll k with due := false } ∧
      u.fld (.sbusSpCnt k) 7 0 = min 255 (s.fld (.sbusSpCnt k) 7 0 + (s.poll k).due.toNat)) ∧
    u.portUp 0 = false ∧ u.portUp 1 = false ∧ u.beo0.on = false ∧ u.beo1.on = false ∧ u.route.evtOut = 0 ∧ u.route.pend = [] ∧
    u.onPll = false ∧ u.clk.pll = none ∧ (t = 3 → s.bit .pwrMode 4 = true → u.drivers = s.drivers ∧ u.sources = s.sources) ∧
    (t = 4 ∨ s.bit .pwrMode 4 = false →
      (∀ x, x < 4 → u.drv x =
        if (s.drv x).on = true then
          { s.drv x with on := false, en := false, ramp := false, limit := false, learn := if (s.drv x).learn = 2 then 3 else (s.drv x).learn }
        else s.drv x) ∧
      ∀ n, n < 8 → u.isrc n = if (s.isrc n).on = true then { s.isrc n with on := false, en := false } else s.isrc n) ∧
    (t = 4 → u.clk.copyA = none ∧ u.clk.copyB = none ∧ u.clk.lf = 0 ∧ u.reg .aoBorCount = 0 ∧ u.reg .aoWdtCount = 0)) ∧
  (t = 2 → ∃ u, Leads (.powerEntry o) s u ∧ u.pwr.st = .ebb ∧ rested u ∧ u.ebb.cycling = false ∧ u.onPll = false ∧
    u.portUp 0 = false ∧ u.portUp 1 = false ∧ u.route.evtOut = 0 ∧
    (∀ x, x < 4 → (u.drv x).on = false ∧ (u.ebb.pulsed / 2 ^ x % 2 = 1 ↔ (s.drv x).on = true) ∧
      (u.drv x).pol = ((s.drv x).pol && !(s.drv x).chopEn)) ∧
    ∀ n, n < 8 → (u.isrc n).on = false ∧ (u.ebb.pulsed / 2 ^ (4 + n) % 2 = 1 ↔ (s.isrc n).on = true))
/-- The entry (R371 to R375), once the ACCEPTED reply has left: a wake source that is latched already ends it PENDING; one that fires
during the ask WAKE; the first block, in the order of R372, that does not agree refuses it; a source that fires in the commit cycle ends it
WAKE_RACE; else the hub commits: DOZE stops the PLL where no link port is UP; HOLD and OFF put every chain to IDLE, the link, the EVT pins
and the emulator outputs off, drivers and sources too unless HOLD keeps them; EBB stops drivers and sources until its cycles pulse them,
with generators in normal polarity; OFF keeps nothing of the AO domain (R380). A reply that does not leave in time ends the entry REPLY_TMO. -/
def Obligations.PowerStatesAreEntered : Prop :=
  Claims.EntryRepliesTimeOut ∧
  (∀ (o : EntryObs) (s : State), s.pwr.entering = false ∨ ¬ Claims.replyGone s ∨ s.pwr.st ≠ .run → Leads (.powerEntry o) s s) ∧
  ∀ (o : EntryObs) (s : State), s.pwr.entering = true → Claims.replyGone s → s.pwr.st = .run →
    let t := s.pwr.target
    let blocks := [0x0b, 0x07, 0x01, 0x02, 0x0a, 0x08, 0x03, 0x06, 0x04, 0x05, 0x09]
    let quiet : Prop := ∀ i, i < 9 → s.bit .pwrWakePend i = true → s.bit .pwrWakeEn i = false
    let agreed : Prop := ∀ id ∈ blocks, s.agrees o t id = true
    (∀ i, i < 9 → s.bit .pwrWakePend i = true → s.bit .pwrWakeEn i = true →
      (∀ k, k < i → ¬ (s.bit .pwrWakePend k = true ∧ s.bit .pwrWakeEn k = true)) →
      Leads (.powerEntry o) s (Claims.entryOver s 1 3 (0x10 + i))) ∧
    (quiet → ∀ i c, o.wake = some (0x10 + i, c) → s.bit .pwrWakeEn i = true ∨ (t = 1 ∧ (i = 2 ∨ i = 3)) →
      i ∈ [0, 2, 3, 4, 8] → (i = 3 → s.bit .supStatus 1 = true) →
      (c = false → Leads (.powerEntry o) s (Claims.entryOver s 1 1 (0x10 + i))) ∧
      (c = true → agreed → Leads (.powerEntry o) s (Claims.entryOver s 1 2 (0x10 + i)))) ∧
    (quiet → o.wake = none ∨ (∃ w, o.wake = some (w, true)) →
      (∀ pre id post, blocks = pre ++ id :: post → (∀ x ∈ pre, s.agrees o t x = true) → s.agrees o t id = false →
        Leads (.powerEntry o) s (Claims.entryOver (Claims.refusedBy s id) 2 4 id)) ∧
      (s.bit .beoLoopCfg 31 = true → t ≠ 1 → Leads (.powerEntry o) s (Claims.entryOver (Claims.refusedBy s 0x0b) 2 4 0x0b)) ∧
      ∀ k, (s.poll k).busy = true → k < 8 → t = 1 → s.agrees o 1 0x02 = true →
        Leads (.powerEntry o) s (Claims.entryOver (Claims.refusedBy s 0x0a) 2 4 0x0a)) ∧
    (quiet → o.wake = none → agreed → Claims.Commits o s)

/-- What the wake from a state whose TCLK stood still brings back (R307, R378, R379): the FRC, the lease, the banks. -/
def Claims.wokeUp (id : Nat) (s u : State) : Prop :=
  u.pwr.waking = some id ∧ u.clk.frc = (s.clk.frc + 750 * (s.clk.lf - s.pwr.lfAt)) % 2 ^ 64 ∧
  (s.proto.owner.isSome = true → u.proto.deadline = u.clk.frc + s.proto.lease * 24576) ∧
  (∀ b, b < 16 → (u.reg .pwrBankLost).getLsbD b = !s.bit .pwrBankRet b) ∧ u.coef = s.coef ∧
  ∀ a, 0x10000000 ≤ a → a < 0x10400000 →
    u.sramByte a = if s.bit .pwrBankRet ((a - 0x10000000) / 0x40000) = true then s.sramByte a else 0
/-- R376: PWR_TIMER LFCLK periods after the commit the timer's source fires in DOZE and HOLD. -/
def Claims.TheTimerWakes : Prop :=
  ∀ s : State, s.pwr.waking = none →
    let n := s.fld .pwrTimer 23 0
    let latched := if s.bit .pwrWakeEn 5 = true then [(Reg.pwrWakePend, s.reg .pwrWakePend ||| 0x20)] else []
    (n = 0 ∨ (s.pwr.st ≠ .doze ∧ s.pwr.st ≠ .hold) → Leads .wakeTimer s s) ∧
    (n ≠ 0 → s.pwr.st = .hold →
      Claims.LeadsTo .wakeTimer s { s with clk := { s.clk with lf := max s.clk.lf (s.pwr.commitLf + n) } } latched) ∧
    (n ≠ 0 → s.pwr.st = .doze → ∃ c : Clk, c.lf = max s.clk.lf (s.pwr.commitLf + n) ∧
      Claims.LeadsTo .wakeTimer s { s with clk := c } latched)
/-- Wakes (R374, R376 to R379): a source that acts in the power state and is enabled, or a host port in DOZE, is latched and begins the wake;
any other does nothing; during an Ebb cycle it waits for the cycle's end. From EBB and HOLD the FRC catches up by 750 counts for each LFCLK
period, the lease restarts, banks that are not retained are lost and read 0; from HOLD the interrupt controller, statistics and detectors
are reset, coefficients are kept, and the device is in CONFIG; from EBB the pulsed drivers and sources drive on. At readiness the hub is in
RUN, or in DOZE where a window woke it and EBB_CFG says so, and source 12 fires. -/
def Obligations.TheHubWakes : Prop :=
  Claims.TheTimerWakes ∧
  (∀ (i : Nat) (s : State), i < 9 →
    let pad : Prop := i = 3 → s.bit .supStatus 1 = true
    (s.wakeable i = false ∨ s.pwr.waking.isSome = true → Leads (.wake (0x10 + i)) s s) ∧
    (s.pwr.waking = none → s.pwr.st = .doze → wakeActs .doze i = true → s.bit .pwrWakeEn i = true ∨ i = 2 ∨ i = 3 → pad →
      Claims.LeadsTo (.wake (0x10 + i)) s { s with pwr := { s.pwr with waking := some (0x10 + i) }, clk := { s.clk with probe := false } }
        [(.pwrWakePend, s.reg .pwrWakePend ||| BitVec.ofNat 32 (2 ^ i)), (.regCtrl, s.reg .regCtrl &&& 0xfffffffe),
         (.regStatus, s.reg .regStatus &&& 0xfffffffe), (.pwrBankLost, 0)]) ∧
    (s.pwr.waking = none → s.pwr.st = .hold → wakeActs .hold i = true → s.bit .pwrWakeEn i = true → pad → ∃ u, Leads (.wake (0x10 + i)) s u ∧
      Claims.wokeUp (0x10 + i) s u ∧ u.bit .pwrWakePend i = true ∧ u.proto.dev = .config ∧ u.irq.pend = 0 ∧ u.irq.insv = 0 ∧
      u.stats = [] ∧ u.dets = [] ∧ u.chains = s.chains ∧ u.route.pend = []) ∧
    (s.pwr.waking = none → s.pwr.st = .ebb → wakeActs .ebb i = true → s.bit .pwrWakeEn i = true → pad →
      (s.ebb.cycling = true →
        Claims.LeadsTo (.wake (0x10 + i)) s { s with ebb := { s.ebb with wakeAfter := some (s.ebb.wakeAfter.getD (0x10 + i)) } }
          [(.pwrWakePend, s.reg .pwrWakePend ||| BitVec.ofNat 32 (2 ^ i))]) ∧
      (s.ebb.cycling = false → ∃ u, Leads (.wake (0x10 + i)) s u ∧ Claims.wokeUp (0x10 + i) s u ∧ u.bit .pwrWakePend i = true ∧
        u.proto.dev = s.proto.dev ∧ u.ebb.mask = s.ebb.mask ∧ u.ebb.pulsed = 0 ∧
        (∀ x, x < 4 → (u.drv x).on = ((s.drv x).on || decide (s.ebb.pulsed / 2 ^ x % 2 = 1))) ∧
        ∀ n, n < 8 → (u.isrc n).on = ((s.isrc n).on || decide (s.ebb.pulsed / 2 ^ (4 + n) % 2 = 1))))) ∧
  ∀ s : State,
    (s.pwr.waking = none → Leads .wakeReady s s) ∧
    ∀ id, s.pwr.waking = some id →
      let doze : Bool := decide (s.pwr.st = .ebb) && decide (id = 0x16) && s.bit .ebbCfg 29
      Leads .wakeReady s (State.irqFire
        { (s.setReg .pwrLastEntry (putBits (s.reg .pwrLastEntry) 31 24 id)).setReg .pwrSlept
            (BitVec.ofNat 32 (min (2 ^ 32 - 1) (s.clk.lf - s.pwr.commitLf))) with
          pwr := { s.pwr with st := if doze then .doze else .run, entering := doze, waking := none
                              commitLf := if doze then s.clk.lf else s.pwr.commitLf } } 12)

/-- Ebb mode (R381, R382): the arming of one to eight chains and what it refuses; a cycle every PERIOD LFCLK periods, at which the FRC
catches up and the pulsed drivers and sources switch on; the conversions start on one MCLK edge; results inside their windows let the hub
sleep on, one outside, over-range, or under a fault of its chain shows in EBB_STATUS, fires source 13 and, where it is enabled, wakes the hub, and so does a fault that a monitor
finds (R146); the comparators' flags set AFE_OVL and fire source 3 (R126); the disarming returns to CONFIG. -/
def Obligations.EbbCycles : Prop :=
  (∀ (h : Hdr) (p : EbbParams) (s : State), Admitted h (.ebbArm p) s →
    let ns := (List.range 24).filter fun n => decide (p.mask / 2 ^ n % 2 = 1)
    let lq := s.fld .ebbCfg 27 24
    let ok : Prop := ns ≠ [] ∧ ns.length ≤ 8 ∧ (∀ n ∈ ns, s.portsOk p.mask n = true ∧ s.refOk n = true) ∧
      33 ≤ s.fld .ebbCfg 20 0 ∧ s.fld .ebbCfg 20 0 ≤ 1966080 ∧ s.fld .ebbPulse 27 16 ≠ 0 ∧ 8 ≤ s.fld .ebbPulse 10 0 ∧
      s.fld .ebbPulse 10 0 ≤ 1024 ∧ (∀ k, k < 8 → (s.reg (.ebbWlo k)).toInt ≤ (s.reg (.ebbWhi k)).toInt) ∧
      (s.fld .ebbCfg 31 30 ≠ 0 → s.qOn lq = true ∧ ∀ b ∈ s.qBlocks lq, s.bit .pwrBankRet (b / 64) = true)
    (¬ ok → Refuses (.ebbArm h p) h .badParam [] s) ∧
    (ok → Answers (.ebbArm h p) h [] s
      { (s.setReg .ebbCycles 0).setReg .ebbStatus 0 with ebb := { mask := p.mask }, proto := { s.proto with dev := .ebb } })) ∧
  (∀ (h : Hdr) (s : State), Admitted h .ebbDisarm s →
    Answers (.ebbDisarm h) h [] s { s with ebb := {}, proto := { s.proto with dev := .config } }) ∧
  (∀ s : State, s.pwr.st ≠ .ebb → Leads .ebbCycle s s ∧ Leads .ebbSettleEnd s s) ∧
  ∀ s : State, s.pwr.st = .ebb →
    (s.ebb.cycling = false → s.pwr.waking = none → ∃ ds cs, let lf := max s.clk.lf s.ebb.next
      Leads .ebbCycle s
        { s with clk := { s.clk with lf := lf, frc := (s.clk.frc + 750 * (lf - s.pwr.lfAt)) % 2 ^ 64 }, pwr := { s.pwr with lfAt := lf }
                 drivers := ds, sources := cs
                 ebb := { s.ebb with cycling := true, convAt := none, next := lf + s.fld .ebbCfg 20 0 } } ∧
      (∀ x, x < 4 → cellGet ds x {} =
        if s.ebb.pulsed / 2 ^ x % 2 = 1 then { s.drv x with on := true, stepAt := some s.clk.mclk } else s.drv x) ∧
      ∀ n, n < 8 → cellGet cs n {} = if s.ebb.pulsed / 2 ^ (4 + n) % 2 = 1 then { s.isrc n with on := true } else s.isrc n) ∧
    (s.ebb.cycling = true → s.ebb.convAt = none → s.clk.mclkPh < s.tPerM → ∃ u, Leads .ebbSettleEnd s u ∧
      s.clk.mclk ≤ u.clk.mclk ∧ u.clk.mclkPh = 0 ∧ u = { s with clk := u.clk, ebb := { s.ebb with convAt := some u.clk.mclk } }) ∧
    (∀ (rs : List (List Int × Bool)) (fs : List Detection) (d : Detection), s.ebb.cycling = true → s.ebb.wakeAfter = none →
      let t := fs.foldl (fun (s : State) d => s.advanceTo (d.tM + s.qualTime d.kind)) s
      s.bit .pwrWakeEn 6 = true → s.pwr.waking = none → d ∈ fs → ebbMonitor d.kind = true → t.judged d = true →
      s.faultOn (faultCode d.kind) = false →
      ∃ u, Leads (.ebbResult rs fs) s u ∧ u.pwr.waking = some 0x16 ∧ u.bit .pwrWakePend 6 = true ∧ u.faultOn (faultCode d.kind) = true) ∧
    ∀ (rs : List (List Int × Bool)) (m : Nat), s.ebb.cycling = true → s.ebb.convAt = some m → s.ebb.wakeAfter = none →
      s.fld .ebbCfg 31 30 = 0 → s.pwr.waking = none →
      let dec := s.fld .ebbPulse 10 0
      let ns := (List.range 24).filter fun n => decide (s.ebb.mask / 2 ^ n % 2 = 1)
      let end_ := (s.advanceTo (m + 4 * dec + 125)).clk.mclk
      let row (k : Nat) : List Int × Bool := rs.getD k ([], false)
      -- the conversion meets a fault of its chain, active from this cycle or an earlier one
      let faulty (k : Nat) : Prop := ∃ f ∈ s.mon.faults, s.inScope f.scope (ns.getD k 0) = true ∧ f.t0 < end_ + 1 ∧ ∀ e, f.t1 = some e → m + 128 < e
      let inside (k : Nat) : Prop := (row k).2 = false ∧ ¬ faulty k ∧
        (s.reg (.ebbWlo k)).toInt ≤ ebbValue dec (row k).1 / 16 ∧ ebbValue dec (row k).1 / 16 ≤ (s.reg (.ebbWhi k)).toInt
      let slept (u : State) : Prop := u.ebb.cycling = false ∧ u.pwr.st = .ebb ∧ u.pwr.waking = none ∧
        (u.reg .ebbCycles).toNat = min (2 ^ 32 - 1) ((s.reg .ebbCycles).toNat + 1) ∧
        (∀ x, x < 4 → (u.drv x).on = false) ∧ ∀ k, k < 8 → (u.isrc k).on = false
      (∀ k, k < ns.length → (row k).1.length = 4 * dec - 3) → ns.length ≤ 8 → 8 ≤ dec →
      ((∀ k, k < ns.length → inside k) → ∃ u, Leads (.ebbResult rs []) s u ∧ slept u ∧ u.reg .ebbStatus = 0 ∧ u.irq = s.irq) ∧
      (∀ k, k < ns.length → ¬ inside k →
        (s.bit .pwrWakeEn 6 = false → ∃ u, Leads (.ebbResult rs []) s u ∧ slept u ∧ (u.reg .ebbStatus).getLsbD k = true ∧
          (∀ j, j < ns.length → (row j).2 = true → u.bit .afeOvl (ns.getD j 0) = true) ∧
          ((∀ j, j < ns.length → (row j).2 = true → s.bit .afeOvl (ns.getD j 0) = true) → u.irq = (s.irqFire 13).irq) ∧
          (∀ j, j < ns.length → (row j).2 = true → s.bit .afeOvl (ns.getD j 0) = false → u.irq = ((s.irqFire 3).irqFire 13).irq)) ∧
        (s.bit .pwrWakeEn 6 = true → ∃ u, Leads (.ebbResult rs []) s u ∧ u.pwr.waking = some 0x16 ∧
          (u.reg .ebbStatus).getLsbD k = true ∧ u.bit .pwrWakePend 6 = true))

/-- Registers that a reset sets from what it finds, or keeps. -/
def Claims.found : Reg → Bool
  | .aoBorCount | .aoWdtCount | .supStatus | .rstCause | .hostCfg _ | .monTempStatus => true
  | _ => false
/-- The hub outside the AO domain right after a reset: BOOT, nothing running; the waiting commands and the OTP stand; the lines are
evaluated. -/
def Claims.booting (s u : State) : Prop :=
  u.pending = s.pending ∧ u.otp = s.otp ∧ u.sram = [] ∧ u.coef = [] ∧ u.chains = [] ∧ u.queues = [] ∧ u.drivers = [] ∧ u.melds = [] ∧
  u.proto.dev = .boot ∧ u.proto.tags = [] ∧ u.proto.replies = [] ∧ u.proto.longs = [] ∧ u.pwr.st = .run ∧
  u.sl.sealed = false ∧ u.irq.pend = 0 ∧ u.irq.insv = 0 ∧ Claims.LinesEvaluated u
/-- What a restore takes from a copy (R84, R86, R87): node address, RATE, semaphore, SEM_CFG.LEASE and with it the restored owner's lease (the DESIGN CHOICE of log entry
173), counts; a saved seal shows as PRIOR alone; OFFSET continues
the time of the save by the LFCLK periods since, less FRC as it has counted since the reset, in 2^−16 ns, either way rounded. -/
def Claims.restored (c : AoCopy) (u : State) : Prop :=
  let n : Int := u.clk.frc * 15625 * (2 ^ 40 + c.items.rate)
  let d : Int := 384 * 2 ^ 24
  u.proto.owner = c.items.owner ∧ u.proto.lease = c.items.lease ∧ u.fld .semCfg 15 0 = c.items.lease ∧ u.tim.rate = c.items.rate ∧ u.sl.prior = c.items.sealed ∧
  u.reg .pwrRefuseCount = BitVec.ofNat 32 c.items.refuseCount ∧ u.reg .pwrRefuser = BitVec.ofNat 32 c.items.refuser ∧
  (∀ k, c.items.node = some k → k < 64 → u.nodeAddr = some k) ∧ (c.items.node = none → u.nodeAddr = none) ∧
  ∃ q : Int, (q = n / d ∨ (n % d ≠ 0 ∧ q = n / d + 1)) ∧
    u.tim.ofs = c.ts * 65536 + ((u.clk.lf + 2 ^ 48 - c.ls) % 2 ^ 48 : Nat) * 2000000000 - q
/-- A reset of the hub `w` on its own cause and those that hold with it (R66, R85 to R87). RST_CAUSE tells the lowest. A power-on and
RESET_N, alone or among them, make the copies invalid; else the newest copy is restored, where a brown-out may have cut a save short. A
power-on clears the counters, a brown-out and a watchdog count. AO_LFCOUNT and FRC have run on as the operands say. -/
def Claims.Boots (i : Instr) (own : Nat) (e : Env) (s w : State) : Prop :=
  let cs := own :: e.also
  let cause := cs.foldl min own
  let cold : Prop := 0 ∈ cs ∨ 2 ∈ cs
  let found := (if e.cut = true ∧ 1 ∈ cs then w.cutSave else w).newestCopy
  let lf := if 0 ∈ cs then 0 else w.clk.lf
  let acc := if 0 ∈ cs then 0 else w.clk.lfAcc
  ∃ u, exec i s = .next u ∧ Claims.booting w u ∧ u.clk.frc = (e.frc + 24 * e.frc / 1000) % 2 ^ 64 ∧
    u.clk.lf = ((lf + e.lf) % 2 ^ 48 + (acc + 32768 * e.frc) / 24000000) % 2 ^ 48 ∧
    u.fld .aoBorCount 15 0 =
      (if 0 ∈ cs then 0 else min 65535 (w.fld .aoBorCount 15 0 + if 1 ∈ cs then 1 else 0)) ∧
    u.fld .aoWdtCount 15 0 =
      (if 0 ∈ cs then 0 else min 65535 (w.fld .aoWdtCount 15 0 + if 3 ∈ cs then 1 else 0)) ∧
    (cold ∨ found = none → u.reg .rstCause = BitVec.ofNat 32 (cause + if cold then 0 else 0x200) ∧ u.proto.owner = none ∧
      u.nodeAddr = none ∧ ∀ q : Reg, decodeAddr q.addr = some q → Claims.found q = false → u.reg q = q.reset) ∧
    (cold → (e.test && e.sealHigh) = false → u.clk.copyA = none ∧ u.clk.copyB = none) ∧
    (¬ cold → ∀ c, found = some c → u.reg .rstCause = BitVec.ofNat 32 (0x500 + cause) ∧ Claims.restored c u)
/-- R85: a reset of a save that has not had its 2 µs, 50 periods of TCLK, makes the copy it wrote invalid, which is the newest; the other
stands. A save that has had them stands. -/
def Claims.SavesAreCut : Prop :=
  ∀ s : State,
    (∀ t c, s.clk.savedAt = some t → s.clk.frc - t < 50 → s.newestCopy = some c →
      s.cutSave = if s.clk.copyA = some c then { s with clk := { s.clk with copyA := none } } else { s with clk := { s.clk with copyB := none } }) ∧
    ((∀ t, s.clk.savedAt = some t → 50 ≤ s.clk.frc - t) → s.cutSave = s)
/-- Resets (R49, R66, R83, R85 to R87, R298, R380): each of the five causes starts the boot with what is kept or restored; a brown-out does not
leave OFF. The watchdog saves
first; it is paused in factory test and while the sequencer is off, and FAULT is not left by it. The exit from factory test is one only
there. -/
def Obligations.ResetsStartTheBoot : Prop :=
  Claims.SavesAreCut ∧ ∀ (e : Env) (s : State),
    let same (i : Instr) : Prop := ∃ q, exec i s = .next { s with irq := q } ∧ q.pend = s.irq.pend ∧ q.mask = s.irq.mask ∧ q.insv = s.irq.insv
    let runs : Prop := s.fabricOn = true ∧ s.proto.factory = false ∧ s.proto.dev ≠ .fault
    Claims.Boots (.powerOnReset e) 0 e s s ∧ (s.pwr.st ≠ .off → Claims.Boots (.brownOut e) 1 e s s) ∧ (s.pwr.st = .off → same (.brownOut e)) ∧ Claims.Boots (.resetN e) 2 e s s ∧
    (runs → Claims.Boots (.watchdogExpiry e) 3 e s s.aoSave) ∧
    (runs → (∀ c, s.newestCopy = some c → c.seq + 1 < 2 ^ 32) → e.also = [] → ∃ u, exec (.watchdogExpiry e) s = .next u ∧
      Claims.restored { seq := 0, items := s.aoItems, ts := Claims.timeNow s, ls := s.clk.lf } u) ∧
    (¬ runs → same (.watchdogExpiry e)) ∧
    (s.proto.factory = true → Claims.Boots (.factoryTestExit e) 4 e s s) ∧ (s.proto.factory = false → same (.factoryTestExit e))

/-- R85: each second of AO_LFCOUNT, while the hub runs, the save area's older copy takes the AO items under the next SEQ. -/
def Claims.SavesArePeriodic : Prop :=
  ∀ s : State,
    let c : AoCopy := { seq := (s.newestCopy.elim 0 (·.seq) + 1) % 2 ^ 32, items := s.aoItems, ts := Claims.timeNow s, ls := s.clk.lf }
    let k : Clk := { s.clk with savedAt := some s.clk.frc, saveLf := s.clk.saveLf + 32768 }
    let due : Prop := s.pwr.st = .run ∧ s.clk.saveLf + 32768 ≤ s.clk.lf
    (due → s.clk.copyA.isSome = true → s.newestCopy = s.clk.copyA → Leads .aoSavePeriodic s { s with clk := { k with copyB := some c } }) ∧
    (due → s.clk.copyA = none ∨ s.newestCopy ≠ s.clk.copyA → Leads .aoSavePeriodic s { s with clk := { k with copyA := some c } }) ∧
    (¬ due → Leads .aoSavePeriodic s s)
/-- The boot ends in CONFIG, or in FAULT with cause 1 and BOOT_STATUS.OTP_BAD; the lease restarts, the sequencer's sources are unmasked;
cleared SRAM shows in SRAM_READY; VREF settled starts the settle counts that waited for it; a memory error of the firmware enters FAULT
with cause 2: chains stop, queues, drivers and Ebb are off (R77, R81, R86, R253, R297, R298). Each second the save area's older copy takes
the AO items under the next SEQ (R84, R85). -/
def Obligations.TheBootEnds : Prop :=
  Claims.SavesArePeriodic ∧ ∀ s : State,
    let failed (u : State) (cause : Nat) : Prop := u.proto.dev = .fault ∧ u.proto.faultCause = cause ∧ u.ebb = {} ∧ u.pwr.entering = false ∧
      (∀ q, q < 16 → u.qOn q = false) ∧ (∀ x, x < 4 → (u.drv x).on = false ∧ (u.drv x).hiccup = false) ∧
      (∀ n, n < 8 → (u.isrc n).on = false) ∧ u.loop.st = 0 ∧
      ∀ n, n < 24 → ((u.ch n).st = .idle ∧ (u.ch n).startPend = false) ∨ (u.ch n).stopPend = true
    (s.proto.dev = .boot → s.proto.factory = false →
      (∃ u, Leads (.bootComplete false) s u ∧ u.proto = { s.proto with dev := .config, deadline := u.proto.deadline } ∧
        (s.proto.owner.isSome = true → u.proto.deadline = s.clk.frc + s.proto.lease * 24576) ∧ u.chains = s.chains ∧ u.sram = s.sram ∧
        u.clk.saveLf = s.clk.lf ∧ (∀ n, n < 128 → s.tgt n = 3 → u.irq.mask.getLsbD n = false) ∧ ∀ q, q < 16 → u.queue q = s.queue q) ∧
      ∃ u, Leads (.bootComplete true) s u ∧ failed u 1 ∧ u.bit .bootStatus 2 = true) ∧
    (s.proto.dev ≠ .boot ∨ s.proto.factory = true → ∀ b, Leads (.bootComplete b) s s) ∧
    (s.fabricOn = true → Claims.LeadsTo .sramCleared s s [(.bootStatus, s.reg .bootStatus ||| 1)]) ∧
    (s.fabricOn = true → ∃ cs, Claims.LeadsTo .vrefSettled s { s with chains := cs } [(.bootStatus, s.reg .bootStatus ||| 2)] ∧
      ∀ n, n < 24 → cellGet cs n {} =
        if (s.ch n).vrefWait then { s.ch n with vrefWait := false, settleAt := s.clk.mclk } else s.ch n) ∧
    (s.fabricOn = true → s.proto.dev ≠ .fault → ∃ u, Leads .firmwareMemoryError s u ∧ failed u 2) ∧
    (s.fabricOn = false → Leads .sramCleared s s ∧ Leads .vrefSettled s s) ∧
    (s.fabricOn = false ∨ s.proto.dev = .fault → Leads .firmwareMemoryError s s)

/-- Supplies (R61, R63, R308, R322, R376, R403, R407): a change shows in SUP_STATUS, fires source 14 and is a wake source; loss of VEXC_OK
switches every driver, emulator output and the loop off, with one fault, and their chains are FAULTED; loss of VIO_B ends the ownership of
port B; loss of VIO_S stops the sensor bus under a transaction (the DESIGN CHOICE of log entry 163); loss of the quad supply ends QUAD. -/
def Claims.SupplyChanges : Prop :=
  ∀ (sup : BitVec 5) (ls : List Lead) (cut : Option Nat) (s : State),
    let i : Instr := .supplyChange sup ls cut
    let old := s.reg .supStatus
    let new : W32 := sup.setWidth 32 ||| 1
    let fell (k : Nat) : Bool := old.getLsbD k && !new.getLsbD k
    let base := (s.setReg .supStatus new).irqFire 14
    (new = old ∨ s.pwr.st = .off → Leads i s s) ∧
    (new ≠ old → s.pwr.st ≠ .off →
      (fell 1 = false → fell 3 = false → fell 4 = false → ∃ ps,
        Leads i s { (if s.wakeable 8 then base.setBit .pwrWakePend 8 true else base) with polls := ps } ∧
        ∀ k, k < 8 → cellGet ps k {} = if fell 2 then { s.poll k with cut := (s.poll k).cut || (s.poll k).busy } else s.poll k) ∧
      ∃ u, Leads i s u ∧ u.reg .supStatus = new ∧
        (fell 3 = true → u.beo0.on = false ∧ u.beo1.on = false ∧ u.loop.st = 0 ∧ u.faultOn 0x1420 = (s.faultOn 0x1420 ||
            (List.range 4).any fun x => (s.drv x).en) ∧
          ∀ x, x < 4 → ((s.drv x).en = false → u.drv x = s.drv x) ∧ ((s.drv x).en = true → (u.drv x).on = false ∧ (u.drv x).hiccup = false ∧
            ((s.drv x).on = true ∨ (s.drv x).hiccup = true → ∀ n, n < 24 → s.inGroup n x = true →
              (s.ch n).st = .settling ∨ (s.ch n).st = .running → (u.ch n).st = .faulted))) ∧
        (fell 1 = true → s.proto.owner = some (.port .b) →
          u.proto.owner = none ∧ u.proto.expB = true ∧ (∀ x ∈ u.proto.staging, x.1 ≠ .port .b)) ∧
        (fell 4 = true → s.bit (.hostCfg 0) 2 = true → u.bit (.hostCfg 0) 2 = false ∧ u.bit (.hostStat 0) 0 = true))
/-- R43, R44, R239, R241: the balls of an absent VIO_B or VIO_S are isolated in every state; while the hub is in its boot and in OFF, a ball is as the
column "In reset" has it: host port A at high impedance with its chip select pulled up, SYNC, EVT and GP pins pulled down, the link at high
impedance; afterwards an EVT pin that is not in output mode is pulled down, and one that is, and drives both ways, shows its level; HB_DE follows R330 where PSEL_B selects UART (with another strap it stays as in reset, the DESIGN CHOICE
of log entry 172). -/
def Claims.BallsFollow : Prop :=
  ∀ s : State,
    (s.bit .supStatus 1 = false → ∀ b ∈ [Ball.hbTx, .hbRx, .hbDe, .hbBus, .irq .b], s.pad b = .isolated) ∧
    (s.bit .supStatus 2 = false → ∀ k, ∀ b ∈ [Ball.sync, .evt k, .gp k, .sbBus, .sbClk, .sbMiso, .sbCs k], s.pad b = .isolated) ∧
    (s.proto.dev = .boot ∨ s.pwr.st = .off → s.pad .haBus = .z ∧ s.pad .haCs = .up ∧ (∀ p, s.pad (.lvdsTx p) = .z) ∧
      (s.bit .supStatus 1 = true → s.pad .hbTx = .up ∧ s.pad .hbDe = .down ∧ s.pad (.irq .b) = .z) ∧
      (s.bit .supStatus 2 = true → s.pad .sync = .down ∧ ∀ k, s.pad (.evt k) = .down ∧ s.pad (.gp k) = .down)) ∧
    (s.proto.dev ≠ .boot → s.pwr.st ≠ .off → s.bit .supStatus 2 = true → ∀ k, k < 8 →
      (s.bit (.routeEvt k) 31 = false → s.pad (.evt k) = .down) ∧
      (s.bit (.routeEvt k) 31 = true → s.bit (.routeEvt k) 26 = false →
        s.pad (.evt k) = if s.route.evtOut.getLsbD k = s.bit (.routeEvt k) 30 then .low else .high)) ∧
    (s.proto.dev ≠ .boot → s.pwr.st ≠ .off →
      s.pad .debug = .downInert ∧ s.pad .buckSw = (if s.bit .regStatus 0 then .buck else .linear) ∧
      (s.bit .supStatus 1 = true → s.pad .hbDe = if s.hostIf.strapB = .gnd ∧ s.deHigh = true then .high else
        if s.hostIf.strapB = .gnd then .low else .down)) ∧
    (s.proto.dev = .boot ∨ s.pwr.st = .off → s.pad .debug = .down ∧ s.pad .buckSw = .linear)
/-- Supplies (R61, R63, R308, R322, R376, R403, R407): a change of a supply and what its loss ends; what the balls do (R43, R44). The regulator (R64): buck mode is asked
for by a probe, which finds the inductor or falls back to LDO with BUCK_FAIL and source 9; no probe, no result; asking again where buck mode
is asked for changes nothing (the model's choice, log entry 121). -/
def Obligations.SuppliesChange : Prop :=
  Claims.SupplyChanges ∧ Claims.BallsFollow ∧
  (∀ (i : Instr) (h : Hdr) (v : W32) (s : State), Claims.writes i h .regCtrl v → Accepted h .regCtrl v s →
    (v.getLsbD 0 = true → s.bit .regCtrl 0 = false → ∃ rs, Answers i h [] s { s with regs := rs, clk := { s.clk with probe := true } } ∧
      ∀ q : Reg, decodeAddr q.addr = some q → cellGet rs q.addr q.reset = if q = .regCtrl then s.reg q ||| 1 else s.reg q) ∧
    (v.getLsbD 0 = true → s.bit .regCtrl 0 = true → Answers i h [] s s) ∧
    (v.getLsbD 0 = false → ∃ rs, Answers i h [] s { s with regs := rs, clk := { s.clk with probe := false } } ∧
      ∀ q : Reg, decodeAddr q.addr = some q →
        cellGet rs q.addr q.reset = if q = .regCtrl ∨ q = .regStatus then s.reg q &&& 0xfffffffe else s.reg q)) ∧
  (∀ (s : State) (b : Bool), s.clk.probe = false → Leads (.buckProbeResult b) s s) ∧
  ∀ s : State, s.clk.probe = true →
    Claims.LeadsTo (.buckProbeResult true) s { s with clk := { s.clk with probe := false } }
      [(.regStatus, (s.reg .regStatus &&& 0xfffffffc) ||| 1)] ∧
    ∃ t, Leads (.buckProbeResult false) s (State.irqFire t 9) ∧ t.reg .regCtrl = s.reg .regCtrl &&& 0xfffffffe ∧
      t.reg .regStatus = s.reg .regStatus ||| 2 ∧ t = { s with regs := t.regs, clk := { s.clk with probe := false } }

/-- R76: where the PLL's reference is lost SYSCLK returns to HFRC at the next MCLK edge with REF_LOST and source 10, the tick's capacity
falls; a bit rate of port B that needs the PLL falls back (R328); a CLOCK_SET under way ends with CLOCK_FAIL. -/
def Claims.TheReferenceIsLost : Prop :=
  ∀ s : State,
    (s.onPll = false → Leads .refLoss s s) ∧
    (s.onPll = true → s.clk.op = none → ∃ t, Leads .refLoss s (State.irqFire t 10) ∧
      t.reg .clkStatus = (s.reg .clkStatus &&& 0xfffffff2) ||| 0x20 ∧ t.clk.pll = none ∧ s.clk.mclk ≤ t.clk.mclk ∧
      t.eng = { s.eng with capNow := min s.eng.capNow (8 * 2 ^ s.mclkSel) } ∧
      t = { s with regs := t.regs, eng := t.eng, clk := t.clk, hostIf := t.hostIf } ∧
      (s.hostIf.strapB ≠ .gnd → t.hostIf = s.hostIf) ∧
      (s.hostIf.strapB = .gnd → 3000000 < s.hostIf.rate →
        t.hostIf.rate = 115200 ∧ t.fld .hostBBaud 23 0 = 115200 ∧ t.bit (.hostStat 1) 1 = true)) ∧
    ∀ o h p, s.onPll = true → s.clk.op = some o → o.hdr = some h → h.src = .port p → s.proto.longs = [(h, .clockSet)] →
      ∃ u d, Leads .refLoss s u ∧ Replies h .clockFail d s u ∧ u.onPll = false ∧ u.clk.pll = none ∧ u.clk.op = none ∧
        u.bit .clkStatus 5 = true ∧ u.proto.longs = []
/-- The LF clock and the loss of a clock (R68, R74, R76): LF_SEL starts or stops the crystal and its qualification; CLR_LOST clears both
sticky bits; a qualified crystal is used; its loss, or 1 s without qualifying, returns to LFRC with LF_LOST, the loss also with source 11;
the loss of the PLL's reference returns SYSCLK to HFRC with REF_LOST and source 10, and lowers the tick's capacity. -/
def Obligations.ClocksAreLost : Prop :=
  Claims.TheReferenceIsLost ∧
  (∀ (i : Instr) (h : Hdr) (v : W32) (s : State), Claims.writes i h .clkCtrl v → Accepted h .clkCtrl v s →
    let was := s.bit .clkCtrl 7
    let now := v.getLsbD 7
    ∃ rs, Answers i h [] s { s with regs := rs, clk := { s.clk with lfQual := if now = was then s.clk.lfQual else now
                                                                    lfQualAt := if now = was ∨ was = true then s.clk.lfQualAt else s.clk.lf } } ∧
      ∀ q : Reg, decodeAddr q.addr = some q → cellGet rs q.addr q.reset =
        if q = .clkCtrl then putBits (s.reg q) 8 7 (bits v.toNat 8 7)
        else if q = .clkStatus then
          (s.reg q &&& (if was = true ∧ now = false then 0xffffffef else 0xffffffff)) &&& if v.getLsbD 16 then 0xffffff9f else 0xffffffff
        else s.reg q) ∧
  ∀ s : State,
    let used := s.bit .clkStatus 4
    let late := s.clk.lfQualAt + 32768
    (s.clk.lfQual = true → Claims.LeadsTo .lfXtalQualified s { s with clk := { s.clk with lfQual := false } }
      [(.clkStatus, s.reg .clkStatus ||| 0x10)]) ∧
    (s.clk.lfQual = false → Leads .lfXtalQualified s s) ∧
    (used = true → ∃ t, Leads .lfLoss s (State.irqFire t 11) ∧ t = { s with regs := t.regs } ∧
      t.reg .clkStatus = (s.reg .clkStatus &&& 0xffffffef) ||| 0x40) ∧
    (used = false → s.clk.lfQual = true → late ≤ s.clk.lf → Claims.LeadsTo .lfLoss s { s with clk := { s.clk with lfQual := false } }
      [(.clkStatus, s.reg .clkStatus ||| 0x40)]) ∧
    (used = false → s.clk.lfQual = false ∨ s.clk.lf < late → Leads .lfLoss s s)

/-! ### Ticks, engine, chains (R24 to R35, R160 to R176) -/

/-- The time base has come up to MCLK edge `m`: nothing but the clocks has moved, and on the PLL the FRC by the TCLK periods between. -/
def Claims.Reaches (s t : State) (m : Nat) : Prop :=
  t = { s with clk := t.clk } ∧ t.clk.mclk = max m s.clk.mclk ∧
  (s.clk.mclk < m → t.clk.mclkPh = 0 ∧
    (s.onPll = true → t.clk.frc = (s.clk.frc + ((m - s.clk.mclk) * s.tPerM - s.clk.mclkPh)) % 2 ^ 64))
/-- An event leads to a state whose chain records are `f`, and which is `w` but for them. -/
def Claims.Chains (i : Instr) (s w : State) (f : Nat → Chain) : Prop :=
  ∃ cs, Leads i s { w with chains := cs } ∧ ∀ n, n < 24 → cellGet cs n {} = f n
/-- SYS_TICK_DIV (R24, R103): refused while a chain is not IDLE, the balance loop is enabled or a chop generator would not fit it; else the
value is held, and the divider in use stays until the next boundary. -/
def Claims.TheTickDividerIsHeld : Prop :=
  ∀ (h : Hdr) (v : W32) (s : State), Accepted h .sysTickDiv v s →
    let fits : Prop := ∀ x, x < 4 →
      (s.bit (.excChop x) 31 = true → chopFits (s.fld (.excChop x) 22 0) (bits v.toNat 22 0) = true) ∧
      ((s.drv x).chopEn = true → chopFits (s.drv x).half (bits v.toNat 22 0) = true)
    (∀ n, n < 24 → s.chBusy n = true → (∀ k, k < n → s.chBusy k = false) →
      Refuses (.sysTickDivWrite h v) h .stateConflict
        [BitVec.ofNat 8 (devCode s.proto.dev), BitVec.ofNat 8 n, BitVec.ofNat 8 (chCode (s.ch n).st)] s) ∧
    ((∀ n, n < 24 → s.chBusy n = false) →
      (s.bit .beoLoopCfg 31 = true → Refuses (.sysTickDivWrite h v) h .stateConflict [BitVec.ofNat 8 (devCode s.proto.dev), 0x31, 1] s) ∧
      (s.bit .beoLoopCfg 31 = false → s.proto.dev ≠ .ebb → ¬ fits →
        Refuses (.sysTickDivWrite h v) h .stateConflict [BitVec.ofNat 8 (devCode s.proto.dev), 0xfe, 0] s) ∧
      (s.bit .beoLoopCfg 31 = false → s.proto.dev ≠ .ebb → fits →
        96 ≤ bits v.toNat 22 0 ∧ bits v.toNat 22 0 ≤ 6144000 ∧
        Answers (.sysTickDivWrite h v) h [] s
          { s.setReg .sysTickDiv (v &&& 0x7fffff) with eng := { s.eng with divPend := some (bits v.toNat 22 0) } }))
/-- TICK_BOUNDARY (R24, R26, R32, R169, R173, R316): at the next multiple of the divider SYS_TICK_COUNT increments, a held divider and the
written ENG_PRIO take effect, work of the ended tick that is not done sets TICK_OVERRUN; a stop-pending chain becomes IDLE; a start-
pending one is SETTLING with its origin 128 MCLK periods on, or FAULTED where the check of its start met a coefficient error; an IDLE chain
without a start stays IDLE. An output boundary or a sync edge at or before the tick boundary, and an origin before it, comes first: that such
a row then has no effect is a DESIGN CHOICE (log entry 129). SYS_TICK_DIV (R24): refused while a chain is not IDLE or the balance loop is enabled;
else the value is held until the next boundary. -/
def Obligations.TheTickTurns : Prop :=
  Claims.TheTickDividerIsHeld ∧ ∀ s : State, s.fabricOn = true → s.clk.mclkPh < s.tPerM →
    let b := s.eng.tickAt + s.eng.div
    let owed (n : Nat) : Prop := (s.ch n).st ≠ .idle ∧
      ((s.ch n).live = true ∧ (s.ch n).lastB + s.decimD n ≤ b ∨ (s.ch n).live = false ∧ (s.ch n).origin < b)
    let synced : Prop := ∃ x ∈ (s.advanceTo b).dueSyncs.syncs, x.2.2 ≤ b
    ((∃ n, n < 24 ∧ owed n) ∨ synced → Leads .tickBoundary s s) ∧
    (s.clk.mclk ≤ b → (∀ n, n < 24 → ¬ owed n) → ¬ synced → (∀ j ∈ s.eng.jobs, j.b ≤ b) →
      ∃ u, Leads .tickBoundary s u ∧ u.clk.mclk = b ∧ u.clk.mclkPh = (if s.clk.mclk = b then s.clk.mclkPh else 0) ∧
        u.reg .sysTickCount = s.reg .sysTickCount + 1 ∧ u.eng.tickAt = b ∧ u.eng.prevTickAt = s.eng.tickAt ∧
        u.eng.div = s.eng.divPend.getD s.eng.div ∧ u.eng.divPend = none ∧ u.eng.prioMask = (s.reg .engPrio).toNat ∧
        ((∃ j, j ∈ s.eng.jobs ∧ j.tick = s.eng.tickAt ∧ j.todo ≠ [] ∧ ∀ r ∈ j.runs, r.st ≠ .overhead) → u.bit .engStatus 0 = true) ∧
        ∀ n, n < 24 → let c := s.ch n
          (c.startPend = true → c.st = .idle ∨ c.stopPend = true →
            (u.ch n).st = (if c.stopPend = false ∧ c.ecc = true then .faulted else .settling) ∧ (u.ch n).startPend = false ∧ (u.ch n).stopPend = false ∧ (u.ch n).live = false ∧
            (u.ch n).origin = b + 128 ∧ (u.ch n).powered = b + 128) ∧
          (c.startPend = false → c.st = .idle ∨ c.stopPend = true →
            (u.ch n).st = .idle ∧ (u.ch n).startPend = false ∧ (c.stopPend = true → (u.ch n).stopPend = false ∧ u.bit .afeStatus n = false)))

/-- A chain's origin and its output boundaries (R81, R163, R166, R169, R170, R173): the first CIC input fixes origin and settle count, which
a VREF chain starts once VREF has settled; D MCLK periods later the output becomes ready for the engine with its boundary, capture less
the group delay, tick, priority and flags, and the chain takes it as its latest boundary. A swap that is due takes effect at the origin, or
has its edge at the boundary. -/
def Obligations.ChainsProduceOutputs : Prop :=
  ∀ (n : Nat) (s : State), n < 24 → s.fabricOn = true → s.clk.mclkPh < s.tPerM →
    let c := s.ch n
    let bank := s.fld (.sluBank n) 0 0
    let inner : Prop := 20 ≤ n ∧ s.fld (.apChsel n) 5 0 = 63 ∧ s.fld (.apChsel n) 13 8 = 63
    let wait : Bool := (decide (s.fld (.afeCfg n) 10 8 = 0) || decide inner) && !s.bit .bootStatus 1
    (c.st ≠ .idle → c.live = false →
      (c.swapAt = none → c.swap = false ∨ c.origin < c.swapFrom → ∃ t, Claims.Reaches s t c.origin ∧
        Claims.Chains (.chainOrigin n) s t fun k =>
          if k = n then { c with live := true, lastB := c.origin, resetAt := c.origin, settleAt := max c.origin c.settleAt
                                 vrefWait := wait }
          else s.ch k) ∧
      (c.swap = true → c.swapFrom ≤ c.origin → ∃ u, Leads (.chainOrigin n) s u ∧ u.clk.mclk = max c.origin s.clk.mclk ∧
        (u.ch n).live = true ∧ (u.ch n).lastB = c.origin ∧ (u.ch n).vrefWait = wait ∧ (u.ch n).swap = false ∧
        u.fld (.sluBank n) 0 0 = 1 - bank)) ∧
    (c.st = .idle ∨ c.live = true → Leads (.chainOrigin n) s s) ∧
    (∀ xs : List Int, c.st ≠ .idle → c.live = true → xs.length = s.decimD n →
      let b := c.lastB + s.decimD n
      ∃ u, Leads (.outputBoundary n xs) s u ∧ u.clk.mclk = max b s.clk.mclk ∧ (u.ch n).lastB = b ∧ (u.ch n).fresh = false ∧
        (u.ch n).synNext = false ∧ u.drivers = s.drivers ∧ u.sources = s.sources ∧ u.sram = s.sram ∧
        (c.swap = false → c.swapAt = none → (u.ch n).swapAt = none) ∧
        (c.swap = true → c.swapAt = none → (u.ch n).swapAt = if c.swapFrom ≤ b then some b else none) ∧
        ∃ j ∈ u.eng.jobs, j.source = n ∧ j.b = b ∧ j.org = c.origin ∧ j.period = s.decimD n ∧
          j.tick = (if s.eng.tickAt + s.eng.div ≤ b then s.eng.tickAt + s.eng.div else s.eng.tickAt) ∧
          j.prio = decide (s.eng.prioMask / 2 ^ n % 2 = 1) ∧ j.flags.getLsbD 1 = c.synNext ∧
          (c.swapAt = none → j.bank = bank ∧
            (let k := (u.clk.mclk - b) * s.tPerM + u.clk.mclkPh
             j.measF = 16 * (if s.onPll = true then (u.clk.frc : Int) - k
               else (u.clk.frc * 1000 + u.clk.frcAcc - 1024 * k : Int) / 1000) - s.tau16 n bank * s.tPerM) ∧
            j.flags.getLsbD 5 = (c.vrefWait || decide (b < c.settleAt + (s.reg (.sluWin n)).toNat)))) ∧
    (∀ xs : List Int, c.st = .idle ∨ c.live = false ∨ xs.length ≠ s.decimD n → Leads (.outputBoundary n xs) s s)

/-- Item `r` of job `j` runs on a lane. -/
def Claims.OnLane (lane : Nat) (s : State) (pre : List Job) (j : Job) (post : List Job) (r : Run) : Prop :=
  s.fabricOn = true ∧ s.eng.jobs = pre ++ j :: post ∧ (∀ o ∈ pre, o.itemOn lane = none) ∧ j.itemOn lane = some r
/-- The lane-cycles of an item, with the stall cycles it met and without those charged to earlier ticks, are charged (R28, R33). -/
def Claims.charged (s : State) (r : Run) (cost stall : Nat) : State :=
  { s with eng := { s.eng with used := s.eng.used + (cost + stall - r.spent) } }
/-- An item has made `j` of its job on `w`: a record that no place of MV0 takes holds the lane; the lane goes on with a PRIO output that is
not finished; then the engine goes on (R31, R32, R281). -/
def Claims.itemDone (lane i : Nat) (w : State) (j : Job) : State :=
  let t := w.setJob i (w.holdLane j lane)
  (if j.prio = true ∧ j.ripe = false then t.startNext i lane else t).engineRun
/-- A sequence, newest first from place 0, through P cascaded Q-point boxcars (R157). -/
def Claims.boxcars (q : Nat) : Nat → (Nat → Int) → Nat → Int
  | 0, x, i => x i
  | p + 1, x, i => ((List.range q).map fun k => Claims.boxcars q p x (i + k)).sum
/-- The next item of a job starts on a lane (R31, R153 to R155, R157, R179, R180). A half-band, FIR or rank item takes its oldest inputs behind
the history of its stage: its window, of 43, T or L. A scaling item takes all its inputs into the output decimator, whose block is divided
by Q^P, halves upwards, and reads ZERO, SPAN, AZT and SSH then. -/
def Claims.ItemsStart : Prop :=
  ∀ (s : State) (i lane k : Nat) (j : Job) (l : Leg), s.eng.jobs[i]? = some j → s.nextLeg i j = some (l, k) →
    let n := j.source
    let u := s.startNext i lane
    ∃ j', u.eng = { s.eng with jobs := s.eng.jobs.set i j' } ∧
      (∀ take len, l.st = .fir ∧ take = s.firF n ∧ len = s.firT n ∨ l.st = .rank ∧ take = 1 ∧ len = s.rankL n ∨
          (l.st = .hb1 ∨ l.st = .hb2) ∧ take = 2 ∧ len = 43 →
        let old : List Smp := if l.fresh then [] else (s.ch n).filt.hist l.st
        ∃ w, j' = { j with todo := j.todo.set k { l with inp := l.inp.drop take, fresh := false }
                           runs := j.runs ++ [{ st := l.st, lane := some lane, since := s.clk.mclk, win := w }] } ∧
          w.length = len ∧ (∀ m, m < len → w.getD m {} = ((l.inp.take take).reverse ++ old).getD m {}) ∧
          (u.ch n).filt.hist l.st = w) ∧
      (l.st = .scl → s.decP n ≠ 0 →
        let q := s.decQ n
        let p := s.decP n
        let xs := l.inp.reverse ++ if l.fresh then [] else (s.ch n).filt.dec
        let x (m : Nat) : Int := (xs.getD m {}).v
        let y : Int := if q = 1 then x 0 else (2 * Claims.boxcars q p x 0 + q ^ p) / (2 * q ^ p)
        let azt := j.azt.getD (pairVal (s.reg (.sclAztLo n)) (s.reg (.sclAztHi n)))
        j'.val = (sat36 (rshift ((y - pairVal (s.reg (.sclZeroLo n)) (s.reg (.sclZeroHi n)) - azt) *
          pairVal (s.reg (.sclSpanLo n)) (s.reg (.sclSpanHi n))) (s.fld (.sclCfg n) 5 0))).1 ∧
        j'.runs = j.runs ++ [{ st := .scl, lane := some lane, since := s.clk.mclk, win := l.inp }])
/-- Outputs of a stage go to the next in their order: those of its oldest items, as far as they are done (R31). Only stages that are over
are gone. -/
def Claims.OutputsGoOn : Prop :=
  ∀ (j : Job) (st : Stage) (front back : List Leg) (l next : Leg), j.todo = front ++ l :: next :: back → l.st = st → (∀ o ∈ front, o.st ≠ st) →
    let mine := j.runs.filter fun r => r.st == st
    let done := mine.takeWhile fun r => r.lane.isNone
    ∃ gone, gone ++ (j.deliver st).todo = front ++ l :: { next with inp := next.inp ++ done.map (·.out) } :: back ∧
      (∀ o ∈ gone, o.inp = [] ∧ ∀ r ∈ (j.deliver st).runs, r.st ≠ o.st) ∧
      ((j.deliver st).runs.filter fun r => r.st == st) = mine.drop done.length ∧
      ((j.deliver st).runs.filter fun r => !(r.st == st)) = j.runs.filter fun r => !(r.st == st)
/-- The IIR section on an input word `x` (R156, R158): its kept outputs count 2^-70 and enter the products in two halves; where the halves are
rounded is a DESIGN CHOICE (log entry 37). `y`: the kept output before its limit; `o`: the output with its mark. -/
def Claims.section (s : State) (n bank : Nat) (x : Int) (f : Iir) (y : Int) (o : Int × Bool) : Prop :=
  let c (k : Nat) : Int := s.coefAt bank (s.coefBase n + s.firT n + k)
  let sh := s.fld (.sluSh n) 13 8
  let hi (v : Int) : Int := v / 2 ^ 35
  let lo (a v : Int) : Int := a * (v % 2 ^ 35) / 2 ^ 35
  (s.iirMode n = 1 → y = f.y1 + (c 0 * (x - hi f.y1) - lo (c 0) f.y1) * 2 ^ 35 / 2 ^ sh ∧ o = sat36 (rshift y 35)) ∧
  (s.iirMode n = 2 →
    let acc := c 0 * x + c 1 * f.x1 + c 2 * f.x2 - c 3 * hi f.y1 - c 4 * hi f.y2 - lo (c 3) f.y1 - lo (c 4) f.y2
    y = acc * 2 ^ 35 / 2 ^ sh ∧ o = sat36 (rshift acc sh))
/-- What an item of a chain's filters makes of its window (R28, R153 to R156, R158): a FIR output is the rounded, limited sum of its products; a
rank output the K-th smallest of its inputs; a half-band output the rounded, limited sum over its pairs and its centre; the IIR section
goes on by one input. A limited value is marked on the output and in SAT. The item takes its cost. -/
def Claims.FiltersWork : Prop :=
  ∀ (lane stall : Nat) (s : State) (pre post : List Job) (j : Job) (r : Run), Claims.OnLane lane s pre j post r → j.ripe = false →
    let n := j.source
    let x (m : Nat) : Int := (r.win.getD m {}).v
    ∀ cost, r.st = .fir ∧ cost = s.firT n + 4 ∨ r.st = .rank ∧ cost = s.rankL n + 4 ∨ (r.st = .hb1 ∨ r.st = .hb2) ∧ cost = 12 ∨
        r.st = .iir ∧ cost = 4 * s.iirMode n →
      ∃ o f, Leads (.engineItem lane stall .none) s
          (Claims.itemDone lane pre.length ((Claims.charged s r cost stall).modCh n fun c => { c with filt := f, sat := c.sat || o.lim })
            ({ j with runs := j.runs.map fun q => if q = r then { r with lane := none, out := o } else q }.deliver r.st)) ∧
        (r.st ≠ .iir → f = (s.ch n).filt ∧ o.bad = (r.win.any (·.bad) || j.bad)) ∧
        (r.st = .fir →
          let acc := ((List.range (s.firT n)).map fun k => s.coefAt j.bank (s.fld (.sluFir n) 11 0 + k) * x k).sum
          (o.v, o.lim) = ((sat36 (rshift acc (s.fld (.sluSh n) 5 0))).1,
            (sat36 (rshift acc (s.fld (.sluSh n) 5 0))).2 || r.win.any (·.lim))) ∧
        (r.st = .hb1 ∨ r.st = .hb2 →
          let acc := 2 ^ 34 * x 21 + ((List.range 11).map fun k => (halfbandWord k).toInt * (x (20 - 2 * k) + x (22 + 2 * k))).sum
          (o.v, o.lim) = ((sat36 ((acc + 2 ^ 34) / 2 ^ 35)).1, (sat36 ((acc + 2 ^ 34) / 2 ^ 35)).2 || r.win.any (·.lim))) ∧
        (r.st = .rank → s.rankK n < r.win.length → o.lim = r.win.any (·.lim) ∧ (∃ w ∈ r.win, o.v = w.v) ∧
          (r.win.countP fun w => decide (w.v < o.v)) ≤ s.rankK n ∧ s.rankK n < (r.win.countP fun w => decide (w.v ≤ o.v))) ∧
        (r.st = .iir → ∃ y out, Claims.section s n j.bank (x 0) (s.ch n).filt.iir y out ∧ o.v = out.1 ∧ (out.2 = true → o.lim = true) ∧
          f.iir.y1 = max (-(2 ^ 70)) (min (2 ^ 70 - 1) y) ∧ f.iir.y2 = (s.ch n).filt.iir.y1 ∧ f.iir.x1 = x 0 ∧
          f.iir.x2 = (s.ch n).filt.iir.x1 ∧ f = { (s.ch n).filt with iir := f.iir })
/-- An uncorrectable coefficient read (R162): SLU_ECC shows it and its address, the chain is FAULTED until it is IDLE, source 2 fires with the
first since then. -/
def Claims.CoefficientErrorsFault : Prop :=
  ∀ (lane stall a : Nat) (s : State) (pre post : List Job) (j : Job) (r : Run), Claims.OnLane lane s pre j post r → r.st = .fir ∨ r.st = .iir →
    j.source < 24 → j.bank < 2 → a < 4096 → (s.ch j.source).st ≠ .idle →
    ∃ u, Leads (.engineItem lane stall (.coef a)) s u ∧ u.bit .sluEcc 1 = true ∧ u.fld .sluEcc 28 16 = j.bank * 4096 + a ∧
      (u.ch j.source).st = .faulted ∧ (u.ch j.source).ecc = true ∧
      ((s.ch j.source).ecc = false → s.irq.insv.getLsbD 2 = false → u.irq.pend.getLsbD 2 = true)
/-- A value on a curve of a standard (R188, R189): within the range the word at which the function reaches `x`, to the tolerance of 0.001 °C
or 0.01 °C; beyond it the nearer end, with OVR. The coefficients are PRESUMED from the standards (log entry 32). -/
def Claims.OnCurve (c : Nat) (x : Rat) (y : Int) (ovr : Bool) : Prop :=
  let tol : Int := if c ≤ 4 then 16777 else 167772
  let lo := (curveRange c).1 * 2 ^ 24
  let hi := (curveRange c).2 * 2 ^ 24
  let f (w : Int) : Rat := curveInput c (mkRat w (2 ^ 24))
  (x < f lo → ovr = true ∧ |y - lo| ≤ tol) ∧ (f lo ≤ x → f hi < x → ovr = true ∧ |y - hi| ≤ tol) ∧
  (f lo ≤ x → x ≤ f hi → ovr = false ∧ ∃ w, lo ≤ w ∧ w ≤ hi ∧ f w ≤ x ∧ (w < hi → x < f (w + 1)) ∧ |y - w| ≤ tol)
/-- The linearisation item (R188 to R192): standards; the thermistor's equation; a thermocouple by the sum of its EMF and its cold junction's,
with UNS, FLT and OVR of that record (of the measured EMF alone where there is none, log entry 155); a user polynomial by Horner's rule,
each step rounded and limited (log entry 33); a user table by interpolation, a spline by the polynomial of its interval (log entry 30). -/
def Claims.CurvesLinearise : Prop :=
  ∀ (lane stall : Nat) (s : State) (pre post : List Job) (j : Job) (r : Run), Claims.OnLane lane s pre j post r → r.st = .lin →
    let n := j.source
    let c := s.curve n
    let x := j.val
    let h := (s.blockHead n).toNat
    let sz := bits h 10 0
    let psh := bits h 23 16
    let a (k : Nat) : Int := s.entry n k
    let horner (p : Nat) (cf : Nat → Int) (t : Int) : Int :=
      let acc := (List.range p).foldr (fun k acc => (sat36 (rshift (acc * t) 35 + cf k)).1) (cf p)
      (sat36 (if psh ≤ 35 then acc * 2 ^ (35 - psh) else rshift acc (psh - 35))).1
    ∃ y o fs more, Leads (.engineItem lane stall .none) s
        (Claims.itemDone lane pre.length (Claims.charged s r (s.linCost n) stall)
          { j.finish .lin with val := y, lim := j.lim || o, flags := j.flags ||| fs, refs := j.refs ++ more, ripe := true }) ∧
      (1 ≤ c → c ≤ 4 → fs = 0 ∧ Claims.OnCurve c (mkRat x (2 ^ 35)) y o) ∧
      (8 ≤ c → c ≤ 12 →
        (∀ p, s.coldJunction n j = some p → fs = p.flags &&& (flagUNS ||| flagFLT ||| flagOVR) ∧
          Claims.OnCurve c (mkRat x (2 ^ 35) + coldEmf c p.val) y o) ∧
        (s.coldJunction n j = none → fs = flagUNS ∧ Claims.OnCurve c (mkRat x (2 ^ 35)) y o)) ∧
      (c = 5 → 0 < x →
        let k := s.fld (.linCfg n) 5 4
        let l := logOf x.toNat (s.fld (.linCfg n) 20 16 - 35)
        let u := mkRat (pairVal (s.reg (.linNtcALo k)) (s.reg (.linNtcAHi k))) (2 ^ 43) +
          mkRat (pairVal (s.reg (.linNtcBLo k)) (s.reg (.linNtcBHi k))) (2 ^ 45) * l +
          mkRat (pairVal (s.reg (.linNtcCLo k)) (s.reg (.linNtcCHi k))) (2 ^ 55) * l * l * l
        let near (t : Rat) : Prop := |(y : Rat) - (t - mkRat 27315 100) * 2 ^ 24| < 1
        (mkRat 1 500 ≤ u → u ≤ mkRat 1 200 → o = false ∧ near (1 / u)) ∧ (u < mkRat 1 500 → o = true ∧ near 500) ∧
        (mkRat 1 200 < u → o = true ∧ near 200)) ∧
      (c = 13 → y = horner sz a x) ∧
      (c = 14 ∨ c = 15 → 2 ≤ sz → (∀ i, i + 1 < sz → a i < a (i + 1)) →
        let t := max (a 0) (min (a (sz - 1)) x)
        (x < a 0 ∨ a (sz - 1) < x → o = true) ∧
        ∀ i, i + 1 < sz → a i ≤ t → t < a (i + 1) ∨ t = a (sz - 1) ∧ i + 2 = sz →
          (c = 14 →
            let dx := a (i + 1) - a i
            let dy := a (sz + i + 1) - a (sz + i)
            |(y - a (sz + i)) * dx - dy * (t - a i)| < dx ∧ (o = true → x < a 0 ∨ a (sz - 1) < x)) ∧
          (c = 15 → y = horner 3 (fun k => a (sz + 4 * i + k)) (t - a i)))
/-- The item of a derived stream (R178, R183, R186): all its sources having an output for its boundary, the weighted sum of their values
before linearisation, with their flags and the time of the first; SKEW shows the largest difference of their times. -/
def Claims.DerivedStreamsCombine : Prop :=
  ∀ (lane stall d : Nat) (s : State) (pre post : List Job) (j : Job) (r : Run) (x : Nat → Past), Claims.OnLane lane s pre j post r → r.st = .ds →
    j.source = 24 + d → d < 16 → s.dsSlots d ≠ [] → (∀ p ∈ s.dsSlots d, s.pastAt p.2.src j = some (x p.2.src)) →
    let ps := s.dsSlots d
    let first := x ((ps.head?.map (·.2.src)).getD 0)
    let sum := (ps.map fun p => p.2.w * (x p.2.src).val).sum + pairVal (s.reg (.dsOfsLo d)) (s.reg (.dsOfsHi d)) * 2 ^ 28
    let y := sat36 ((sum + 2 ^ 27) / 2 ^ 28)
    let fs : BitVec 6 := ps.foldl (fun a p => a ||| (x p.2.src).flags) 0
    let j' : Job := { j.finish .ds with val := y.1, lim := y.2, flags := j.flags ||| fs, meas := first.meas, measF := first.measF
                                        period := first.period }
    ∃ k, k ≤ 65535 ∧
      Leads (.engineItem lane stall .none) s
        (let w := (Claims.charged s r (ps.length + 4) stall).setFld (.dsStat d) 15 0 k
         Claims.itemDone lane pre.length ((w.keepPast (24 + d) (w.pastOfJob j')).dsNotify (24 + d) j.b j.org j.tick)
           { j' with ripe := j'.todo.isEmpty }) ∧
      (k = 65535 ∨ ∀ p ∈ ps, ∀ q ∈ ps, (x p.2.src).measF - (x q.2.src).measF ≤ 16 * k) ∧
      (k = 0 ∨ ∃ p ∈ ps, ∃ q ∈ ps, 16 * ((k : Int) - 1) < (x p.2.src).measF - (x q.2.src).measF)
/-- Nothing waits for the engine to finish: no ending period of a detector or a statistics slot, no derived stream waiting. -/
def Claims.Calm (s : State) : Prop :=
  (∀ x, x < 8 → (s.det x).latches = []) ∧ (∀ i, i < 32 → (s.stat i).ending = []) ∧ ∀ d, d < 16 → (s.dsr d).seen = []
/-- Nothing takes the records of chain `n`: no detector, statistics slot, derived stream, Meld unit, balance loop or emulator output. -/
def Claims.Untaken (s : State) : Prop :=
  (∀ k, k < 8 → s.bit (.dtCfg k) 31 = false) ∧ (∀ k, k < 32 → (s.stat k).run = false) ∧ (∀ d, d < 16 → s.bit (.dsCfg d) 31 = false) ∧
  (∀ k, k < 16 → s.bit (.meldCfg k) 31 = false) ∧ s.loop.st = 0 ∧ s.bit .beoLoopCfg 31 = false ∧ s.beo0.on = false ∧ s.beo1.on = false
/-- ENGINE_ITEM (R28, R31, R153 to R158, R162, R178, R179, R183, R186, R188 to R192, R281): where no item runs on the lane nothing happens. The items of
filters, curves and derived streams give their values at their cost; a scaling item with no curve gives its value as a record to every
queue that receives the chain, with FLT where its window meets a fault's interval (R142). An uncorrectable coefficient read faults the
chain. ENG_PRIO names at most 4 chains with the balance loop, none too dear (R32). -/
def Obligations.TheEngineWorks : Prop :=
  Claims.ItemsStart ∧ Claims.OutputsGoOn ∧ Claims.FiltersWork ∧ Claims.CoefficientErrorsFault ∧ Claims.CurvesLinearise ∧
  Claims.DerivedStreamsCombine ∧
  (∀ (h : Hdr) (v : W32) (s : State), Accepted h .engPrio v s →
    let named := ((List.range 24).filter fun n => v.getLsbD n).length + (s.bit .beoLoopCfg 31).toNat
    let dear : Prop := ∃ n, n < 24 ∧ v.getLsbD n = true ∧ s.chBusy n = true ∧ s.prioTooDear n = true
    (4 < named ∨ dear → Refuses (.engPrioWrite h v) h .badParam [] s) ∧
    (named ≤ 4 → ¬ dear → Answers (.engPrioWrite h v) h [] s (s.setReg .engPrio (v &&& 0xffffff)))) ∧
  ∀ (lane stall : Nat) (e : EccEvent) (s : State), s.fabricOn = true →
    ((∀ j ∈ s.eng.jobs, j.itemOn lane = none) → Leads (.engineItem lane stall e) s s) ∧
    ∀ j r, s.eng.jobs = [j] → j.runs = [r] → r.lane = some lane → r.st = .scl → (∃ l : Leg, j.todo = [l] ∧ l.st = .scl) → j.source < 24 →
      j.prio = false → j.left = false → j.fin = false → j.ripe = false → j.refs = [] → j.stampIt = false →
      Claims.Calm s → Claims.Untaken s → unitCount s.weir.mv0 < 64 →
      let n := j.source
      ∃ u m, Leads (.engineItem lane stall e) s u ∧ u.eng.jobs = [] ∧ u.eng.used = s.eng.used + (4 + stall - r.spent) ∧
        u.weir = { s.weir with mv0 := s.weir.mv0 ++ ((List.range 16).filter fun q => s.qOn q && s.qTakes q n).map fun q => (q, m) } ∧
        (∃ fs : BitVec 6, m.recs = [{ source := n, flags := fs, value := BitVec.ofInt 36 j.val }] ∧
          (fs.getLsbD 3 = true ↔ j.flags.getLsbD 3 = true ∨ j.bad = true ∨
            ∃ w ∈ j.wins, ∃ f ∈ s.mon.faults, s.inScope f.scope w.1 = true ∧ f.t0 < w.2.2 ∧ ∀ t, f.t1 = some t → w.2.1 < t)) ∧
        ((s.ch n).st = (u.ch n).st ∨ ((s.ch n).st = .settling ∧ (u.ch n).st = .running))


/-! ### Coefficients, swaps, syncs (R160 to R173) -/

/-- Every register outside a list keeps its word. -/
def Claims.Keeps (l : List Reg) (s u : State) : Prop := ∀ q : Reg, decodeAddr q.addr = some q → q ∉ l → u.reg q = s.reg q
/-- The registers that the sequencer computes for a chain (R427). -/
def Claims.computed (n : Nat) : List Reg := [.sluDec n, .sluWin n, .sluSettle n, .sluGd n, .sluGdnx n, .sluEnbw n]
/-- A STATE_CONFLICT that names chain n and its state (R304). -/
def Claims.clashAt (n : Nat) (s : State) : List Byte :=
  [BitVec.ofNat 8 (devCode s.proto.dev), BitVec.ofNat 8 n, BitVec.ofNat 8 (chCode (s.ch n).st)]
/-- What a swap does at its edge `e` (R163, R164, R168): the other bank, its reported values, the settle count where RESTART is 1, the event
record of time `tm` to every queue that receives the chain. -/
def Claims.Swapped (n e : Nat) (tm : Stamp) (s u : State) : Prop :=
  u.fld (.sluBank n) 0 0 = 1 - s.fld (.sluBank n) 0 0 ∧ u.bit (.sluBank n) 1 = false ∧ u.bit (.sluBank n) 8 = s.bit (.sluBank n) 8 ∧
  Claims.Keeps (.sluBank n :: Claims.computed n) s u ∧
  (∀ k, k < 24 → k ≠ n → u.ch k = s.ch k) ∧
  u.ch n = (if s.bit (.sluBank n) 8 = true ∧ (s.ch n).st ≠ .idle then
      { s.ch n with swap := false, swapAt := none, settleAt := max (s.ch n).settleAt e
                    st := if (s.ch n).st = .running then .settling else (s.ch n).st }
    else { s.ch n with swap := false, swapAt := none }) ∧
  u.weir = { s.weir with mv0 := s.weir.mv0 ++
    ((List.range 16).filter fun q => s.qOn q && s.qTakes q n).map fun q => (q, eventUnit (0x1500 + n) tm) } ∧
  u = { s with regs := u.regs, chains := u.chains, weir := u.weir, route := u.route }
/-- A state with what the check of a bank and the registers of R427 met in coefficient memory on the command's behalf: corrected reads show in
SLU_ECC; an uncorrectable one takes its effects on the chain it was read for (R162; what is computed then is the DESIGN CHOICE of log
entry 154). -/
def Claims.met (h : Hdr) (w : State) : State := w.memErr { hdrErr h 0 with sram := 0 }
/-- The coefficient window and bank swaps (R160, R161, R163, R164): a commit writes the word that SLU_COEF_ADDR selects and advances INDEX
while INC is 1, unless it lies in a block of the bank that a chain uses that is not IDLE, or of either bank while its swap is pending. A swap
request checks the other bank, is refused while one is pending, takes effect at once for an IDLE chain and waits for its edge otherwise,
which lies at least one MCLK period on. -/
def Obligations.BanksAreSwapped : Prop :=
  (∀ (h : Hdr) (v w : W32) (s : State), Accepted h .sluCoefHi v s → slotOf s.proto.staging h.src .sluCoefLo = some w →
    let b := s.fld .sluCoefAddr 12 12
    let i := s.fld .sluCoefAddr 11 0
    let used (n : Nat) : Prop := s.inBlock n i = true ∧ s.chBusy n = true ∧ (s.fld (.sluBank n) 0 0 = b ∨ (s.ch n).swap = true)
    (∀ n, n < 24 → used n → (∀ k, k < n → ¬ used k) → Claims.RefusesOn (.coefCommit h v) h .stateConflict (Claims.clashAt n s) s (Claims.met h s)) ∧
    ((∀ n, n < 24 → ¬ used n) → ∃ rs cf, Answers (.coefCommit h v) h [] s
        (Claims.met h
          { s with regs := rs, coef := cf, proto := { s.proto with staging := s.proto.staging.filter fun x => decide (x.1 ≠ h.src) } }) ∧
      (∀ k, cellGet cf k 0 = if k = b * 4096 + i then BitVec.ofNat 36 (v.toNat % 16 * 2 ^ 32 + w.toNat) else cellGet s.coef k 0) ∧
      (cellGet rs Reg.sluCoefAddr.addr Reg.sluCoefAddr.reset =
        if s.bit .sluCoefAddr 31 = true then putBits (s.reg .sluCoefAddr) 11 0 ((i + 1) % 4096) else s.reg .sluCoefAddr) ∧
      ∀ q : Reg, decodeAddr q.addr = some q → q ≠ .sluCoefAddr →
        (∀ n, n < 24 → s.inBlock n i = true → q ∉ Claims.computed n) → cellGet rs q.addr q.reset = s.reg q)) ∧
  (∀ (h : Hdr) (n : Nat) (v : W32) (s : State), Accepted h (.sluBank n) (v ||| 0x80000000) s → n < 24 →
    (s.chainOk n (1 - s.fld (.sluBank n) 0 0) = false →
      Claims.RefusesOn (.swapRequest h n v) h .badParam [] s (Claims.met h s)) ∧
    (s.chainOk n (1 - s.fld (.sluBank n) 0 0) = true →
      ((s.ch n).swap = true → Claims.RefusesOn (.swapRequest h n v) h .stateConflict (Claims.clashAt n s) s (Claims.met h s)) ∧
      ((s.ch n).swap = false → s.chBusy n = true → ∃ rs cs,
        Answers (.swapRequest h n v) h [] s (Claims.met h { s with regs := rs, chains := cs }) ∧
        (∀ k, k < 24 → cellGet cs k {} =
          if k = n then { s.ch n with swap := true, swapFrom := s.nextEdge + 1, swapAt := none } else s.ch k) ∧
        cellGet rs (Reg.sluBank n).addr (Reg.sluBank n).reset =
          putBits (putBits (s.reg (.sluBank n)) 8 8 (v.getLsbD 8).toNat) 1 1 1 ∧
        ∀ q : Reg, decodeAddr q.addr = some q → q ≠ .sluBank n → q ≠ .sluGdnx n → cellGet rs q.addr q.reset = s.reg q) ∧
      ((s.ch n).swap = false → s.chBusy n = false → ∃ u, Answers (.swapRequest h n v) h [] s (Claims.met h u) ∧
        Claims.Swapped n s.clk.mclk s.now (s.setFld (.sluBank n) 8 8 (v.getLsbD 8).toNat) u))) ∧
  ∀ (n : Nat) (s : State), n < 24 → s.fabricOn = true →
    (∀ e, (s.ch n).swapAt = some e → ∃ u, Leads (.swapEdge n) s u ∧ Claims.Swapped n e (s.stampEdge e) s u) ∧
    ((s.ch n).swapAt = none → Leads (.swapEdge n) s s)

/-- A chain that a sync edge resets (R81, R168, R170): its new origin, its CIC empty, its settle count anew, which that of a chain still powering
up takes from its first input (DESIGN CHOICE, log entry 159), its next record marked. -/
def Claims.synced (s : State) (n e : Nat) (f : Filt) : Chain :=
  let c := s.ch n
  let inner : Bool := decide (20 ≤ n ∧ s.fld (.apChsel n) 5 0 = 63 ∧ s.fld (.apChsel n) 13 8 = 63)
  { c with origin := e, live := true, lastB := e, resetAt := e, settleAt := max e c.powered, synNext := true, fresh := true, filt := f
           vrefWait := if c.live then c.vrefWait
             else (decide (s.fld (.afeCfg n) 10 8 = 0) || inner) && !s.bit .bootStatus 1
           st := if c.st = .running then .settling else c.st }
/-- A rising edge of SYNC in input mode with VIO_S, which stays high for `high` TCLK periods (R171, R172, R355): one of 2 MCLK periods, with as long a
low before it, fires channel 56 and, where PIN_GRP takes the pin, requests a sync of it at the 4th edge after the first that samples it
high (DESIGN CHOICE, log entry 160); as a link sync too where LINK_SYNCTX says so. Any other rise only moves the pin. -/
def Claims.ThePinIsTaken : Prop :=
  ∀ (high : Nat) (s : State), s.fabricOn = true →
    let g := s.fld .sluSyncCtrl 2 0
    let e := if s.clk.mclkPh = 0 then s.clk.mclk else s.clk.mclk + 1
    let i : Instr := .syncPinRise high
    let t : State := { s with syncFall := (s.clk.mclk + (s.clk.mclkPh + high) / s.tPerM, (s.clk.mclkPh + high) % s.tPerM) }
    let low : Prop := s.syncFall.1 + 2 < s.clk.mclk ∨ (s.syncFall.1 + 2 = s.clk.mclk ∧ s.syncFall.2 ≤ s.clk.mclkPh)
    let w : State := { t with route := { s.route with pend := s.route.pend ++ [{ cc := 56 }] }
                              syncs := s.syncs ++ if s.bit (.sluSgrp g) 0 then [(g, false, e + 4)] else [] }
    (s.bit .sluSyncCtrl 4 = true ∨ s.bit .supStatus 2 = false → Leads i s s) ∧
    (s.bit .sluSyncCtrl 4 = false → s.bit .supStatus 2 = true →
      (¬ low ∨ high < 2 * s.tPerM → Leads i s t) ∧
      (low → 2 * s.tPerM ≤ high → s.bit .linkSynctx 0 = false → Leads i s w) ∧
      (low → 2 * s.tPerM ≤ high → s.bit .linkSynctx 0 = true → Leads i s (w.groupSync (2 ^ g))))
/-- Syncs (R163, R168, R170 to R174): a fire, or a rising edge of SYNC where the group takes it, becomes a request of its edge; a fire that of
the next MCLK edge. At the edge every chain of the group that is not IDLE has its new origin, its CIC empty, its settle count restarted and
its next record marked, after a swap that is due there; the SYNC output pulses for its group for 16 MCLK periods. Output boundaries at the
edge come first: that the row then has no effect is a DESIGN CHOICE (log entry 129). A second request at one MCLK edge resets nothing
again; without a request nothing happens. -/
def Obligations.GroupsAreSynced : Prop :=
  Claims.ThePinIsTaken ∧ (∀ (h : Hdr) (m : Nat) (s : State), m < 256 →
    Accepted h .sluSyncCtrl ((s.reg .sluSyncCtrl &&& 0x17) ||| BitVec.ofNat 32 (m * 0x10000)) s →
    ∃ rs, Answers (.syncFire h m) h [] s
        { s with regs := rs, syncs := s.syncs ++ ((List.range 8).filter fun g => m / 2 ^ g % 2 == 1).map fun g => (g, false, s.clk.mclk + 1) } ∧
      ∀ q : Reg, decodeAddr q.addr = some q →
        cellGet rs q.addr q.reset = if q = .sluSyncCtrl then s.reg q &&& 0x17 else s.reg q) ∧
  (∀ (g : Nat) (xs : List (Nat × List Int)) (s : State), g < 8 → s.fabricOn = true → s.link.syns = [] → s.clk.mclkPh < s.tPerM →
    let mine (n : Nat) : Prop := n < 24 ∧ (s.ch n).st ≠ .idle ∧ s.bit (.sluRate n) 19 = true ∧ s.fld (.sluRate n) 18 16 = g
    let owed (e n : Nat) : Prop :=
      (s.ch n).live = true ∧ (s.ch n).lastB + s.decimD n ≤ e ∨ (s.ch n).live = false ∧ (s.ch n).origin < e
    let asked (e : Nat) : Prop := ∃ route, (s.syncs.find? fun x => x.1 == g) = some (g, route, e)
    let free (e : Nat) : Prop := ∀ n, mine n → ¬ owed e n
    let rest := s.syncs.eraseP fun x => x.1 == g
    ((∀ x ∈ s.syncs, x.1 ≠ g) → Leads (.syncEdge g xs) s s) ∧ ∀ e, asked e →
    (¬ free e → Leads (.syncEdge g xs) s s) ∧
    (free e → (g, e) ∈ s.syncLast → ∃ t, Claims.Reaches s t e ∧ Leads (.syncEdge g xs) s { t with syncs := rest }) ∧
    (free e → (g, e) ∉ s.syncLast → ∃ u, Leads (.syncEdge g xs) s u ∧ u.clk.mclk = max e s.clk.mclk ∧
      u.syncs = rest ∧ cellGet u.syncLast g 0 = e ∧
      u.syncPin = (s.syncPin || (s.bit .sluSyncCtrl 4 && decide (s.fld .sluSyncCtrl 2 0 = g))) ∧
      (∀ n, n < 24 → ¬ mine n → u.ch n = s.ch n) ∧
      (∀ n, mine n → (u.ch n).filt.integ = [] ∧ (u.ch n).filt.comb = [] ∧
        ((s.ch n).swapAt = none → (s.ch n).swap = false ∨ e < (s.ch n).swapFrom → u.ch n = Claims.synced s n e (u.ch n).filt) ∧
        ((s.ch n).swapAt.isSome = true ∨ ((s.ch n).swap = true ∧ (s.ch n).swapFrom ≤ e) →
          u.ch n = { Claims.synced s n e (u.ch n).filt with swap := false, swapAt := none } ∧
          u.fld (.sluBank n) 0 0 = 1 - s.fld (.sluBank n) 0 0)) ∧
      u.drivers = s.drivers ∧ u.eng = s.eng ∧
      ((∀ n, mine n → (s.ch n).swap = false ∧ (s.ch n).swapAt = none) → u.regs = s.regs ∧ u.weir = s.weir))) ∧
  ∀ s : State, s.fabricOn = true →
    (cellGet s.syncLast (s.fld .sluSyncCtrl 2 0) 0 + 16 ≤ s.clk.mclk → Leads .syncPinPulseEnd s { s with syncPin := false }) ∧
    (s.clk.mclk < cellGet s.syncLast (s.fld .sluSyncCtrl 2 0) 0 + 16 → Leads .syncPinPulseEnd s s)

/-! ### Ports, drivers, monitors (R88 to R149) -/

/-- Code, status register and status bit of a monitored fault (R143). -/
def Claims.faultRow : FaultKind → Nat × Reg × Nat
  | .low x => (0x1400 + x, .monExcStatus x, 0)
  | .high x => (0x1404 + x, .monExcStatus x, 1)
  | .fsp x => (0x1408 + x, .monExcStatus x, 2)
  | .fsn x => (0x140c + x, .monExcStatus x, 3)
  | .sat x => (0x1410 + x, .monExcStatus x, 4)
  | .ref x => (0x1414 + x, .monExcStatus x, 5)
  | .comp n => (0x1428 + n, .monIsrc, n)
  | .cm n => (0x1440 + n, .monCmAct, n)
/-- An event unit on its way to the queues that take any chain of a mask. -/
def Claims.toQueues (s : State) (mask code : Nat) (tm : Stamp) : List (Nat × RUnit) :=
  ((List.range 16).filter fun q => s.qOn q && (List.range 24).any fun n => decide (mask / 2 ^ n % 2 = 1) && s.qTakes q n).map fun q =>
    (q, eventUnit code tm)
/-- The over-range comparator (R126, R127): it flags MCLK periods from here on until it no longer does; it shows at once, its rise sets the
sticky bit and fires source 3 where that was clear; a clear of the modulator flags the 16 periods before it and its own, in outputs still in
the engine too. A chain that is IDLE flags nothing. -/
def Claims.OverRangesAreFlagged : Prop :=
  ∀ (n : Nat) (s : State), n < 24 → s.fabricOn = true →
    let c := s.ch n
    let now := s.clk.mclk
    let rise (t : State) : State := if s.bit .afeOvl n then t else t.irqFire 3
    (c.st = .idle → Leads (.modulatorClear n) s s ∧ ∀ hit, Leads (.overRangeFlag n hit) s s) ∧
    (c.st ≠ .idle →
      (∃ t, Leads (.overRangeFlag n true) s (rise t) ∧ t.bit .afeStatus n = true ∧ t.bit .afeOvl n = true ∧
        Claims.Keeps [.afeStatus, .afeOvl] s t ∧ (∀ k, k < 24 → k ≠ n → t.ch k = s.ch k) ∧
        t.ch n = { c with ovrs := if c.ovlNow then c.ovrs else (now, none) :: c.ovrs, ovlNow := true } ∧
        t = { s with regs := t.regs, chains := t.chains }) ∧
      (∃ t, Leads (.overRangeFlag n false) s t ∧ t.bit .afeStatus n = false ∧ Claims.Keeps [.afeStatus] s t ∧
        (∀ k, k < 24 → k ≠ n → t.ch k = s.ch k) ∧
        t.ch n = { c with ovlNow := false, ovrs := match c.ovrs with | (a, none) :: l => (a, some now) :: l | l => l } ∧
        t = { s with regs := t.regs, chains := t.chains }) ∧
      ∃ t, Leads (.modulatorClear n) s (rise t) ∧ t.bit .afeOvl n = true ∧ Claims.Keeps [.afeOvl] s t ∧
        (∀ k, k < 24 → k ≠ n → t.ch k = s.ch k) ∧ (t.ch n).ovlNow = c.ovlNow ∧ (now - 16, some (now + 1)) ∈ (t.ch n).ovrs ∧
        (∀ x ∈ c.ovrs, x ∈ (t.ch n).ovrs) ∧
        t.eng.jobs = s.eng.jobs.map (fun j =>
          if j.source = n ∧ now - 16 < j.b ∧ j.left = false then { j with flags := j.flags ||| flagOVR } else j))
/-- What each monitor judges and while it runs (R132, R133, R137, R138): the current against its window, scaled by the level in force over
LEVEL_REF, force against sense, saturation 0.25 V below VEXC, the reference below 0.25 V, compliance 1 V below VSUP, the common mode against
its limits and 0.2 V below VSUP. In µA and µV. -/
def Claims.LimitsAreJudged : Prop :=
  ∀ (s : State) (d : Detection) (x : Nat),
    let ref : Int := s.fld (.monExcLearn x) 29 16
    let lvl : Int := (s.drv x).level
    (d.kind = .low x → (s.exceeds d = true ↔ d.q * ref < (s.fld (.monExcWin x) 27 16 : Int) * 50 * lvl) ∧
      (s.monActive d.kind = true ↔ (s.drv x).on = true ∧ s.bit (.monExcCtrl x) 0 = true)) ∧
    (d.kind = .high x → (s.exceeds d = true ↔ (s.fld (.monExcWin x) 11 0 : Int) * 50 * lvl < d.q * ref) ∧
      (s.monActive d.kind = true ↔ (s.drv x).on = true ∧ s.bit (.monExcCtrl x) 0 = true)) ∧
    (d.kind = .fsp x ∨ d.kind = .fsn x → (s.exceeds d = true ↔ (s.fld (.monExcCtrl x) 15 10 : Int) * 25000 < |d.q|) ∧
      (s.monActive d.kind = true ↔ (s.drv x).on = true ∧ (s.drv x).wire6 = true ∧ s.bit (.monExcCtrl x) 1 = true)) ∧
    (d.kind = .sat x → (s.exceeds d = true ↔ d.sup - 250000 < d.q) ∧ (s.monActive d.kind = true ↔ (s.drv x).on = true)) ∧
    (d.kind = .ref x → (s.exceeds d = true ↔ d.q < 250000) ∧
      (s.monActive d.kind = true ↔ ∃ n, n < 24 ∧ (s.ch n).st ≠ .idle ∧ s.refDriver n = some x)) ∧
    (d.kind = .comp x → (s.exceeds d = true ↔ d.sup - 1000000 < d.q) ∧ (s.monActive d.kind = true ↔ (s.isrc x).on = true)) ∧
    (d.kind = .cm x → (s.exceeds d = true ↔ d.q < (s.fld (.monCm x) 28 16 : Int) * 1000 ∨
        min ((s.fld (.monCm x) 12 0 : Int) * 1000) (d.sup - 200000) < d.q) ∧
      (s.monActive d.kind = true ↔ (s.ch x).st ≠ .idle ∧ s.bit (.monCm x) 31 = true))
/-- FAULT_DETECT and FAULT_CLEAR (R132, R136, R137, R140 to R143): a condition that has held for its detection time and that its monitor judges
opens its interval with its code, unit and time, sets its status and sticky bits and writes its event; OFF_ON_FAULT switches its driver off;
one that no monitor judges is no fault. An active fault whose condition ends shows so where its bit follows the comparator; once the
condition has stayed absent the interval ends and code + 0x80 is written with the time at which it ended. -/
def Claims.FaultsOpenAndClose : Prop :=
  (∀ (d : Detection) (s : State), d.kind.wf = true → s.fabricOn = true → s.clk.mclkPh < s.tPerM →
    let row := Claims.faultRow d.kind
    ∃ t, Claims.Reaches s t (d.tM + s.qualTime d.kind) ∧
      (t.judged d = false → Leads (.faultDetect [d]) s t) ∧
      (t.judged d = true → (∀ f ∈ s.mon.faults, ¬ (f.code = row.1 ∧ f.t1 = none)) → ∃ u, Leads (.faultDetect [d]) s u ∧
        u.bit row.2.1 row.2.2 = true ∧
        (∃ more, u.mon.faults = s.mon.faults ++
          { code := row.1, scope := faultScope d.kind, t0 := d.tM, t1 := none, ev := t.clk.mclk } :: more) ∧
        (∃ more, u.weir.mv0 = s.weir.mv0 ++ Claims.toQueues s (s.scopeMask (faultScope d.kind)) row.1 (t.stampOf d.tM d.tF) ++ more) ∧
        (∀ x, x < 4 → s.bit (.monExcCtrl x) 3 = true →
          d.kind = .low x ∨ d.kind = .high x ∨ d.kind = .fsp x ∨ d.kind = .fsn x ∨ d.kind = .sat x →
          (u.drv x).on = false ∧ (u.drv x).faultOff = true ∧ (u.drv x).en = (s.drv x).en) ∧
        ((∀ x, x < 4 → s.bit (.monExcCtrl x) 3 = false) → u.drivers = s.drivers ∧ u.chains = s.chains))) ∧
  ∀ (m : FaultKind) (tM tF : Nat) (s : State) (f : FaultIv), m.wf = true → s.fabricOn = true → s.clk.mclkPh < s.tPerM →
    let row := Claims.faultRow m
    let e := f.gone.getD tM
    let gone (l : List FaultIv) : List FaultIv := l.map fun g => if g.code = row.1 ∧ g.t1 = none then { g with gone := some e } else g
    let live : Bool := match m with | .sat _ | .ref _ | .comp _ => true | _ => false
    ((∀ g ∈ s.mon.faults, ¬ (g.code = row.1 ∧ g.t1 = none)) → ∀ done, Leads (.faultClear row.1 tM tF done) s s) ∧
    ((s.mon.faults.filter fun f => f.code == row.1 && f.t1.isNone) = [f] →
      (∃ rs, Leads (.faultClear row.1 tM tF false) s { s with regs := rs, mon := { s.mon with faults := gone s.mon.faults } } ∧
        ∀ q : Reg, decodeAddr q.addr = some q → cellGet rs q.addr q.reset =
          if live = true ∧ q = row.2.1 then putBits (s.reg q) row.2.2 row.2.2 0 else s.reg q) ∧
      ∃ t rs fs, Claims.Reaches s t (e + s.absentTime m) ∧ Leads (.faultClear row.1 tM tF true) s
          { t with regs := rs, mon := { s.mon with faults := fs }
                   weir := { s.weir with mv0 := s.weir.mv0 ++ Claims.toQueues s (s.scopeMask f.scope) (row.1 + 0x80) (t.stampOf e tF) } } ∧
        fs = (gone s.mon.faults).map (fun g => if g.code = row.1 ∧ g.t1 = none then { g with t1 := some t.clk.mclk } else g) ∧
        ∀ q : Reg, decodeAddr q.addr = some q →
          cellGet rs q.addr q.reset = if q = row.2.1 then putBits (s.reg q) row.2.2 row.2.2 0 else s.reg q)
/-- Over-range and faults (R126, R127, R132, R133, R136 to R138, R140 to R143, R147, R149): what the comparators flag and the monitors judge; how
a fault opens and closes. The die converter's reading shows, two readings at a threshold set it, and TJ_SHUT switches drivers, sources and
emulator outputs off. -/
def Obligations.FaultsAreRecorded : Prop :=
  Claims.OverRangesAreFlagged ∧ Claims.LimitsAreJudged ∧ Claims.FaultsOpenAndClose ∧
  ∀ (q : Int) (s : State), -(2 ^ 11) ≤ q → q < 2 ^ 11 → s.pwr.st = .run → (s.reg .monTempStatus &&& 7) = 0 → 60 ≤ s.fld .monTempCfg 7 0 →
    (∀ f ∈ s.mon.faults, f.code ≠ 0x1471) →
    let warn : Int := 4 * s.fld .monTempCfg 7 0
    (q < warn → q < 540 → ∃ rs hs, Leads (.tempReading q) s { s with regs := rs, mon := { s.mon with hot := hs } } ∧
      (∀ k, k < 3 → cellGet hs k 0 = 0) ∧ ∀ r : Reg, decodeAddr r.addr = some r → cellGet rs r.addr r.reset =
        if r = .monTempStatus then putBits (s.reg r) 31 20 (BitVec.ofInt 12 q).toNat else s.reg r) ∧
    (warn ≤ q → q < 540 → cellGet s.mon.hot 0 0 = 0 → ∃ u, Leads (.tempReading q) s u ∧ u.mon.faults = s.mon.faults ∧
      cellGet u.mon.hot 0 0 = 1 ∧ u.reg .monTempStatus = putBits (s.reg .monTempStatus) 31 20 (BitVec.ofInt 12 q).toNat) ∧
    (warn ≤ q → q < 540 → cellGet s.mon.hot 0 0 = 1 → ∃ u, Leads (.tempReading q) s u ∧
      u.mon.faults = s.mon.faults ++ [{ code := 0x1470, scope := .none, t0 := s.clk.mclk, t1 := none, ev := s.clk.mclk }] ∧
      u.bit .monTempStatus 0 = true ∧ u.bit .monTempStatus 4 = true ∧ u.drivers = s.drivers ∧ u.chains = s.chains ∧
      u.weir.mv0 = s.weir.mv0 ++ s.queuesAll.map (fun n => (n, eventUnit 0x1470 s.now)) ∧
      (s.irq.insv.getLsbD 5 = false → u.irq.pend.getLsbD 5 = true)) ∧
    (600 ≤ q → cellGet s.mon.hot 2 0 = 1 → ∃ u, Leads (.tempReading q) s u ∧ u.bit .monTempStatus 2 = true ∧
      (∀ x, x < 4 → (u.drv x).on = false ∧ (u.drv x).en = (s.drv x).en ∧
        ((s.drv x).on = true ∨ (s.drv x).en = true → (u.drv x).faultOff = true)) ∧
      (∀ n, n < 8 → (u.isrc n).on = false) ∧ u.beo0.on = false ∧ u.beo1.on = false)

/-- Writes of port roles, drivers, sources, chop generators and the feedback of a TIA are checked and held (R90, R91, R94 to R96, R100, R103,
R109 to R111, R119, R121, R134, R149): the register takes its fields, and what is in force stays until the tick boundary. A write that changes
ROLE or SEL of a port that feeds a chain that is not IDLE, or that a driver or source uses, is refused before the assignment is judged. A
learn that is requested while one is under way replaces it (log entry 118). -/
def Obligations.ExcitationWritesAreHeld : Prop :=
  (∀ (h : Hdr) (x : Nat) (v : W32) (s : State), x < 4 →
    (Accepted h (.excCtrl x) v s →
      (v.getLsbD 0 = true → v.getLsbD 9 = true ∨ (v.getLsbD 8 = true ∧ s.sensed x = false) →
        Refuses (.excConfigWrite h (.ctrl x) v) h .badParam [] s) ∧
      (v.getLsbD 0 = true → v.getLsbD 9 = false → v.getLsbD 8 = false ∨ s.sensed x = true →
        s.bit .supStatus 3 = false ∨ s.bit .monTempStatus 2 = true →
        Refuses (.excConfigWrite h (.ctrl x) v) h .stateConflict [BitVec.ofNat 8 (devCode s.proto.dev), 0xfe, 0] s) ∧
      (v.getLsbD 0 = false ∨ (v.getLsbD 9 = false ∧ (v.getLsbD 8 = false ∨ s.sensed x = true) ∧ s.bit .supStatus 3 = true ∧
          s.bit .monTempStatus 2 = false) →
        ∃ ds, Answers (.excConfigWrite h (.ctrl x) v) h [] s { s.setReg (.excCtrl x) (v &&& 0xff01) with drivers := ds } ∧
          (∀ k, k < 4 → k ≠ x → cellGet ds k {} = s.drv k) ∧
          cellGet ds x {} = { s.drv x with restart := (cellGet ds x {}).restart })) ∧
    (Accepted h (.excLevel x) v s → Answers (.excConfigWrite h (.level x) v) h [] s
      (s.setReg (.excLevel x) (BitVec.ofNat 32 (bits v.toNat 13 0)))) ∧
    (Accepted h (.excChop x) v s →
      (bits v.toNat 22 0 < 4 * bits v.toNat 30 23 ∨ chopFits (bits v.toNat 22 0) s.div = false → Refuses (.excConfigWrite h (.chop x) v) h .badParam [] s) ∧
      (4 * bits v.toNat 30 23 ≤ bits v.toNat 22 0 → chopFits (bits v.toNat 22 0) s.div = true →
        Answers (.excConfigWrite h (.chop x) v) h [] s (s.setReg (.excChop x) v))) ∧
    (Accepted h (.isrcPair x) v s →
      (v.getLsbD 0 = true → s.fld (.isrcCfg (2 * x)) 7 0 ≠ s.fld (.isrcCfg (2 * x + 1)) 7 0 →
        Refuses (.excConfigWrite h (.pair x) v) h .badParam [] s) ∧
      (v.getLsbD 0 = false ∨ s.fld (.isrcCfg (2 * x)) 7 0 = s.fld (.isrcCfg (2 * x + 1)) 7 0 →
        Answers (.excConfigWrite h (.pair x) v) h [] s (s.setReg (.isrcPair x) (v &&& 7)))) ∧
    (Accepted h (.monExcCtrl x) (v ||| 4) s →
      (v.getLsbD 0 = true → s.fld (.monExcWin x) 11 0 ≤ s.fld (.monExcWin x) 27 16 → Refuses (.learn h x v) h .badParam [] s) ∧
      (v.getLsbD 0 = false ∨ s.fld (.monExcWin x) 27 16 < s.fld (.monExcWin x) 11 0 →
        Answers (.learn h x v) h [] s ((s.setReg (.monExcCtrl x) (v &&& 0xffcb)).setDrv x { s.drv x with learn := 1 }))) ∧
    (Accepted h (.afeTia x) v s →
      let free : Prop := s.chBusy (16 + x) = true → bits v.toNat 27 16 = s.fld (.afeTia x) 27 16
      let feeds : Prop := s.bit .beoLoopCfg 31 = true ∧ (s.fld .beoLoopCfg 5 0 = 16 + x ∨ s.fld .beoLoopCfg 11 6 = 16 + x)
      (s.chBusy (16 + x) = true → bits v.toNat 27 16 ≠ s.fld (.afeTia x) 27 16 →
        Refuses (.afeTiaFbWrite h x v) h .stateConflict (Claims.clashAt (16 + x) s) s) ∧
      (free → feeds → bits v.toNat 2 0 ≠ s.fld (.afeTia x) 6 4 →
        Refuses (.afeTiaFbWrite h x v) h .stateConflict [BitVec.ofNat 8 (devCode s.proto.dev), 0x31, 1] s) ∧
      ((s.ch (16 + x)).st ≠ .idle → free → ¬ feeds ∨ bits v.toNat 2 0 = s.fld (.afeTia x) 6 4 →
        Claims.Sets (.afeTiaFbWrite h x v) h [] s [(.afeTia x, putBits (s.reg (.afeTia x)) 2 0 (bits v.toNat 2 0))]) ∧
      ((s.ch (16 + x)).st = .idle → free → ¬ feeds ∨ bits v.toNat 2 0 = s.fld (.afeTia x) 6 4 → ∃ u, Answers (.afeTiaFbWrite h x v) h [] s u ∧
        u = { s with regs := u.regs } ∧ Claims.Keeps (.afeTia x :: Claims.computed (16 + x)) s u ∧
        u.fld (.afeTia x) 27 16 = bits v.toNat 27 16 ∧ u.fld (.afeTia x) 2 0 = bits v.toNat 2 0 ∧
        u.fld (.afeTia x) 6 4 = bits v.toNat 2 0))) ∧
  (∀ (h : Hdr) (n : Nat) (v : W32) (s : State), n < 8 → Accepted h (.isrcCfg n) v s →
    (v.getLsbD 15 = true → ¬ (s.fld (.apCfg (bits v.toNat 13 8)) 2 0 = 3 ∧ s.fld (.apCfg (bits v.toNat 13 8)) 12 8 % 8 = n) →
      Refuses (.excConfigWrite h (.isrc n) v) h .badParam [] s) ∧
    (v.getLsbD 15 = true → s.fld (.apCfg (bits v.toNat 13 8)) 2 0 = 3 → s.fld (.apCfg (bits v.toNat 13 8)) 12 8 % 8 = n →
      s.bit .monTempStatus 2 = true →
      Refuses (.excConfigWrite h (.isrc n) v) h .stateConflict [BitVec.ofNat 8 (devCode s.proto.dev), 0xfe, 0] s) ∧
    (v.getLsbD 15 = false ∨ (s.fld (.apCfg (bits v.toNat 13 8)) 2 0 = 3 ∧ s.fld (.apCfg (bits v.toNat 13 8)) 12 8 % 8 = n ∧
        s.bit .monTempStatus 2 = false) →
      ∃ cs, Answers (.excConfigWrite h (.isrc n) v) h [] s { s.setReg (.isrcCfg n) (v &&& 0xbfff) with sources := cs } ∧
        (∀ k, k < 8 → k ≠ n → cellGet cs k {} = s.isrc k) ∧ cellGet cs n {} = { s.isrc n with restart := (cellGet cs n {}).restart })) ∧
  ∀ (h : Hdr) (p : Nat) (v : W32) (s : State), p < 48 → Accepted h (.apCfg p) v s →
    let role := bits v.toNat 2 0
    let x := s.fld (.apCfg p) 12 8 % 4
    let k := s.fld (.apCfg p) 12 8 % 8
    let mate := if k % 2 = 0 then k + 1 else k - 1
    let sensing : Prop := s.drvEnabled x = true ∨
      (s.senseOnlySet x = true ∧ ∃ n, n < 24 ∧ s.chBusy n = true ∧ s.refDriver n = some x)
    let driven : Prop := s.srcEnabled k = true ∨
      ((s.bit (.isrcPair (k / 2)) 0 = true ∨ (s.isrc k).swapEn = true) ∧ s.srcEnabled mate = true)
    let taken : Prop := ∃ o, o < 48 ∧ o ≠ p ∧ s.fld (.apCfg o) 2 0 = role ∧ s.fld (.apCfg o) 12 8 % 8 = bits v.toNat 10 8
    let moves : Prop := role ≠ s.fld (.apCfg p) 2 0 ∨ bits v.toNat 12 8 ≠ s.fld (.apCfg p) 12 8
    let feeds (n : Nat) : Prop := n < 24 ∧ s.chBusy n = true ∧ (s.fld (.apChsel n) 5 0 = p ∨ s.fld (.apChsel n) 13 8 = p)
    let used : Prop := (s.fld (.apCfg p) 2 0 = 2 ∧ sensing) ∨ (s.fld (.apCfg p) 2 0 = 3 ∧ driven)
    (moves → ∀ n, feeds n → (∀ k, k < n → ¬ feeds k) →
      Refuses (.apCfgWrite h p v) h .stateConflict (Claims.clashAt n s) s) ∧
    (moves → (∀ n, ¬ feeds n) → used →
      Refuses (.apCfgWrite h p v) h .stateConflict [BitVec.ofNat 8 (devCode s.proto.dev), 0xfe, 0] s) ∧
    (¬ moves ∨ ((∀ n, ¬ feeds n) ∧ ¬ used) →
      ((role = 2 ∨ role = 3) → taken → Refuses (.apCfgWrite h p v) h .badParam [] s) ∧
      ((role = 2 ∨ role = 3 → ¬ taken) → Answers (.apCfgWrite h p v) h [] s (s.setReg (.apCfg p) (v &&& 0x3f07))))

/-- The overload timer (R98) over the loads of a driver in µA: a load below the limit leaves it; one at the limit adds its time, after a
clear where 61,440 MCLK periods have passed without any; at 61,440 it has run out. -/
def Claims.OverloadsAreTimed : Prop :=
  ∀ (d : Driver) (lim : Nat) (l : Spell) (ls : List Spell),
    let c := if d.overAt.any (fun e => decide (e + 61440 ≤ l.start)) then 0 else d.overload
    let counts : Prop := lim ≤ l.load ∧ l.start < l.stop ∧ d.overAt.getD 0 ≤ l.start
    d.overload10ms lim [] = (d, none) ∧
    (¬ counts → d.overload10ms lim (l :: ls) = d.overload10ms lim ls) ∧
    (counts → 61440 ≤ c + (l.stop - l.start) →
      d.overload10ms lim (l :: ls) = ({ d with overload := 61440, overAt := some (l.start + (61440 - c)) }, some (l.start + (61440 - c)))) ∧
    (counts → c + (l.stop - l.start) < 61440 →
      d.overload10ms lim (l :: ls) = { d with overload := c + (l.stop - l.start), overAt := some l.stop }.overload10ms lim ls)
/-- Hiccup and its end (R98, R99, R102, R140, R143, R149, R169): the timer's end switches the driver off, counts, faults its chains and, at
HICCUP_MAX in force, locks it out; 614,400 MCLK periods on it restarts with its ramp and ends its switch-off faults, unless it is locked out or
may not drive; 61,440 periods after the last load the timer clears. The limit is 180 mA, 90 mA while TJ_FOLD holds, within 15 %. -/
def Claims.DriversHiccup : Prop :=
  ∀ (x : Nat) (s : State), x < 4 → s.fabricOn = true → s.clk.mclkPh < s.tPerM →
    let d := s.drv x
    let mine (n : Nat) : Prop := n < 24 ∧ (s.fld (.afeCfg n) 10 8 = x + 1 ∨ (s.fld (.apChsel n) 19 18 ≠ 0 ∧ s.fld (.apChsel n) 17 16 = x))
    let mask := chainMask fun n => decide (mine n)
    let ready : Prop := d.en = true ∧ d.hiccup = true ∧ d.lockout = false ∧ s.bit .supStatus 3 = true ∧ s.bit .monTempStatus 2 = false
    (s.bit .monTempStatus 1 = false → 153000 ≤ s.driverLimit x ∧ s.driverLimit x ≤ 207000) ∧
    (s.bit .monTempStatus 1 = true → 76500 ≤ s.driverLimit x ∧ s.driverLimit x ≤ 103500) ∧
    (d.on = false → ∀ ls, Leads (.hiccupEntry x ls) s s ∧ Leads (.overloadTimerClear x ls) s s) ∧
    (d.on = true → ∀ ls d', d.overload10ms (s.driverLimit x) ls = (d', none) →
      (∃ ds, Leads (.hiccupEntry x ls) s { s with drivers := ds } ∧ ∀ k, k < 4 → cellGet ds k {} = if k = x then d' else s.drv k) ∧
      (d'.overAt = none → ∃ ds, Leads (.overloadTimerClear x ls) s { s with drivers := ds } ∧
        ∀ k, k < 4 → cellGet ds k {} = if k = x then d' else s.drv k) ∧
      ∀ e, d'.overAt = some e → ∃ t ds, Claims.Reaches s t (e + 61440) ∧ Leads (.overloadTimerClear x ls) s { t with drivers := ds } ∧
        ∀ k, k < 4 → cellGet ds k {} = if k = x then { d' with overload := 0, overAt := none, limit := false } else s.drv k) ∧
    (d.on = true → ∀ ls d' e, d.overload10ms (s.driverLimit x) ls = (d', some e) →
      let c := min 255 (d.hiccups + 1)
      let lock := d.hicMax ≠ 0 ∧ d.hicMax ≤ c
      ∃ t u, Claims.Reaches s t e ∧ Leads (.hiccupEntry x ls) s u ∧ Leads (.overloadTimerClear x ls) s u ∧ u.clk = t.clk ∧
      u.drv x = { d with on := false, ramp := false, limit := false, hiccup := true, hicAt := t.clk.mclk, hiccups := c, overload := 0
                         overAt := none, lockout := if lock then true else d.lockout, learn := if d.learn = 2 then 3 else d.learn } ∧
      (∀ n, n < 24 → mine n → (s.ch n).st ≠ .idle → (u.ch n).st = .faulted) ∧ (∀ n, n < 24 → ¬ mine n → u.ch n = s.ch n) ∧
      (let iv (code : Nat) : FaultIv :=
         { code := code, scope := .driver x, t0 := t.clk.mclk, t1 := none, drv := some x, ev := t.clk.mclk }
       u.mon.faults = s.mon.faults ++ iv (0x1418 + x) :: (if lock then [iv (0x141c + x)] else [])) ∧
      u.weir.mv0 = s.weir.mv0 ++ Claims.toQueues s mask (0x1418 + x) t.now ++
        if lock then Claims.toQueues s mask (0x141c + x) t.now else []) ∧
    (¬ ready → Leads (.hiccupRestart x) s s) ∧
    (ready → ∃ t u, Claims.Reaches s t (d.hicAt + 614400) ∧ Leads (.hiccupRestart x) s u ∧ u.clk = t.clk ∧
      u.drv x = { d with on := true, hiccup := false, ramp := true, rampAt := t.clk.mclk, rampV := 0
                         rampTil := t.clk.mclk + rampTime d.rampSel, learn := if d.learn = 2 then 3 else d.learn } ∧
      u.mon.faults = s.mon.faults.map (fun f => if f.drv = some x ∧ f.t1 = none then { f with t1 := some t.clk.mclk } else f) ∧
      u.regs = s.regs)
/-- Drivers and generators (R98, R99, R101 to R105, R111, R134, R140, R173): a generator reverses HALF periods after its latest edge, and the pairs
that follow it with it (log entry 112); outputs, syncs and a tick at that edge come first (log entry 129); a ramp ends at its end time as an excitation change; what the overload timer and hiccup do; a learn ends 65,536
periods after its start and sets ILEARN, LEVEL_REF and the window (held in their fields, log entry 117), or LEARN_FAIL (a learn that fails
runs on, log entry 168). -/
def Obligations.DriversMove : Prop :=
  Claims.OverloadsAreTimed ∧ Claims.DriversHiccup ∧ ∀ (x : Nat) (s : State), x < 4 → s.fabricOn = true → s.clk.mclkPh < s.tPerM →
    let d := s.drv x
    let mine (n : Nat) : Prop := n < 24 ∧ (s.fld (.afeCfg n) 10 8 = x + 1 ∨ (s.fld (.apChsel n) 19 18 ≠ 0 ∧ s.fld (.apChsel n) 17 16 = x))
    let disturbed (u : State) : Prop := ∀ n, n < 24 →
      (mine n → (s.ch n).st ≠ .idle → u.ch n = { s.ch n with
        disAt := some u.clk.mclk, settleAt := max (s.ch n).settleAt u.clk.mclk, st := if (s.ch n).st = .running then .settling else (s.ch n).st }) ∧
      ((¬ mine n ∨ (s.ch n).st = .idle) → u.ch n = s.ch n)
    (d.chopEn = false → Leads (.chopReversal x) s s) ∧
    let e := (match d.chops with | [] => d.chopOrg | e :: _ => e.1) + d.half
    let owed : Prop := s.eng.tickAt + s.eng.div ≤ e ∨ (∃ y ∈ (s.advanceTo e).dueSyncs.syncs, y.2.2 ≤ e) ∨
      ∃ n, n < 24 ∧ (s.ch n).st ≠ .idle ∧
        ((s.ch n).live = true ∧ (s.ch n).lastB + s.decimD n ≤ e ∨ (s.ch n).live = false ∧ (s.ch n).origin < e)
    (d.chopEn = true → owed → Leads (.chopReversal x) s s) ∧
    (d.chopEn = true → ¬ owed → ∃ t ds cs, Claims.Reaches s t e ∧
      Leads (.chopReversal x) s { t with drivers := ds, sources := cs } ∧
      cellGet ds x {} = { d with pol := !d.pol, chops := (t.clk.mclk, true, !d.pol, d.blank) :: d.chops } ∧
      (∀ k, k < 4 → k ≠ x → cellGet ds k {} = s.drv k) ∧
      ∀ n, n < 8 → cellGet cs n {} =
        if (s.isrc n).swapEn = true ∧ (s.isrc n).swapGen = x then { s.isrc n with swapped := !d.pol } else s.isrc n) ∧
    (d.ramp = false → Leads (.rampEnd x) s s) ∧
    (d.ramp = true → ∃ t u, Claims.Reaches s t d.rampTil ∧ Leads (.rampEnd x) s u ∧ disturbed u ∧
      u = { t with drivers := u.drivers, chains := u.chains } ∧
      u.drv x = { d with ramp := false, learn := if d.learn = 2 then 3 else d.learn } ∧ ∀ k, k < 4 → k ≠ x → u.drv k = s.drv k) ∧
    ∀ (i : Nat) (ok : Bool), i < 4096 →
      (d.learn < 2 → Leads (.learnComplete x i ok) s s) ∧
      (2 ≤ d.learn → ∃ t u, Claims.Reaches s t (d.learnAt + 65536) ∧ Leads (.learnComplete x i ok) s u ∧
        u = { t with regs := u.regs, drivers := u.drivers } ∧ u.drv x = { d with learn := 0 } ∧
        (∀ k, k < 4 → k ≠ x → u.drv k = s.drv k) ∧
        (d.learn = 2 → ok = true → u.fld (.monExcLearn x) 11 0 = i ∧ u.fld (.monExcLearn x) 29 16 = d.level % 16384 ∧
          u.fld (.monExcWin x) 27 16 = min (i * (64 - s.fld (.monExcCtrl x) 9 6) / 64) (i - 10) ∧
          u.fld (.monExcWin x) 11 0 = min 4095 (max ((i * (64 + s.fld (.monExcCtrl x) 9 6) + 63) / 64) (i + 10)) ∧
          Claims.Keeps [.monExcLearn x, .monExcWin x] s u) ∧
        (3 ≤ d.learn ∨ ok = false → u.bit (.monExcStatus x) 13 = true ∧ Claims.Keeps [.monExcStatus x] s u))

/-! ### Results (R177 to R203) -/

/-- The protocol state after a source's staging slot is emptied (R310). -/
def Claims.unstaged (h : Hdr) (s : State) : Proto :=
  { s.proto with staging := s.proto.staging.filter fun x => decide (x.1 ≠ h.src) }
/-- A STATE_CONFLICT that names no object (R304). -/
def Claims.clash (s : State) : List Byte := [BitVec.ofNat 8 (devCode s.proto.dev), 0xfe, 0]
/-- A state with the single-bit errors counted that a check of a user block has corrected (R21, R193). -/
def Claims.checked (h : Hdr) (w : State) : State :=
  { w with eng := { w.eng with corrected := w.eng.corrected + (hdrErr h 0).sram } }
/-- Scaling, curves and derived streams (R180, R181, R184, R185, R188, R193, R194, R214): a SPAN commit takes a staged SSH with it; SSH is staged while the
chain is not IDLE; a host commit of AZT within AZT_LIM ends corrections on their way and the limit of the units that track the chain; a
curve is refused with its own stream as cold junction, on a bad user block, on a producing stream and above the budget, in this order; EN of a derived stream is refused on bad slots, and its
setting clears MISS, and items still waiting of a stream that is disabled or set anew are not run; DS_WT commits the staged slot, refused where it would change an enabled stream, and its read and write advance SLOT. -/
def Obligations.ScalingIsSet : Prop :=
  (∀ (h : Hdr) (n : Nat) (v w : W32) (s : State), n < 24 →
    (Accepted h (.sclSpanHi n) v s → slotOf s.proto.staging h.src (.sclSpanLo n) = some w →
      ∃ u, Answers (.sclSpanCommit h n v) h [] s u ∧ u.reg (.sclSpanLo n) = w ∧ u.reg (.sclSpanHi n) = v &&& 0xf ∧
        u.reg (.sclCfg n) = putBits (s.reg (.sclCfg n)) 5 0 ((s.ch n).ssh.getD (s.fld (.sclCfg n) 5 0)) ∧
        Claims.Keeps [.sclSpanLo n, .sclSpanHi n, .sclCfg n] s u ∧
        (∀ k, k < 24 → u.ch k = if k = n then { s.ch n with ssh := none } else s.ch k) ∧
        u = { s with regs := u.regs, chains := u.chains, proto := Claims.unstaged h s }) ∧
    (Accepted h (.sclAztHi n) v s → slotOf s.proto.staging h.src (.sclAztLo n) = some w →
      let x := pairVal w v
      let lim : Int := s.fld (.sclCfg n) 31 8 * 128
      (lim < x ∨ x < -lim → Refuses (.sclAztCommit h n v) h .badParam [] s) ∧
      (-lim ≤ x → x ≤ lim → ∃ u, Answers (.sclAztCommit h n v) h [] s u ∧
        u.reg (.sclAztLo n) = w ∧ u.reg (.sclAztHi n) = v &&& 0xf ∧ Claims.Keeps [.sclAztLo n, .sclAztHi n] s u ∧
        (∀ k, k < 16 →
          if s.bit (.meldCfg k) 31 = true ∧ s.fld (.meldCfg k) 11 8 = 4 ∧ s.fld (.meldP2 k) 4 0 = n then
            u.meld k = { s.meld k with atLimit := false, corr := [], zt := (u.meld k).zt } ∧
            (u.meld k).zt.length = (s.meld k).zt.length ∧ ∀ p ∈ (u.meld k).zt, p.ok = false ∧ p.til.isSome = true
          else u.meld k = s.meld k) ∧
        u.eng.jobs = s.eng.jobs.map (fun j => if j.source = n then { j with azt := none } else j) ∧
        u = { s with regs := u.regs, melds := u.melds, eng := { s.eng with jobs := u.eng.jobs }, proto := Claims.unstaged h s })) ∧
    (Accepted h (.sclCfg n) v s → ∃ u, Answers (.sclSshWrite h n v) h [] s u ∧
      u.reg (.sclCfg n) = putBits (putBits (s.reg (.sclCfg n)) 31 8 (bits v.toNat 31 8)) 5 0
        (if (s.ch n).st ≠ .idle then s.fld (.sclCfg n) 5 0 else bits v.toNat 5 0) ∧
      Claims.Keeps [.sclCfg n] s u ∧ ((s.ch n).st = .idle → u.chains = s.chains) ∧
      ((s.ch n).st ≠ .idle → ∀ k, k < 24 → u.ch k = if k = n then { s.ch n with ssh := some (bits v.toNat 5 0) } else s.ch k) ∧
      u = { s with regs := u.regs, chains := u.chains })) ∧
  (∀ (h : Hdr) (n : Nat) (v : W32) (s : State), n < 40 → Accepted h (.linCfg n) v s →
    let c := bits v.toNat 3 0
    let t := s.setReg (.linCfg n) (v &&& 0x1f3f3f)
    let own : Prop := 8 ≤ c ∧ c ≤ 12 ∧ bits v.toNat 13 8 = n
    let sound : Prop := c < 13 ∨ t.blockOk n c = true
    let no (st : Status) (data : List Byte) : Prop := Claims.RefusesOn (.linCfgWrite h n v) h st data s (Claims.checked h s)
    (own ∨ ¬ sound → no .badParam []) ∧
    (¬ own → sound → s.producing n = true → no .stateConflict (if n < 24 then Claims.clashAt n s else Claims.clash s)) ∧
    (¬ own → sound → s.producing n = false →
      (budgetBroken s t = true → no .budget []) ∧
      (budgetBroken s t = false → Answers (.linCfgWrite h n v) h [] s (Claims.checked h t)))) ∧
  (∀ (h : Hdr) (d : Nat) (v : W32) (s : State), d < 16 → Accepted h (.dsCfg d) v s →
    let t := s.setReg (.dsCfg d) (v &&& 0xc0000000)
    let kept (u : State) : Prop :=
      u.eng = { s.eng with jobs := s.eng.jobs.filter fun j => decide (j.source ≠ 24 + d) || j.fin }
    let bad : Prop := s.dsSlots d = [] ∨ (∃ p ∈ s.dsSlots d, 24 + d ≤ p.2.src) ∨
      (∃ c ∈ s.dsChains 17 d, ∃ e ∈ s.dsChains 17 d, s.rateD c ≠ s.rateD e) ∨ s.userOk (24 + d) = false
    (v.getLsbD 31 = true → s.bit (.dsCfg d) 31 = false →
      (bad → Claims.RefusesOn (.dsEnable h d v) h .badParam [] s (Claims.checked h s)) ∧
      (¬ bad → budgetBroken s t = true → Claims.RefusesOn (.dsEnable h d v) h .budget [] s (Claims.checked h s)) ∧
      (¬ bad → budgetBroken s t = false → ∃ u, Answers (.dsEnable h d v) h [] s (Claims.checked h u) ∧ u.reg (.dsCfg d) = v &&& 0xc0000000 ∧
        u.reg (.dsStat d) = putBits (s.reg (.dsStat d)) 31 16 0 ∧ Claims.Keeps [.dsCfg d, .dsStat d] s u ∧
        (∀ k, u.dsr k = if k = d then { s.dsr d with since := s.clk.mclk, seen := [] } else s.dsr k) ∧
        (∀ k, u.pastOf k = if k = 88 + d then [] else s.pastOf k) ∧ kept u ∧
        u = { s with regs := u.regs, ds := u.ds, past := u.past, eng := u.eng })) ∧
    (v.getLsbD 31 = true → s.bit (.dsCfg d) 31 = true → 
      Answers (.dsEnable h d v) h [] s (Claims.checked h t)) ∧
    (v.getLsbD 31 = false → ∃ u, Answers (.dsEnable h d v) h [] s (Claims.checked h u) ∧ u.reg (.dsCfg d) = v &&& 0xc0000000 ∧
      Claims.Keeps [.dsCfg d] s u ∧ (∀ k, u.dsr k = if k = d then { s.dsr d with seen := [] } else s.dsr k) ∧ kept u ∧
      u = { s with regs := u.regs, ds := u.ds, eng := u.eng })) ∧
  ∀ (h : Hdr) (v : W32) (s : State),
    let d := s.fld .dsSel 8 4
    let k := s.fld .dsSel 3 0
    let cur : DsSlot := cellGet (s.dsr d).slots k {}
    let new : DsSlot := { s.dsStage.getD cur with w := v.toInt }
    let sel : W32 := if s.bit .dsSel 31 = true then putBits (s.reg .dsSel) 3 0 ((k + 1) % 16) else s.reg .dsSel
    (Accepted h .dsWt v s →
      (s.bit (.dsCfg d) 31 = true → new ≠ cur → Refuses (.dsWtWrite h v) h .stateConflict (Claims.clash s) s) ∧
      (s.bit (.dsCfg d) 31 = false ∨ new = cur → ∃ u, Answers (.dsWtWrite h v) h [] s u ∧ u.dsStage = none ∧ u.reg .dsSel = sel ∧
        Claims.Keeps [.dsSel] s u ∧ (∀ e, e ≠ d → u.dsr e = s.dsr e) ∧
        (∀ j, cellGet (u.dsr d).slots j {} = if j = k then new else cellGet (s.dsr d).slots j {}) ∧
        u.dsr d = { s.dsr d with slots := (u.dsr d).slots } ∧ u = { s with regs := u.regs, ds := u.ds, dsStage := none })) ∧
    (Admitted h (.regRead Reg.dsWt.addr) s →
      Claims.Sets (.dsWtRead h) h (leBytes 4 (BitVec.ofInt 32 cur.w).toNat) s [(.dsSel, sel)])

/-- A request joins those that wait: its edge is the next MCLK edge but at least 2 SYSCLK cycles off, and requests of one edge are one (R197,
R200). -/
def Claims.joined (s : State) (l : List (Nat × Bool)) : List (Nat × Bool) :=
  if l.any (fun p => p.1 == s.clk.mclk + 1) then l else l ++ [(s.clk.mclk + 1, false)]
/-- The engine is empty, nothing waits for it, and no detector refers to a record in it. -/
def Claims.Idle (s : State) : Prop :=
  s.eng.jobs = [] ∧ Claims.Calm s ∧ ∀ k, k < 8 → (s.det k).refs = [] ∧ ∀ e ∈ (s.det k).hist, e.2 = none
/-- DETECTOR_LATCH (R195 to R198): the oldest request finds its edge, at which the detector restarts, or first waits for the inputs of the
ending period; with OUT = 2 a peak or envelope detector then puts its result out. -/
def Claims.DetectorsLatch : Prop :=
  ∀ (x : Nat) (s : State), x < 8 → s.fabricOn = true → s.clk.mclkPh < s.tPerM →
    let d := s.det x
    let i : Instr := .detectorLatch x
    (d.pend = [] → Claims.Idle s → Leads i s s) ∧
    ∀ e r rest, d.pend = (e, r) :: rest → (∀ p ∈ rest, e < p.1) →
      (∃ u, Leads i s u ∧ u.clk.mclk = max e s.clk.mclk ∧ (u.det x).pend = rest ∧ ∀ k, k < 8 → k ≠ x → (u.det k).pend = (s.det k).pend) ∧
      (Claims.Idle s → (∀ k, k < 32 → (s.stat k).run = false) → unitCount s.weir.mv0 < 64 →
        let waits := ((s.advanceTo e).detLatchTo x e).stillDue (s.fld (.dtCfg x) 13 8) e (.det x)
        let gives := s.bit (.dtCfg x) 31 && decide (s.fld (.dtCfg x) 29 28 = 2)
        let mode := s.fld (.dtCfg x) 25 24
        let ended : Det :=
          { d with pend := rest, latches := [], n := 0, lo := 0, hi := 0, sum := 0, env := 0, flags := 0, refs := [], count := 0 }
        let left (u : State) (v : Int) (tm : Stamp) : Prop := u.det x = ended ∧ ∃ r : RUnit, r.src = 40 + x ∧ r.tm = tm ∧
          r.recs.head?.map (fun c => (c.source, c.value)) = some (40 + x, BitVec.ofInt 36 v) ∧
          u.weir.mv0 = s.weir.mv0 ++ ((List.range 16).filter fun q => s.qOn q && s.qTakes q (40 + x)).map fun q => (q, r)
        let peak := peakOf (s.fld (.dtCfg x) 27 26) d
        ∃ u, Leads i s u ∧ (∀ k, k < 8 → k ≠ x → u.det k = s.det k) ∧ u.chains = s.chains ∧ u.stats = s.stats ∧ u.eng.jobs = [] ∧
          (waits = true → u.det x = { d with pend := rest, latches := [e] } ∧ u.weir = s.weir) ∧
          (waits = false →
            (gives = true → mode = 0 → d.n ≠ 0 → left u peak.1 peak.2.2.tm) ∧
            (gives = true → mode = 2 → ∀ m, d.tLast = some m → left u d.env m.tm) ∧
            (gives = true → mode = 2 → d.tLast = none → ∃ tm, left u d.env tm) ∧
            (gives = false ∨ mode = 1 ∨ mode = 3 ∨ (mode = 0 ∧ d.n = 0) → u.det x = ended ∧ u.weir = s.weir)))
/-- STAT_LATCH_EDGE (R200, R201, R229): at its edge a slot that runs restarts, the ending set waits for its inputs or becomes readable with its
SEQ, and the selectors of the routing fabric fire; causes on one edge latch once. -/
def Claims.StatisticsLatch : Prop :=
  ∀ (i : Nat) (s : State), i < 32 → s.fabricOn = true → s.clk.mclkPh < s.tPerM →
    let x := s.stat i
    (x.pend = [] → Claims.Idle s → Leads (.statLatchEdge i) s s) ∧
    ∀ e r rest, x.pend = (e, r) :: rest → (∀ p ∈ rest, e < p.1) →
      let t := s.advanceTo e
      let waits := t.stillDue (s.fld (.statCfg i) 5 0) e (.stat i)
      let fires := (List.range 2).filterMap fun j => if s.fld (.routeSl j) 4 0 = i then some ({ cc := 45 + j, cycle := .edge } : REvent) else none
      let next := (x.seq + 1) % 2 ^ 32
      let only (u : State) : Prop := (∀ k, k < 32 → k ≠ i → u.stat k = s.stat k) ∧
        u = { s with clk := t.clk, stats := u.stats, route := u.route }
      (∃ u, Leads (.statLatchEdge i) s u ∧ u.clk.mclk = max e s.clk.mclk ∧ (u.stat i).pend = rest ∧
        (x.run = true → x.edge ≠ some e → (u.stat i).edge = some e ∧ (u.stat i).cur = {})) ∧
      (Claims.Idle s → x.run = false ∨ x.edge = some e → ∃ u, Leads (.statLatchEdge i) s u ∧ u.stat i = { x with pend := rest } ∧
        only u ∧ u.route = s.route) ∧
      (Claims.Idle s → x.run = true → x.edge ≠ some e → ∃ u, Leads (.statLatchEdge i) s u ∧ only u ∧
        u.route = { s.route with pend := s.route.pend ++ fires } ∧
        u.stat i = if waits = true then
            { x with pend := rest, edge := some e, cur := {}, seq := next
                     ending := [{ edge := e, t := (t.stampEdge e).t, start := x.start, seq := next, set := x.cur }] }
          else { x with pend := rest, edge := some e, cur := {}, ending := [], seq := next
                        pub := latchedOf x.cur (t.stampEdge e).t next })
/-- A detector takes an input (R28, R195 to R198), no edge of a reset being near. A peak detector keeps the largest and the smallest input with
their times; an RMS detector sums squares in units of 2^-50 and gives the root of their mean with the block's last; an envelope detector
moves towards the magnitude by ATK or DCY. Each gives a record after the inputs that OUT names. Whether a root or a move that is not whole is
rounded up is open (log entry 30); of two inputs of equal magnitude the earlier counts (log entry 157). -/
def Claims.DetectorsTake : Prop :=
  ∀ (lane stall x : Nat) (s : State) (pre post : List Job) (j : Job) (r : Run), Claims.OnLane lane s pre j post r → r.st = .det x → x < 8 →
    s.bit (.dtCfg x) 31 = true → (s.det x).pend = [] → (s.det x).latches = [] →
    let d := s.det x
    let v := j.val
    let fs := s.flagsNow j
    let mode := s.fld (.dtCfg x) 25 24
    let pk := s.fld (.dtCfg x) 27 26
    let out := s.fld (.dtCfg x) 29 28
    let block := 2 ^ if s.fld (.dtCfg x) 19 16 = 0 then 16 else s.fld (.dtCfg x) 19 16
    let due : Prop := out = 0 ∨ (out = 1 ∧ (d.count + 1) % 2 ^ s.fld (.dtCfg x) 23 20 = 0)
    ∃ d' recs, Leads (.engineItem lane stall .none) s
        (Claims.itemDone lane pre.length
          (({ Claims.charged s r 4 stall with
              eng := { (Claims.charged s r 4 stall).eng with jobs := s.eng.jobs ++ recs } } : State).setDet x d') (j.finish (.det x))) ∧
      recs.length ≤ 1 ∧ (∀ o ∈ recs, o.source = 40 + x ∧ o.b = j.b ∧ o.fin = true ∧ o.stampIt = s.bit (.dtCfg x) 30) ∧
      (mode = 0 → d'.n = d.n + 1 ∧ d'.count = d.count + 1 ∧ d'.hi = (if d.n = 0 then v else max d.hi v) ∧
        d'.lo = (if d.n = 0 then v else min d.lo v) ∧ d'.flags = d.flags ||| fs ∧
        (d.n = 0 ∨ d.hi < v → d'.tHi = j.moment) ∧ (d.n ≠ 0 → v ≤ d.hi → d'.tHi = d.tHi) ∧
        (d.n = 0 ∨ v < d.lo → d'.tLo = j.moment) ∧ (d.n ≠ 0 → d.lo ≤ v → d'.tLo = d.tLo) ∧ (recs ≠ [] ↔ due) ∧
        ∀ o ∈ recs, o.flags &&& ~~~ flagOVR = d'.flags &&& ~~~ flagOVR ∧
          (pk = 0 → o.val = d'.hi ∧ o.moment = d'.tHi) ∧ (pk = 1 → o.val = d'.lo ∧ o.moment = d'.tLo) ∧
          (pk = 2 → |d'.lo| < |d'.hi| → o.val = d'.hi ∧ o.moment = d'.tHi) ∧
          (pk = 2 → |d'.hi| < |d'.lo| → o.val = d'.lo ∧ o.moment = d'.tLo) ∧
          (pk = 3 → o.val = (sat36 (d'.hi - d'.lo)).1 ∧ (o.moment = d'.tHi ∨ o.moment = d'.tLo) ∧ d'.tHi.f ≤ o.moment.f ∧ d'.tLo.f ≤ o.moment.f)) ∧
      (mode = 1 →
        let sum := d.sum + (2 * (v * v) + 2 ^ 20) / 2 ^ 21
        (recs ≠ [] ↔ block ≤ d.n + 1) ∧
        (d.n + 1 < block → d'.n = d.n + 1 ∧ d'.sum = sum ∧ d'.flags = d.flags ||| fs ∧ d'.first = if d.n = 0 then j.moment else d.first) ∧
        (block ≤ d.n + 1 → d'.n = 0 ∧ d'.sum = 0 ∧ d'.count = d.count) ∧
        ∀ o ∈ recs, o.flags &&& ~~~ flagOVR = (d.flags ||| fs) &&& ~~~ flagOVR ∧
          (0 ≤ sum → o.val < 2 ^ 35 - 1 → 0 ≤ o.val ∧ (o.val - 1) * |o.val - 1| * block < sum * 2 ^ 20 ∧
            sum * 2 ^ 20 < (o.val + 1) ^ 2 * block)) ∧
      (mode = 2 → d'.n = d.n + 1 ∧ d'.count = d.count + 1 ∧ d'.tLast = some j.moment ∧ (recs ≠ [] ↔ due) ∧
        (let a := |v| - d.env
         let k := if 0 < a then s.fld (.dtCoef x) 3 0 else s.fld (.dtCoef x) 12 8
         |d.env| ≤ 2 ^ 35 - 1 → |v| ≤ 2 ^ 35 - 1 →
           (2 ^ k ∣ a → d'.env = d.env + a / 2 ^ k) ∧ (¬ 2 ^ k ∣ a → d'.env = d.env + a / 2 ^ k ∨ d'.env = d.env + a / 2 ^ k + 1)) ∧
        ∀ o ∈ recs, o.val = d'.env ∧ o.moment = j.moment)
/-- Σx and Σx² of a set of a statistics slot, whose sums are formed about its first input (R201). -/
def Claims.sums (c : StatSet) : Int × Int :=
  if c.n = 0 then (0, 0) else (c.ref * c.n + c.sum, c.sq + 2 * c.ref * c.sum + c.ref * c.ref * c.n)
/-- A statistics slot that runs takes an input of after its start, no latch edge being near (R28, R199, R201): an excluded one counts in NEXCL;
beyond 4,194,303 none is accumulated and the set carries TRUNC. The set shows count, extremes, mean and population variance, rounded to
36 bits; an empty one shows zeros. -/
def Claims.StatisticsTake : Prop :=
  (∀ (lane stall i : Nat) (s : State) (pre post : List Job) (j : Job) (r : Run), Claims.OnLane lane s pre j post r → r.st = .stat i → i < 32 →
    let x := s.stat i
    let c := x.cur
    x.pend = [] → x.ending = [] → x.run = true → x.start < j.b →
    ∃ c', Leads (.engineItem lane stall .none) s
        (Claims.itemDone lane pre.length ((Claims.charged s r 6 stall).setStat i { x with cur := c' }) (j.finish (.stat i))) ∧
      (s.flagsNow j &&& BitVec.ofNat 6 (s.fld (.statCfg i) 29 24) ≠ 0 → c' = { c with nex := min (2 ^ 32 - 1) (c.nex + 1) }) ∧
      (s.flagsNow j &&& BitVec.ofNat 6 (s.fld (.statCfg i) 29 24) = 0 →
        (4194303 ≤ c.n → c' = { c with trunc := true }) ∧
        (c.n < 4194303 → c'.n = c.n + 1 ∧ c'.nex = c.nex ∧ c'.trunc = c.trunc ∧ c'.min = (if c.n = 0 then j.val else min c.min j.val) ∧
          c'.max = (if c.n = 0 then j.val else max c.max j.val) ∧ c'.ref = (if c.n = 0 then j.val else c.ref) ∧
          Claims.sums c' = ((Claims.sums c).1 + j.val, (Claims.sums c).2 + j.val * j.val)))) ∧
  ∀ (c : StatSet) (tm seq : Nat),
    let l := latchedOf c tm seq
    l.n = c.n ∧ l.nex = c.nex ∧ l.trunc = c.trunc ∧ l.time = tm ∧ l.seq = seq ∧
    (c.n = 0 → l.min = 0 ∧ l.max = 0 ∧ l.mean = 0 ∧ l.var = 0) ∧
    (c.n ≠ 0 → l.min = c.min ∧ l.max = c.max ∧
      l.mean = (sat36 ((2 * (Claims.sums c).1 + c.n) / (2 * c.n))).1 ∧
      l.var = (sat36 ((2 * (c.n * (Claims.sums c).2 - (Claims.sums c).1 ^ 2) + c.n * c.n * 2 ^ 35) / (2 * (c.n * c.n * 2 ^ 35)))).1)
/-- Detectors and statistics (R195 to R203): what they take and show; a reset request waits for its latch edge; STAT_ENA starts slots at the next tick boundary and stops
slots at once; a latch request reaches slots that run; what happens at the edges. A read of STAT_CNT captures the other words of the set for
its source. -/
def Obligations.PeriodsAreLatched : Prop :=
  Claims.DetectorsTake ∧ Claims.StatisticsTake ∧ Claims.DetectorsLatch ∧ Claims.StatisticsLatch ∧ ∀ (h : Hdr) (v : W32) (s : State),
    (Accepted h .dtCtrl v s → ∃ ds, Answers (.detectorReset h v) h [] s { s with dets := ds } ∧
      ∀ x, x < 8 → cellGet ds x {} = if v.getLsbD x then { s.det x with pend := Claims.joined s (s.det x).pend } else s.det x) ∧
    (Accepted h .statLatch v s → ∃ ss, Answers (.statLatch h v) h [] s { s with stats := ss } ∧
      ∀ i, i < 32 → cellGet ss i {} =
        if v.getLsbD i = true ∧ (s.stat i).run = true then { s.stat i with pend := Claims.joined s (s.stat i).pend } else s.stat i) ∧
    (Accepted h .statEna v s →
      (budgetBroken s (s.setReg .statEna v) = true → Refuses (.statEnaWrite h v) h .budget [] s) ∧
      (budgetBroken s (s.setReg .statEna v) = false → ∃ u, Answers (.statEnaWrite h v) h [] s u ∧ u.reg .statEna = v ∧
        Claims.Keeps [.statEna] s u ∧
        (∀ i, i < 32 → u.stat i =
          if v.getLsbD i = true then { s.stat i with startPend := (s.stat i).startPend || !s.bit .statEna i }
          else { s.stat i with run := false, startPend := false, pend := [] }) ∧
        u = { s with regs := u.regs, stats := u.stats })) ∧
    ∀ i, i < 32 → Admitted h (.regRead (Reg.statCnt i).addr) s →
      let l := (s.stat i).pub
      ∃ cs, Answers (.statCntRead h i) h (leBytes 4 (BitVec.ofNat 32 (l.trunc.toNat * 2 ^ 31 + l.n)).toNat) s { s with caps := cs } ∧
        ∀ (src : Src) (r : Reg) (w : W32), (({ s with caps := cs } : State)).captured src r w =
          if src = h.src then
            (([(Reg.statNex i, BitVec.ofNat 32 l.nex), (.statMinLo i, loWord l.min), (.statMinHi i, hiWord l.min),
               (.statMaxLo i, loWord l.max), (.statMaxHi i, hiWord l.max), (.statMeanLo i, loWord l.mean),
               (.statMeanHi i, hiWord l.mean), (.statVarLo i, loWord l.var), (.statVarHi i, hiWord l.var),
               (.statTlo i, BitVec.ofNat 32 l.time), (.statThi i, BitVec.ofNat 32 (l.time / 2 ^ 32)),
               (.statSeq i, BitVec.ofNat 32 l.seq)].find? fun x => x.1.addr == r.addr).map (·.2)).getD (s.captured src r w)
          else s.captured src r w

/-! ### Meld units (R204 to R226) -/

/-- Every register but IRQ_LOST keeps its word. -/
def Claims.KeepsButLost (s u : State) : Prop := ∀ q : Reg, decodeAddr q.addr = some q → (∀ t w, q ≠ .irqLost t w) → u.reg q = s.reg q
/-- What OUT_A (`k` = 0) or OUT_B (`k` = 1) of a unit that is no count unit leaves: the fabric's event, the event record while REC is 1, and
for OUT_A the count of the units that count it (R206, R207, R217). -/
def Claims.Fired (u k : Nat) (tm : Stamp) (s t : State) : Prop :=
  t.route = { s.route with pend := s.route.pend ++ [{ cc := 2 * u + k }] } ∧
  t.weir = { s.weir with mv0 := s.weir.mv0 ++ if s.bit (.meldCfg u) 29 = true then
    ((List.range 16).filter fun q => s.qOn q && s.qTakes q (s.fld (.meldCfg u) 5 0)).map fun q =>
      (q, eventUnit (0x1600 + 0x10 * u + k) tm) else [] } ∧
  (∀ c, c < 16 → c ≠ u → t.meld c = if k = 0 ∧ s.bit (.meldCfg c) 31 = true ∧ s.fld (.meldCfg c) 11 8 = 8 ∧ s.bit (.meldP1 c) 4 = true ∧
      s.fld (.meldP1 c) 3 0 = u then { s.meld c with outs := (s.meld c).outs ++ [tm] } else s.meld c) ∧
  t = { s with melds := t.melds, route := t.route, weir := t.weir }
/-- The configuration of a unit is not one that R209 lets EN be set on. -/
def Claims.unitBad (s : State) (u : Nat) : Prop :=
  let ty := s.fld (.meldCfg u) 11 8
  let q := s.fld (.meldCfg u) 25 22
  let src := s.fld (.meldCfg u) 5 0
  let a := pairVal (s.reg (.meldALo u)) (s.reg (.meldAHi u))
  let b := pairVal (s.reg (.meldBLo u)) (s.reg (.meldBHi u))
  9 ≤ ty ∨ 56 ≤ src ∨ 33 ≤ s.fld (.meldGate u) 5 0 ∨ ((ty = 2 ∨ ty = 7) ∧ b < a) ∨
  (ty = 3 ∧ (a < 0 ∨ s.fld (.meldP1 u) 11 0 < 2)) ∨
  (ty = 4 ∧ (a < 0 ∨ b < 0 ∨ s.fld (.meldP1 u) 23 0 = 0 ∨ 24 ≤ s.fld (.meldP2 u) 4 0)) ∨
  (ty = 5 ∧ (a < (s.reg (.meldP0 u)).toNat ∨ s.fld (.meldP1 u) 27 16 = 0)) ∨ ((ty = 6 ∨ ty = 7) ∧ s.fld (.meldP2 u) 15 0 = 0) ∨
  (ty = 7 ∧ s.reg (.meldP1 u) = 0) ∨ (ty = 8 ∧ s.reg (.meldP0 u) = 0) ∨
  (s.bit (.meldCfg u) 26 = true ∧ (ty ≠ 4 ∨ s.fld (.meldCfg q) 11 8 ≠ 3 ∨ s.fld (.meldCfg q) 5 0 ≠ src)) ∨
  ((ty = 3 ∨ ty = 4) ∧ s.bit (.meldCfg u) 30 = false ∧ src < 40 ∧ s.metroStream src = true)
/-- A pin's filter at a unit's gate takes `back` TCLK periods: FILT SYSCLK cycles, to within a TCLK period (R218). -/
def Claims.Filtered (s : State) (n : Nat) (back : Int) : Prop :=
  let filt : Int := s.fld (.meldGate n) 15 8
  (s.onPll = true → filt - 8 < 8 * back ∧ 8 * back < filt + 8) ∧
  (s.onPll = false → 512 * filt - 1000 < 1000 * back ∧ 1000 * back < 512 * filt + 1000)
/-- The level that a unit's gate has taken latest: that of the newest edge that waits for its slot, or of the last one processed. -/
def Claims.lastLevel (m : Meld) : Bool := (m.gateIn.getLast?.map (·.2)).getD m.gate
/-- GATE_EDGE (R44, R218, R219, R239): an edge from outside at the selected GP or EVT pin reaches an enabled unit and is stamped 2 TCLK periods and
the filter's delay back; at a pin that the hub drives only where the level at the ball is not the unit's already. An edge at an EVT pin
tells the level outside it in any case. Nothing happens where the gate is no pin, or its pins are isolated (log entry 161). -/
def Claims.GateEdgesReachUnits : Prop :=
  ∀ (n : Nat) (level : Bool) (s : State), n < 16 → s.fabricOn = true →
    let sel := s.fld (.meldGate n) 5 0
    let p := sel - 9
    let takes (u : State) (l : Bool) : Prop := ∃ back, Claims.Filtered s n back ∧ ∀ k, k < 16 →
      u.meld k = if k = n then { s.meld n with gateIn := (s.meld n).gateIn ++ [((s.clk.frc : Int) - 2 - back, l)] } else s.meld k
    let on := s.bit (.meldCfg n) 31
    let vio := s.bit .supStatus 2 = true
    (¬ vio ∨ sel = 0 ∨ 16 < sel → Leads (.gateEdge n level) s s) ∧
    (vio → 1 ≤ sel → sel ≤ 8 → (on = false → Leads (.gateEdge n level) s s) ∧
      (on = true → ∃ u, Leads (.gateEdge n level) s u ∧ takes u level ∧ u = { s with melds := u.melds })) ∧
    (vio → 9 ≤ sel → sel ≤ 16 → ∃ u, Leads (.gateEdge n level) s u ∧
      (∀ j, j < 8 → u.route.evtIn.getLsbD j = if j = p then level else s.route.evtIn.getLsbD j) ∧
      (on = false ∨ (s.bit (.routeEvt p) 31 = true ∧ u.evtBall p = Claims.lastLevel (s.meld n)) → u.melds = s.melds) ∧
      (on = true → s.bit (.routeEvt p) 31 = false ∨ u.evtBall p ≠ Claims.lastLevel (s.meld n) → takes u (u.evtBall p)) ∧
      u = { s with melds := u.melds, route := { s.route with evtIn := u.route.evtIn } })
/-- Levels that the hub itself gives (R218, R219, R232, R239): after every command and event from `old` to `s`, a unit whose gate is a gate
level, or an EVT pin in output mode, has its change stamped: a gate level 2 TCLK periods back, a driven pin within 1 TCLK period of the edge,
where a pulse shorter than the filter leaves no edge at all; the same where VIO_S is back. Other units take nothing. -/
def Claims.OwnLevelsReachUnits : Prop :=
  ∀ (n : Nat) (old s : State), n < 16 →
    let sel := s.fld (.meldGate n) 5 0
    let was := ({ old with route := { old.route with evtIn := s.route.evtIn } } : State).gateSignal n
    let now := s.gateSignal n
    let w := State.gateFollow old s
    let pin := 9 ≤ sel ∧ sel ≤ 16 ∧ s.bit .supStatus 2 = true ∧ s.bit (.routeEvt (sel - 9)) 31 = true
    let moves : Prop := old.bit (.meldCfg n) 31 = true ∧ s.bit (.meldCfg n) 31 = true ∧ (17 ≤ sel ∨ pin) ∧
      (now ≠ was ∨ (old.bit .supStatus 2 = false ∧ s.bit .supStatus 2 = true)) ∧ now ≠ Claims.lastLevel (s.meld n)
    (¬ moves → w.meld n = s.meld n) ∧
    (moves → 17 ≤ sel →
      w.meld n = { s.meld n with gateIn := (s.meld n).gateIn ++ [((s.clk.frc : Int) - 2, now)] }) ∧
    (moves → pin →
      (∃ k : Int, -1 ≤ k ∧ k ≤ 1 ∧ w.meld n = { s.meld n with gateIn := (s.meld n).gateIn ++ [((s.clk.frc : Int) + k, now)] }) ∨
      (∃ e back, (s.meld n).gateIn.getLast? = some e ∧ Claims.Filtered s n back ∧ s.clk.frc - e.1 < back ∧
        w.meld n = { s.meld n with gateIn := (s.meld n).gateIn.dropLast }))
/-- Commands of the Meld units (R209, R219, R221, R226): an enabled unit takes only EN and REC; setting EN is refused on a bad configuration and
clears the unit otherwise but for its sticky bits and the time of its last event, clearing it stops the unit at once; arms wait for the slot;
CLR clears the sticky bits; a read of RES_LO captures the result; edges from outside and changes of the hub's own levels reach units. -/
def Obligations.MeldUnitsAreSet : Prop :=
  Claims.GateEdgesReachUnits ∧ Claims.OwnLevelsReachUnits ∧
  ∀ (h : Hdr) (n : Nat) (s : State), n < 16 →
    (∀ v : W32, Accepted h (.meldCfg n) v s →
      let new := v &&& 0xffff0f3f
      let t := s.setReg (.meldCfg n) new
      let on := s.bit (.meldCfg n) 31
      let same : Prop := (s.reg (.meldCfg n) ^^^ new) &&& 0x5fffffff = 0
      (on = true → ¬ same → Refuses (.meldEnable h n v) h .stateConflict (Claims.clash s) s) ∧
      ((on = true ∧ same ∧ v.getLsbD 31 = true) ∨ (on = false ∧ v.getLsbD 31 = false) →
        Claims.Sets (.meldEnable h n v) h [] s [(.meldCfg n, new)]) ∧
      (on = true → same → v.getLsbD 31 = false → ∃ u, Answers (.meldEnable h n v) h [] s u ∧ u.reg (.meldCfg n) = new ∧
        Claims.Keeps [.meldCfg n] s u ∧ u = { s with regs := u.regs, melds := u.melds } ∧
        ∀ k, k < 16 → u.meld k = if k = n then
          { s.meld n with state := false, armed := false, buf := [], arms := [], outs := [], gateIn := [] } else s.meld k) ∧
      (on = false → v.getLsbD 31 = true →
        (Claims.unitBad t n → Refuses (.meldEnable h n v) h .badParam [] s) ∧
        (¬ Claims.unitBad t n → ∃ u, Answers (.meldEnable h n v) h [] s u ∧ u.reg (.meldCfg n) = new ∧ Claims.Keeps [.meldCfg n] s u ∧
          u = { s with regs := u.regs, melds := u.melds } ∧
          let m := s.meld n
          let fresh : Meld :=
            { gate := t.gateSignal n, rt := m.rt, staleS := m.staleS, noctxS := m.noctxS, ovrS := m.ovrS, limitS := m.limitS }
          ∀ k, k < 16 → u.meld k = if k = n then fresh else s.meld k))) ∧
    (∀ m, m < 65536 →
      (Accepted h .meldCtrl (BitVec.ofNat 32 m) s → ∃ ms, Answers (.meldArm h m) h [] s { s with melds := ms } ∧
        ∀ k, k < 16 → cellGet ms k {} = if m / 2 ^ k % 2 = 1 ∧ s.bit (.meldCfg k) 31 = true then
          { s.meld k with arms := (s.meld k).arms ++ [((s.clk.frc : Int), s.now)] } else s.meld k) ∧
      (Accepted h .meldCtrl (BitVec.ofNat 32 (m * 65536)) s → ∃ ms, Answers (.meldClr h m) h [] s { s with melds := ms } ∧
        ∀ k, k < 16 → cellGet ms k {} = if m / 2 ^ k % 2 = 1 then
          { s.meld k with staleS := false, noctxS := false, ovrS := false, limitS := false } else s.meld k)) ∧
    (Admitted h (.regRead (Reg.meldResLo n).addr) s →
      let m := s.meld n
      let st := m.rflg.toNat * 2 ^ 26 + m.reason * 2 ^ 23 + m.ctxs.length * 2 ^ 16 + m.staleS.toNat * 2 ^ 11 + m.noctxS.toNat * 2 ^ 10 +
        m.ovrS.toNat * 2 ^ 9 + m.limitS.toNat * 2 ^ 8 + m.atLimit.toNat * 4 + m.armed.toNat * 2 + m.state.toNat
      let ws : List (Reg × W32) := [(.meldResHi n, hiWord m.res), (.meldRcnt n, BitVec.ofNat 32 m.rcnt),
        (.meldRtLo n, BitVec.ofNat 32 m.rt), (.meldRtHi n, BitVec.ofNat 32 (m.rt / 2 ^ 32)), (.meldStatus n, BitVec.ofNat 32 st)]
      ∃ cs, Answers (.meldResRead h n) h (leBytes 4 (loWord m.res).toNat) s
          { s with caps := cs
                   proto := { s.proto with shadow := (s.proto.shadow.filter fun y => decide (y.1 ≠ h.src)) ++
                     [(h.src, (Reg.meldResHi n).addr, hiWord m.res)] } } ∧
        ∀ (src : Src) (r : Reg) (w : W32), (({ s with caps := cs } : State)).captured src r w =
          if src = h.src then ((ws.find? fun x => x.1.addr == r.addr).map (·.2)).getD (s.captured src r w) else s.captured src r w)

/-- The gate of a unit was closed at a time (R220): the level after its latest edge at or before it, newest first, closes it; a time before the
16th last edge is shut out; without such an edge the level before the oldest counts. -/
def Claims.Shut (s : State) (n : Nat) (t : Int) : Prop :=
  let m := s.meld n
  let inv := s.bit (.meldGate n) 7
  let before : Bool := match m.edges.getLast? with | some e => !e.2 | none => m.gate
  s.fld (.meldGate n) 5 0 ≠ 0 ∧
    match m.edges.find? fun e => decide (e.1 ≤ t) with
    | some e => e.2 = inv
    | none => 16 ≤ m.edges.length ∨ before = inv
/-- A record reaches the evaluation of a unit of types 1 to 6: one that works once only is armed, and the gate was open (R220, R221). -/
def Claims.Reaches1 (s : State) (n : Nat) (r : MIn) : Prop :=
  (s.bit (.meldCfg n) 28 = true → (s.meld n).armed = true) ∧ ¬ Claims.Shut s n r.frc
/-- A slot of unit `n` with one record and nothing else before it. -/
def Claims.OneRecord (s : State) (n : Nat) (r : MIn) : Prop :=
  n < 16 ∧ s.fabricOn = true ∧ s.bit (.meldCfg n) 31 = true ∧ (s.meld n).arms = [] ∧ (s.meld n).gateIn = [] ∧ (s.meld n).buf = [r]
/-- A record's flags share a bit with EXCL of the unit (R205). -/
def Claims.Excluded (s : State) (n : Nat) (r : MIn) : Prop := r.flags &&& BitVec.ofNat 6 (s.fld (.meldCfg n) 21 16) ≠ 0
/-- What a slot leaves of a unit's inputs (R204, R222). -/
def Claims.slotted (m : Meld) : Meld := { m with buf := [], outs := [] }
/-- A slot changed nothing but its own unit. -/
def Claims.Quiet (n : Nat) (s u : State) : Prop := (∀ k, k < 16 → k ≠ n → u.meld k = s.meld k) ∧ u = { s with melds := u.melds }
/-- Event codes that unit `n` writes where `now`, in their order (R207). -/
def Claims.coded (s : State) (n : Nat) (tm : Stamp) (ks : List Nat) : List (Nat × RUnit) :=
  ks.flatMap fun k => ((List.range 16).filter fun q => s.qOn q && s.qTakes q (s.fld (.meldCfg n) 5 0)).map fun q =>
    (q, eventUnit (0x1600 + 0x10 * n + k) tm)
/-- OUT_B of unit `n` and its codes `ks`, where REC is 1 (R206, R207). -/
def Claims.EndsWith (n : Nat) (tm : Stamp) (ks : List Nat) (s t : State) : Prop :=
  t.route = { s.route with pend := s.route.pend ++ [{ cc := 2 * n + 1 }] } ∧
  t.weir = { s.weir with mv0 := s.weir.mv0 ++ if s.bit (.meldCfg n) 29 = true then Claims.coded s n tm ks else [] } ∧
  (∀ c, c < 16 → c ≠ n → t.meld c = s.meld c) ∧ t = { s with melds := t.melds, route := t.route, weir := t.weir }
/-- Records that a unit of types 1 to 6 does not evaluate (R205, R211, R212, R220, R221): a record that its gate shut out, or that comes while a
one-shot unit is not armed, is skipped; an excluded one ends a run, empties the lag of a rate unit and the set of a stability unit, whose state
falls (MELD_RES of the empty set: log entry 162); a rate unit gives nothing before M earlier records. -/
def Claims.RecordsAreSkipped : Prop :=
  ∀ (n : Nat) (s : State) (r : MIn), Claims.OneRecord s n r →
    let m := s.meld n
    let ty := s.fld (.meldCfg n) 11 8
    let leaves (w : Meld) : Prop := ∃ u, Leads (.meldSlot n) s u ∧ u.meld n = { w with hist := (u.meld n).hist } ∧
      (ty ≠ 3 → u.meld n = w) ∧ Claims.Quiet n s u
    let d := Claims.slotted m
    (1 ≤ ty → ty ≤ 6 → ty ≠ 4 → ¬ Claims.Reaches1 s n r → leaves d) ∧
    (Claims.Reaches1 s n r → Claims.Excluded s n r →
      (ty = 1 ∨ ty = 2 → leaves { d with run := [] }) ∧ (ty = 5 → leaves { d with lag := [], run := [] }) ∧
      (ty = 6 → m.state = false → leaves { d with run := [] }) ∧
      (ty = 3 → m.state = false → leaves { d with lag := [], res := 0, rcnt := 0 }) ∧
      (ty = 3 → m.state = true → ∃ u, Leads (.meldSlot n) s u ∧ Claims.EndsWith n r.tm [1] s u ∧
        u.meld n = { d with lag := [], res := 0, rcnt := 0, state := false, rt := r.tm.t, hist := (u.meld n).hist })) ∧
    (Claims.Reaches1 s n r → ¬ Claims.Excluded s n r → ty = 5 → m.lag.length < s.fld (.meldP1 n) 27 16 →
      leaves { d with lag := (r.val :: m.lag).take (s.fld (.meldP1 n) 27 16) })
/-- A passage of an axle unit that ends (R207, R215). -/
def Claims.PassageEnds (n : Nat) (atMax needOff : Bool) (m : Meld) (s u : State) : Prop :=
  let few : Prop := m.axN < s.fld (.meldP2 n) 15 0
  u.meld n = { m with state := false, run := [], needOff := needOff, res := (sat36 (divRound m.axSum m.axN)).1, rcnt := m.axN
                      rflg := m.axFlags, axN := 0, axSum := 0, axFlags := 0, rt := m.axT.t } ∧
  (few → Claims.EndsWith n m.axT (if atMax = true then [1, 4, 5] else [1, 4]) s u) ∧
  (¬ few → Claims.EndsWith n m.axT (if atMax = true then [1, 5] else [1]) s u)
/-- The axle unit (R215): N "on" records in a row start a passage with the time of the first, once an "off" record has come since a passage that
ended at MAX or at an excluded record; a passage takes every further record, those of an end run that breaks off among them; it ends with
the record before a whole end run, with its MAX-th record, or at an excluded record with the last before it. -/
def Claims.AxlesPass : Prop :=
  ∀ (n : Nat) (s : State) (r : MIn), Claims.OneRecord s n r → s.fld (.meldCfg n) 11 8 = 6 → Claims.Reaches1 s n r →
    let m := s.meld n
    let d := Claims.slotted m
    let a := pairVal (s.reg (.meldALo n)) (s.reg (.meldAHi n))
    let off : Prop := r.val < a - (s.reg (.meldP0 n)).toNat
    let need := max 1 (s.fld (.meldP1 n) 15 0)
    let mx := s.fld (.meldP2 n) 31 16
    let joined (w : Meld) (rs : List MIn) : Meld :=
      { w with axN := w.axN + rs.length, axSum := w.axSum + (rs.map (·.val)).sum, axFlags := rs.foldl (fun f x => f ||| x.flags) w.axFlags
               axT := ((rs.getLast?.map (·.tm)).getD w.axT) }
    (m.state = false → ¬ Claims.Excluded s n r → ∀ barred : Bool, (barred = true ↔ m.needOff = true ∧ ¬ off) →
      let run := if a ≤ r.val ∧ barred = false then r :: m.run else []
      (run.length < need → ∃ u, Leads (.meldSlot n) s u ∧ u.meld n = { d with needOff := barred, run := run } ∧ Claims.Quiet n s u) ∧
      (need ≤ run.length → mx = 0 ∨ run.length < mx → ∃ u, Leads (.meldSlot n) s u ∧
        u.meld n = joined { d with needOff := barred, run := [], state := true, axN := 0, axSum := 0, axFlags := 0, armed := false
                                   rt := (run.getLastD r).tm.t } run.reverse ∧
        Claims.Fired n 0 (run.getLastD r).tm s u)) ∧
    (m.state = true → ¬ Claims.Excluded s n r →
      (off → m.run.length + 1 < need → ∃ u, Leads (.meldSlot n) s u ∧ u.meld n = { d with run := r :: m.run } ∧ Claims.Quiet n s u) ∧
      (off → need ≤ m.run.length + 1 → ∃ u, Leads (.meldSlot n) s u ∧ Claims.PassageEnds n false false d s u) ∧
      (¬ off →
        let w := joined { d with run := [] } (r :: m.run).reverse
        (mx = 0 ∨ w.axN < mx → ∃ u, Leads (.meldSlot n) s u ∧ u.meld n = w ∧ Claims.Quiet n s u) ∧
        (mx ≠ 0 → w.axN = mx → ∃ u, Leads (.meldSlot n) s u ∧ Claims.PassageEnds n true true w s u))) ∧
    (m.state = true → Claims.Excluded s n r →
      let w := joined { d with run := [] } m.run.reverse
      mx = 0 ∨ w.axN < mx → ∃ u, Leads (.meldSlot n) s u ∧ Claims.PassageEnds n false true w s u)
/-- Gate edges of decision and count units (R216, R217, R219), from a gate level, where an edge needs no filter: an opening edge releases the
oldest context that is not released, which answers if it is decided; with none, OUT_B fires with NOCTX. A context that is older than TRV
is stale, and is dropped by the next slot. An opening edge of a gated count unit is its input. A closing edge only moves the gate. -/
def Claims.EdgesRelease : Prop :=
  ∀ (n : Nat) (s : State), n < 16 → s.fabricOn = true → s.bit (.meldCfg n) 31 = true → (s.meld n).arms = [] → (s.meld n).buf = [] →
    (s.meld n).outs = [] →
    let m := s.meld n
    let ty := s.fld (.meldCfg n) 11 8
    let i : Instr := .meldSlot n
    let noted (t : State) (ks : List (Nat × Stamp)) (u : State) : Prop :=
      u = { t with melds := u.melds, weir := { s.weir with mv0 := s.weir.mv0 ++ ks.flatMap fun k => Claims.coded s n k.2 [k.1] } } ∧
      ∀ k, k < 16 → k ≠ n → u.meld k = s.meld k
    (∀ e : Int × Bool, m.gateIn = [e] → 17 ≤ s.fld (.meldGate n) 5 0 →
      let d : Meld := { m with gateIn := [], gate := e.2, edges := (e :: m.edges).take 16 }
      let opens : Prop := e.2 ≠ s.bit (.meldGate n) 7
      (¬ opens → ty ≠ 7 → ∃ u, Leads i s u ∧ u.meld n = d ∧ Claims.Quiet n s u) ∧
      (opens → ty ≠ 7 → ty ≠ 8 → ∃ u, Leads i s u ∧ u.meld n = d ∧ Claims.Quiet n s u) ∧
      (opens → ty = 8 → s.bit (.meldP1 n) 4 = true → ∃ u, Leads i s u ∧ u.meld n = d ∧ Claims.Quiet n s u) ∧
      (opens → ty = 8 → s.bit (.meldP1 n) 4 = false → m.count + 1 < (s.reg (.meldP0 n)).toNat →
        ∃ u, Leads i s u ∧ u.meld n = { d with count := m.count + 1, rcnt := m.count + 1 } ∧ Claims.Quiet n s u) ∧
      (opens → ty = 7 → s.reg (.meldP3 n) = 0 → (∀ c ∈ m.ctxs, c.released = true) → ∃ u, Leads i s u ∧
        u.meld n = { d with reason := 5, noctxS := true, rt := s.now.t } ∧
        noted (State.irqFire { s with route := { s.route with pend := s.route.pend ++ [{ cc := 2 * n + 1 }] } } 6)
          ((if s.bit (.meldCfg n) 29 = true then [(1, s.now)] else []) ++ [(7, s.now)]) u) ∧
      (opens → ty = 7 → s.reg (.meldP3 n) = 0 → ∀ c, m.ctxs = [c] → c.released = false →
        (c.decided = none → ∃ u, Leads i s u ∧ u.meld n = { d with ctxs := [{ c with released := true }] } ∧ Claims.Quiet n s u) ∧
        (∀ why, c.decided = some why → 1 ≤ c.n → ∃ u, Leads i s u ∧
          u.meld n = { d with ctxs := [], res := c.mean, rcnt := c.n, reason := why, rflg := c.flags, rt := c.tm.t
                              armed := m.armed && decide (why ≠ 0) } ∧
          Claims.Fired n (if why = 0 then 0 else 1) c.tm { s with freeCtr := s.freeCtr + 1 } u))) ∧
    (m.gateIn = [] → ty = 7 → ∀ c, m.ctxs = [c] → c.released = false → s.reg (.meldP3 n) ≠ 0 →
      (c.ts + (s.reg (.meldP3 n)).toNat < s.clk.frc → ∃ u, Leads i s u ∧ u.meld n = { m with ctxs := [], staleS := true, rt := s.now.t } ∧
        noted (s.irqFire 6) [(8, s.now)] u) ∧
      (s.clk.frc ≤ c.ts + (s.reg (.meldP3 n)).toNat → ∃ u, Leads i s u ∧ u.meld n = m ∧ Claims.Quiet n s u))
/-- Evaluation (R206, R211, R213, R212, R214, R216, R217, R221, R222): a slot of an enabled unit takes its arms, its gate edges and up to 4 records,
and changes nothing but units, events and IRQ_LOST. A threshold, window or rate unit rises and falls at the Nth consecutive record, with
the time of the first, a stability unit where its set is whole and its spread at most A; a count unit counts OUT_A of the unit it names; an arm
opens a context of a decision unit, or is lost to an overrun of its eight; a context is decided by the first record past its window and, once
released, answers. A zero-tracking period
is judged once its records are in, at the latest at the second tick boundary after its end; a qualifying one corrects AZT within AZT_LIM, from
the second tick boundary on. Records that are excluded, shut out or come too early; axle passages; releases, and stale contexts. -/
def Obligations.MeldUnitsEvaluate : Prop :=
  Claims.RecordsAreSkipped ∧ Claims.AxlesPass ∧ Claims.EdgesRelease ∧ ∀ (n : Nat) (s : State), n < 16 → s.fabricOn = true →
    let m := s.meld n
    let on := s.bit (.meldCfg n) 31
    let ty := s.fld (.meldCfg n) 11 8
    let a := pairVal (s.reg (.meldALo n)) (s.reg (.meldAHi n))
    let b := pairVal (s.reg (.meldBLo n)) (s.reg (.meldBHi n))
    let hys : Int := (s.reg (.meldP0 n)).toNat
    let lagN := s.fld (.meldP1 n) 27 16
    let done : Meld := { m with buf := [], outs := [] }
    let idle (u : State) : Prop := (∀ k, k < 16 → k ≠ n → u.meld k = s.meld k) ∧ u = { s with melds := u.melds }
    (on = false → Leads (.meldSlot n) s s ∧ Leads (.ztPeriodEnd n) s s ∧ Leads (.aztApply n) s s) ∧
    (on = true → ∃ u, Leads (.meldSlot n) s u ∧ (u.meld n).buf = m.buf.drop 4 ∧ (u.meld n).arms = [] ∧
      (∃ back, Claims.Filtered s n back ∧ (u.meld n).gateIn =
        m.gateIn.dropWhile fun e => decide (16 < s.fld (.meldGate n) 5 0) || decide (e.1 + back ≤ s.clk.frc)) ∧
      (∀ k, k < 16 → k ≠ n → u.meld k = { s.meld k with outs := (u.meld k).outs }) ∧ Claims.KeepsButLost s u ∧
      u = { s with regs := u.regs, melds := u.melds, irq := u.irq, weir := { s.weir with mv0 := u.weir.mv0 }
                   route := { s.route with pend := u.route.pend }, freeCtr := u.freeCtr }) ∧
    (∀ r : MIn, on = true → ty = 1 ∨ ty = 2 ∨ (ty = 5 ∧ lagN ≤ m.lag.length) → Claims.OneRecord s n r → Claims.Reaches1 s n r →
      ¬ Claims.Excluded s n r →
      let res := if ty = 5 then r.val - m.lag.getD (lagN - 1) 0 else r.val
      let x := if ty = 5 then |res| else res
      let below := ty = 1 ∧ s.bit (.meldCfg n) 27 = true
      let inside : Prop := if ty = 2 then a ≤ x ∧ x ≤ b else if below then x ≤ a else a ≤ x
      let outside : Prop := if ty = 2 then x < a - hys ∨ b + hys < x else if below then a + hys < x else x < a - hys
      let done : Meld := if ty = 5 then { done with lag := (r.val :: m.lag).take lagN } else done
      let goes : Prop := if m.state = true then outside else inside
      let tm := ((r :: m.run).getLastD r).tm
      (¬ goes → ∃ u, Leads (.meldSlot n) s u ∧ u.meld n = { done with res := res, run := [] } ∧ idle u) ∧
      (goes → (r :: m.run).length < max 1 (s.fld (.meldP1 n) 15 0) →
        ∃ u, Leads (.meldSlot n) s u ∧ u.meld n = { done with res := res, run := r :: m.run } ∧ idle u) ∧
      (goes → max 1 (s.fld (.meldP1 n) 15 0) ≤ (r :: m.run).length → ∃ u, Leads (.meldSlot n) s u ∧
        u.meld n = { done with res := res, run := [], rt := tm.t, state := !m.state, armed := m.armed && m.state } ∧
        Claims.Fired n (if m.state = true then 1 else 0) tm s u)) ∧
    (∀ r : MIn, on = true → ty = 3 → Claims.OneRecord s n r → Claims.Reaches1 s n r → ¬ Claims.Excluded s n r →
      let w := s.fld (.meldP1 n) 11 0
      let set := (r.val :: m.lag).take w
      let spread := set.foldl max r.val - set.foldl min r.val
      let up : Bool := decide (w ≤ set.length ∧ spread ≤ a)
      ∃ u, Leads (.meldSlot n) s u ∧
        u.meld n = { done with lag := set, res := spread, rcnt := set.length, state := up, hist := (u.meld n).hist
                               rt := if up = m.state then m.rt else r.tm.t, armed := m.armed && !(up && !m.state) } ∧
        (up = m.state → idle u) ∧ (up ≠ m.state → Claims.Fired n (if up = true then 0 else 1) r.tm s u)) ∧
    (∀ (r : MIn) (c : Ctx), on = true → ty = 7 → s.reg (.meldP3 n) = 0 → m.arms = [] → m.gateIn = [] → m.buf = [r] → m.ctxs = [c] →
      c.decided = none → c.ts + (s.reg (.meldP0 n)).toNat + (s.reg (.meldP1 n)).toNat < r.frc → 1 ≤ c.n →
      let mean := (sat36 (divRound c.sum c.n)).1
      let why := if c.flagged = true then 4 else if c.few = true ∨ c.n < s.fld (.meldP2 n) 15 0 then 3 else if mean < a then 1
        else if b < mean then 2 else 0
      (c.released = false → ∃ u, Leads (.meldSlot n) s u ∧ u.meld n = { done with ctxs := [{ c with decided := some why, mean := mean }] } ∧
        idle u) ∧
      (c.released = true → ∃ u, Leads (.meldSlot n) s u ∧
        u.meld n = { done with ctxs := [], res := mean, rcnt := c.n, reason := why, rflg := c.flags, rt := c.tm.t
                               armed := m.armed && decide (why ≠ 0) } ∧
        Claims.Fired n (if why = 0 then 0 else 1) c.tm { s with freeCtr := s.freeCtr + 1 } u)) ∧
    (∀ tm : Stamp, on = true → ty = 8 → s.bit (.meldP1 n) 4 = true → s.fld (.meldP1 n) 3 0 ≠ n → m.arms = [] → m.gateIn = [] → m.buf = [] →
      m.outs = [tm] →
      (m.count + 1 < (s.reg (.meldP0 n)).toNat →
        ∃ u, Leads (.meldSlot n) s u ∧ u.meld n = { done with count := m.count + 1, rcnt := m.count + 1 } ∧ idle u) ∧
      ((s.reg (.meldP0 n)).toNat ≤ m.count + 1 → ∃ u, Leads (.meldSlot n) s u ∧
        u.meld n = { done with count := 0, rcnt := 0, rt := tm.t, armed := false } ∧
        u.route = { s.route with pend := s.route.pend ++ [{ cc := 2 * n }] } ∧
        (∀ k, k < 16 → k ≠ n → u.meld k = { s.meld k with outs := (u.meld k).outs }) ∧
        u = { s with melds := u.melds, route := u.route, weir := { s.weir with mv0 := u.weir.mv0 } })) ∧
    (∀ e : Int × Stamp, on = true → m.arms = [e] → m.gateIn = [] → m.buf = [] → m.outs = [] →
      (ty = 7 → m.ctxs.length < 8 → s.reg (.meldP3 n) = 0 → ∃ u, Leads (.meldSlot n) s u ∧
        u.meld n = { m with arms := [], ctxs := m.ctxs ++ [{ ts := e.1, tm := e.2 }] } ∧ idle u) ∧
      (ty = 7 → 8 ≤ m.ctxs.length → s.reg (.meldP3 n) = 0 → ∃ u, Leads (.meldSlot n) s u ∧
        u.meld n = { m with arms := [], reason := 6, ovrS := true, rt := s.now.t } ∧ (∀ k, k < 16 → k ≠ n → u.meld k = s.meld k) ∧
        u.weir.mv0 = s.weir.mv0 ++ ((List.range 16).filter fun q => s.qOn q && s.qTakes q (s.fld (.meldCfg n) 5 0)).map (fun q =>
          (q, eventUnit (0x1606 + 0x10 * n) s.now)) ∧
        u.irq = (s.irqFire 6).irq ∧ u = { s.irqFire 6 with melds := u.melds, weir := { s.weir with mv0 := u.weir.mv0 } }) ∧
      (ty = 8 → ∃ u, Leads (.meldSlot n) s u ∧ u.meld n = { m with arms := [], count := 0, rcnt := 0 } ∧ idle u) ∧
      (ty ≠ 7 → ty ≠ 8 → ∃ u, Leads (.meldSlot n) s u ∧ u.meld n = { m with arms := [], armed := m.armed || s.bit (.meldCfg n) 28 } ∧ idle u)) ∧
    (on = true → ty ≠ 4 → Leads (.ztPeriodEnd n) s s ∧ Leads (.aztApply n) s s) ∧
    (on = true → ty = 4 →
      let tgt := s.fld (.meldP2 n) 4 0
      let lim : Int := s.fld (.sclCfg tgt) 31 8 * 128
      let azt := pairVal (s.reg (.sclAztLo tgt)) (s.reg (.sclAztHi tgt))
      ((∀ p rest, m.zt = p :: rest → p.til = none) → Leads (.ztPeriodEnd n) s s) ∧
      (∀ p rest e, m.zt = p :: rest → p.til = some e →
        let good : Prop := p.ok = true ∧ 1 ≤ p.n ∧
          ∀ k ∈ p.ask, ((s.meld (s.fld (.meldCfg n) 25 22)).hist.find? fun x => x.1 == k && x.2).isSome = true
        let mean := (sat36 (divRound p.sum p.n)).1
        let d := (max (-b) (min b mean) * (s.reg (.meldP0 n)).toInt + 2 ^ 27) / 2 ^ 28
        let old := azt + (m.corr.map (·.2)).sum
        let new := max (-lim) (min lim (old + d))
        (s.ztWaits n e = true → p.age < 2 → Leads (.ztPeriodEnd n) s s) ∧
        (s.ztWaits n e = false ∨ 2 ≤ p.age → ∃ u, Leads (.ztPeriodEnd n) s u ∧ (u.meld n).zt = rest ∧
          ((u.meld n).state = true ↔ good) ∧ Claims.KeepsButLost s u ∧
          (¬ good → (u.meld n).corr = m.corr ∧ (u.meld n).res = m.res ∧ (u.meld n).atLimit = m.atLimit) ∧
          (good → m.atLimit = true ∧ d ≠ 0 ∧ 0 ≤ old * d →
            (u.meld n).corr = m.corr ∧ (u.meld n).res = d ∧ (u.meld n).atLimit = true) ∧
          (good → m.atLimit = false ∨ d = 0 ∨ old * d < 0 →
            (u.meld n).corr = m.corr ++ [(p.age, new - old)] ∧ (u.meld n).res = d ∧
            ((u.meld n).atLimit = true ↔ new ≠ old + d ∨ (m.atLimit = true ∧ d = 0)) ∧ (new ≠ old + d → (u.meld n).limitS = true)) ∧
          (∀ k, k < 16 → k ≠ n → u.meld k = { s.meld k with outs := (u.meld k).outs }) ∧
          u = { s with regs := u.regs, melds := u.melds, irq := u.irq, weir := { s.weir with mv0 := u.weir.mv0 }
                       route := { s.route with pend := u.route.pend } })) ∧
      ((∀ c rest, m.corr = c :: rest → c.1 < 2) → Leads (.aztApply n) s s) ∧
      (∀ c rest, m.corr = c :: rest → 2 ≤ c.1 → ∃ u, Leads (.aztApply n) s u ∧ (u.meld n) = { m with corr := rest } ∧
        (∀ k, k < 16 → k ≠ n → u.meld k = s.meld k) ∧
        pairVal (u.reg (.sclAztLo tgt)) (u.reg (.sclAztHi tgt)) = max (-lim) (min lim (azt + c.2)) ∧
        Claims.Keeps [.sclAztLo tgt, .sclAztHi tgt] s u ∧
        u.eng.jobs = s.eng.jobs.map (fun j =>
          if j.source = tgt ∧ j.b < s.eng.tickAt ∧ j.azt = none then { j with azt := some azt } else j) ∧
        u = { s with regs := u.regs, melds := u.melds, eng := { s.eng with jobs := u.eng.jobs } }))

/-! ### Routing and interrupts (R227 to R255) -/

/-- An event meets conditions 1 and 2 of R230 in `s`: its channel's Hand is enabled, or the channel needs none (R235), and its gate is open. -/
def Claims.Passes (s : State) (cc : Nat) : Prop :=
  (s.bit (.routeCh cc) 31 = true ∨ (s.bit (.routeCh cc) 30 = true ∧ s.sl.sealed = true) ∨
    s.bit .routeHand (s.fld (.routeCh cc) 26 24) = true) ∧
  (s.bit (.routeCh cc) 23 = true → s.gateLevel (s.fld (.routeCh cc) 19 16) ≠ s.bit (.routeCh cc) 22)
/-- The events that a command or event brings to their channels are judged by the Hands, the gates and the BUDGET at the start of their cycle,
at the time at hand: those of its own cycle by the values before it; those of the cycle of an MCLK edge by the values before what moved the
time to that edge; those of the cycle after one once the time has gone on. An event judged once keeps its judgement (R229, R230, R232, R234;
log entry 132). -/
def Claims.EventsAreJudged : Prop :=
  ∀ (old s : State), ∃ (l : List REvent) (edge : List (Bool × Nat)),
    State.judge old s = { s with route := { s.route with pend := l, edge := edge } } ∧ l.length = s.route.pend.length ∧
    (s.clk.mclk ≤ old.clk.mclk → edge = s.route.edge) ∧
    (old.clk.mclk < s.clk.mclk → edge.length = 3 ∧ ∀ j, j < 3 → ∃ p : Bool, (p = true ↔ Claims.Passes old (44 + j)) ∧
      edge[j]? = some (p, old.fld (.routeCh (44 + j)) 15 8)) ∧
    ∀ (k : Nat) (e : REvent), s.route.pend[k]? = some e → (e.seen.isSome = true → l[k]? = some e) ∧
      (e.seen = none → ∃ p : Bool, (p = true ↔ Claims.Passes old e.cc) ∧
        let judged : Prop := l[k]? = some { e with seen := some (p, old.fld (.routeCh e.cc) 15 8, s.now) }
        (e.cycle = .now → judged) ∧
        (e.cycle = .edge → 44 ≤ e.cc → (edge[e.cc - 44]? = none → judged) ∧
          ∀ x, edge[e.cc - 44]? = some x → l[k]? = some { e with seen := some (x.1, x.2, s.now) }) ∧
        ∀ f, e.cycle = .after f → (s.clk.frc = f → l[k]? = some e) ∧ (s.clk.frc ≠ f → judged))
/-- Consumer `c` is busy (R236). -/
def Claims.Busy (s : State) (c : Nat) : Prop :=
  (c < 8 ∧ ∃ x ∈ s.syncs, x.1 = c ∧ x.2.1 = true) ∨
  (∃ k, k < 4 ∧ ((c = 8 + k ∧ s.route.startBusy.getLsbD k = true) ∨ (c = 12 + k ∧ s.route.stopBusy.getLsbD k = true))) ∨
  (∃ q, q < 16 ∧ c = 16 + q ∧ (s.queue q).closePend = true) ∨
  (∃ d, d < 8 ∧ c = 48 + d ∧ (s.det d).pend.any (·.2) = true) ∨
  (c = 56 ∧ s.clk.mclk < s.route.statEdge) ∨
  (∃ r, r < 4 ∧ c = 60 + r ∧ s.remoteBusy r = true) ∨
  (∃ k, k < 16 ∧ c = 64 + k ∧ 4 ≤ (s.meld k).arms.length) ∨
  (∃ p, p < 8 ∧ c = 80 + p ∧ (s.route.evtRun.getLsbD p = true ∨ s.bit (.routeEvt p) 31 = false))
/-- A request of the routing fabric joins those that wait for their edge (R197, R200, R236). -/
def Claims.joinedBy (s : State) (l : List (Nat × Bool)) : List (Nat × Bool) :=
  if l.any (fun p => p.1 == s.clk.mclk + 1) then l.map fun p => if p.1 = s.clk.mclk + 1 then (p.1, true) else p
  else l ++ [(s.clk.mclk + 1, true)]
/-- A firing of one channel (R227, R230, R232, R234 to R239): an event that its Hand or gate stops is discarded; one above BUDGET is suppressed,
marked, raises source 8 and writes its event once in a tick; otherwise the count rises and the one enabled consumer takes it. A busy
consumer marks OVERRUN and raises source 7; every other acts: sync, routed start and stop, close, mark, detector reset, statistics latch,
output hold, remote message, arm, EVT pin, routing event interrupt, Hand, gate latch; consumer 57 has no action. -/
def Claims.ChannelsFire : Prop :=
  ∀ (e : REvent) (rest : List REvent) (err : MemErr) (s : State), e.cc < 64 → s.fabricOn = true → s.route.pend = e :: rest →
    let cc := e.cc
    let i : Instr := .routeFiring 1 err
    let w : State := { s with route := { s.route with pend := rest } }
    let pass : Prop := (∃ x, e.seen = some x ∧ x.1 = true) ∨ (e.seen = none ∧ Claims.Passes s cc)
    let budget := (e.seen.map (·.2.1)).getD (s.fld (.routeCh cc) 15 8)
    let n := s.fld (.routeStat cc) 7 0
    let fires := pass ∧ n < budget
    let count : Reg × W32 := (.routeStat cc, putBits (s.reg (.routeStat cc)) 7 0 (n + 1))
    let told := if s.route.said.contains cc = true then [] else
      s.queuesAll.map fun q => (q, eventUnit (0x1700 + cc) ((e.seen.map (·.2.2)).getD s.now))
    let late (c : Nat) : Prop :=
      ∃ u, Leads i s u ∧ u.bit (.routeCstat c) 16 = true ∧ (∀ q : Reg, decodeAddr q.addr = some q →
        (∀ t w, q ≠ .irqLost t w) → q ≠ .routeCstat c → u.reg q = ([count].lookup q).getD (s.reg q)) ∧
        u.irq = (w.irqFire 7).irq ∧ u = { w with regs := u.regs, irq := u.irq }
    let acts (g : State → State) : Prop := ∃ x, Leads i s (g x) ∧ x = { w with regs := x.regs } ∧
      ∀ q : Reg, decodeAddr q.addr = some q → x.reg q = ([count].lookup q).getD (s.reg q)
    (¬ pass → Leads i s w) ∧
    (pass → budget ≤ n → ∃ u, Leads i s u ∧ u.bit (.routeStat cc) 16 = true ∧
      u.fld (.routeStat cc) 15 0 = s.fld (.routeStat cc) 15 0 ∧ u.irq = (w.irqFire 8).irq ∧
      u.bit (if cc < 32 then .routeBudg0 else .routeBudg1) (cc % 32) = true ∧
      (∀ q : Reg, decodeAddr q.addr = some q → (∀ t w, q ≠ .irqLost t w) → q ≠ .routeStat cc → q ≠ .routeBudg0 → q ≠ .routeBudg1 →
        u.reg q = s.reg q) ∧
      u.route = { w.route with said := if s.route.said.contains cc = true then s.route.said else cc :: s.route.said } ∧
      u.weir = { s.weir with mv0 := s.weir.mv0 ++ told } ∧
      u = { s with regs := u.regs, irq := u.irq, route := u.route, weir := u.weir }) ∧
    (fires → s.targets cc = [] → Claims.LeadsTo i s w [count]) ∧
    ∀ c, fires → s.targets cc = [c] → (Claims.Busy s c → late c) ∧ (¬ Claims.Busy s c →
      (∀ g, g < 8 → c = g →
        acts fun x => if s.bit (.sluSgrp g) 1 = true then { x with syncs := s.syncs ++ [(g, true, s.clk.mclk + 1)] } else x) ∧
      (∀ k, k < 4 → c = 8 + k →
        let named := chainMask fun n => s.fld (.routeSet k) 23 0 / 2 ^ n % 2 == 1 && decide ((s.ch n).st = .idle)
        ∃ x : State, x = { w with regs := x.regs } ∧
          (∀ q : Reg, decodeAddr q.addr = some q → x.reg q = ([count].lookup q).getD (s.reg q)) ∧
          let legal := s.proto.dev = .config ∨ s.proto.dev = .run
          let told := [(Reg.routeCstat c, putBits (s.reg (.routeCstat c)) 17 17 1)]
          (¬ legal → Claims.LeadsTo i s x told) ∧
          (legal → (x.startRefusal named).isSome = true → Claims.LeadsTo i s (x.memErr err) told) ∧
          (legal → x.startRefusal named = none →
            let t := (x.startAll named).memErr err
            ∃ b, Leads i s { t with route := { t.route with startBusy := b } } ∧
              ∀ j, j < 4 → b.getLsbD j = (t.route.startBusy.getLsbD j || decide (j = k)))) ∧
      (∀ k, k < 4 → c = 12 + k →
        ∃ b, (∀ j, j < 4 → b.getLsbD j = (s.route.stopBusy.getLsbD j || decide (j = k))) ∧
          acts fun x =>
            let t := x.stopAll (chainMask fun n => s.fld (.routeSet k) 23 0 / 2 ^ n % 2 == 1 && decide ((s.ch n).st ≠ .idle))
            { t with route := { t.route with stopBusy := b } }) ∧
      (∀ q, q < 16 → c = 16 + q → acts fun x => x.closeReq q) ∧
      (∀ q, q < 16 → c = 32 + q → ∃ qs, (acts fun x => { x with queues := qs }) ∧ ∀ j, j < 16 → cellGet qs j {} = if j = q then
          { s.queue q with m := ((s.queue q).pkt.map (·.slot)).getD (s.queue q).w, markValid := true } else s.queue j) ∧
      (∀ d, d < 8 → c = 48 + d → ∃ ds, (acts fun x => { x with dets := ds }) ∧ ∀ j, j < 8 → cellGet ds j {} =
          if j = d then { s.det d with pend := Claims.joinedBy s (s.det d).pend } else s.det j) ∧
      (c = 56 → ∃ ss, (acts fun x => { x with stats := ss, route := { x.route with statEdge := s.clk.mclk + 1 } }) ∧
          ∀ j, j < 32 → cellGet ss j {} = if (s.stat j).run = true ∧ s.bit (.statCfg j) 8 = true then
            { s.stat j with pend := Claims.joinedBy s (s.stat j).pend } else s.stat j) ∧
      (c = 57 → acts id) ∧
      (∀ k, k < 2 → c = 58 + k → acts fun x => x.beoEvent k) ∧
      (∀ r, r < 4 → c = 60 + r → acts fun x => x.remoteSend r) ∧
      (∀ j, j < 8 → c = 88 + j → ∃ u, Leads i s u ∧ u.irq = (w.irqFire (96 + j)).irq ∧
        (∀ q : Reg, decodeAddr q.addr = some q → (∀ t w, q ≠ .irqLost t w) → u.reg q = ([count].lookup q).getD (s.reg q)) ∧
        u = { w with regs := u.regs, irq := u.irq }) ∧
      (∀ j, j < 8 → c = 96 + j → Claims.LeadsTo i s w [count, (.routeHand, putBits (s.reg .routeHand) j j 1)]) ∧
      (∀ j, j < 8 → c = 104 + j → Claims.LeadsTo i s w [count, (.routeHand, putBits (s.reg .routeHand) j j 0)]) ∧
      (∀ k on, k < 16 → c = (if on = true then 112 else 128) + k →
        ∃ l, Claims.LeadsTo i s { w with route := { w.route with latch := l } } [count] ∧
          ∀ j, j < 16 → l.getLsbD j = if j = k ∧ s.fld (.routeGsrc k) 7 0 = 0 then on else s.route.latch.getLsbD j) ∧
      (∀ k, k < 16 → c = 64 + k → ∃ ms, Claims.LeadsTo i s { w with melds := ms } [count] ∧
          ∀ j, j < 16 → cellGet ms j {} = if j = k ∧ s.bit (.meldCfg k) 31 = true then
            { s.meld k with arms := (s.meld k).arms ++ [((s.clk.frc : Int), s.now)] } else s.meld j) ∧
      (∀ p, p < 8 → c = 80 + p → ∃ o r z, Claims.LeadsTo i s { w with route := { w.route with evtOut := o, evtRun := r, evtEnd := z } } [count] ∧
          let mode := s.fld (.routeEvt p) 29 28
          ∀ j, j < 8 → r.getLsbD j = (s.route.evtRun.getLsbD j || (decide (j = p) && decide (mode = 0))) ∧
            o.getLsbD j = (if j = p ∧ mode < 3 then !(decide (mode = 1) && s.route.evtOut.getLsbD p) else s.route.evtOut.getLsbD j) ∧
            cellGet z j 0 = if j = p ∧ mode = 0 then s.clk.frc + 16 * s.fld (.routeEvt p) 19 0 else cellGet s.route.evtEnd j 0))
/-- Events of one cycle (R230, R232, R234, R236, R237): those of one channel are one firing; every enabled consumer of every firing is reached
once, in an order in which gate clears precede gate sets and Hand enables precede disables, and its MERGE counts the firings beyond the
first. Where starts, stops, closes, output holds and remote messages are not among them, each reached consumer that is busy marks OVERRUN
and raises source 7, and every other acts: syncs, marks, detector resets, the statistics latch, arms, EVT pins, routing event interrupts,
Hands and gate latches. -/
def Claims.FiringsMerge : Prop :=
  ∀ (n : Nat) (err : MemErr) (s : State), s.fabricOn = true →
    (∀ e ∈ s.route.pend.take n, e.cc < 64 ∧ ∃ x : Nat × Stamp, e.seen = some (true, x) ∧ s.fld (.routeStat e.cc) 7 0 < x.1) →
    let fires (cc : Nat) : Bool := (s.route.pend.take n).any fun e => e.cc == cc
    let hits (c : Nat) : Nat := (List.range 64).countP fun cc => fires cc && (s.targets cc).contains c
    let hit (c : Nat) : Prop := 0 < hits c
    (∃ x : State, x = { s with regs := x.regs, route := { s.route with pend := s.route.pend.drop n } } ∧
      (∀ q : Reg, decodeAddr q.addr = some q → (∀ cc, cc < 64 → q ≠ .routeStat cc) → x.reg q = s.reg q) ∧
      (∀ cc, cc < 64 → x.reg (.routeStat cc) =
        if fires cc = true then putBits (s.reg (.routeStat cc)) 7 0 (s.fld (.routeStat cc) 7 0 + 1) else s.reg (.routeStat cc)) ∧
      Leads (.routeFiring n err) s (((((List.range 16).map (128 + ·)) ++ List.range 128).filter fun c => decide (hit c)).foldl
        (fun t c => x.receive t err c (hits c)) x)) ∧
    ((∀ c, 8 ≤ c → c < 32 → hits c = 0) → (∀ c, 58 ≤ c → c < 64 → hits c = 0) →
      let late (c : Nat) : Prop := hit c ∧ Claims.Busy s c
      let acts (c : Nat) : Prop := hit c ∧ ¬ Claims.Busy s c
      ∃ u, Leads (.routeFiring n err) s u ∧
        (∀ c, c < 144 → u.fld (.routeCstat c) 15 0 = min 0xffff (s.fld (.routeCstat c) 15 0 + (hits c - 1)) ∧
          u.fld (.routeCstat c) 31 17 = s.fld (.routeCstat c) 31 17 ∧
          (u.bit (.routeCstat c) 16 = true ↔ s.bit (.routeCstat c) 16 = true ∨ late c)) ∧
        (∀ cc, cc < 64 → u.reg (.routeStat cc) =
          if fires cc = true then putBits (s.reg (.routeStat cc)) 7 0 (s.fld (.routeStat cc) 7 0 + 1) else s.reg (.routeStat cc)) ∧
        (∀ j, j < 8 → (u.bit .routeHand j = true ↔ ¬ acts (104 + j) ∧ (acts (96 + j) ∨ s.bit .routeHand j = true))) ∧
        u.fld .routeHand 31 8 = s.fld .routeHand 31 8 ∧
        (∀ q : Reg, decodeAddr q.addr = some q → (∀ t w, q ≠ .irqLost t w) → (∀ cc, q ≠ .routeStat cc) → (∀ c, q ≠ .routeCstat c) →
          q ≠ .routeHand → u.reg q = s.reg q) ∧
        (∀ g, g < 8 → let old := s.syncs.filter fun x => x.1 == g
          let new := u.syncs.filter fun x => x.1 == g
          (acts g ∧ s.bit (.sluSgrp g) 1 = true → new = old ++ [(g, true, s.clk.mclk + 1)]) ∧
          (¬ (acts g ∧ s.bit (.sluSgrp g) 1 = true) → new = old)) ∧
        (∀ j, j < 16 → (acts (32 + j) → u.queue j = { s.queue j with m := ((s.queue j).pkt.map (·.slot)).getD (s.queue j).w, markValid := true }) ∧
          (¬ acts (32 + j) → u.queue j = s.queue j)) ∧
        (∀ j, j < 8 → (acts (48 + j) → u.det j = { s.det j with pend := Claims.joinedBy s (s.det j).pend }) ∧
          (¬ acts (48 + j) → u.det j = s.det j)) ∧
        (∀ j, j < 32 → (acts 56 ∧ (s.stat j).run = true ∧ s.bit (.statCfg j) 8 = true →
            u.stat j = { s.stat j with pend := Claims.joinedBy s (s.stat j).pend }) ∧
          (¬ (acts 56 ∧ (s.stat j).run = true ∧ s.bit (.statCfg j) 8 = true) → u.stat j = s.stat j)) ∧
        (∀ j, j < 16 → (acts (64 + j) ∧ s.bit (.meldCfg j) 31 = true →
            u.meld j = { s.meld j with arms := (s.meld j).arms ++ [((s.clk.frc : Int), s.now)] }) ∧
          (¬ (acts (64 + j) ∧ s.bit (.meldCfg j) 31 = true) → u.meld j = s.meld j)) ∧
        (∀ p, p < 8 →
          let mode := s.fld (.routeEvt p) 29 28
          (acts (80 + p) → (u.route.evtRun.getLsbD p = true ↔ mode = 0) ∧
            (u.route.evtOut.getLsbD p = true ↔ (mode < 3 ∨ s.route.evtOut.getLsbD p = true) ∧ ¬ (mode = 1 ∧ s.route.evtOut.getLsbD p = true)) ∧
            cellGet u.route.evtEnd p 0 = if mode = 0 then s.clk.frc + 16 * s.fld (.routeEvt p) 19 0 else cellGet s.route.evtEnd p 0) ∧
          (¬ acts (80 + p) → u.route.evtRun.getLsbD p = s.route.evtRun.getLsbD p ∧ u.route.evtOut.getLsbD p = s.route.evtOut.getLsbD p ∧
            cellGet u.route.evtEnd p 0 = cellGet s.route.evtEnd p 0)) ∧
        (∀ k, k < 16 → (u.route.latch.getLsbD k = true ↔ if s.fld (.routeGsrc k) 7 0 = 0 then
            acts (112 + k) ∨ (s.route.latch.getLsbD k = true ∧ ¬ acts (128 + k)) else s.route.latch.getLsbD k = true)) ∧
        (∀ k, k < 128 → (u.irq.pend.getLsbD k = true ↔ s.irq.pend.getLsbD k = true ∨ (s.irq.insv.getLsbD k = false ∧
          ((k = 7 ∧ ∃ c, c < 144 ∧ late c) ∨ ∃ j, j < 8 ∧ k = 96 + j ∧ acts (88 + j))))) ∧
        u.irq = { s.irq with pend := u.irq.pend } ∧
        (u.route.statEdge = s.clk.mclk + 1 ∧ acts 56 ∨ u.route.statEdge = s.route.statEdge ∧ ¬ acts 56) ∧
        u.route = { s.route with pend := s.route.pend.drop n, latch := u.route.latch, evtOut := u.route.evtOut
                                 evtRun := u.route.evtRun, evtEnd := u.route.evtEnd, statEdge := u.route.statEdge } ∧
        u = { s with regs := u.regs, irq := u.irq, route := u.route, syncs := u.syncs, queues := u.queues, dets := u.dets
                     stats := u.stats, melds := u.melds })
/-- The routing fabric: what events meet and what firings do. A pulse ends after its PW; a filtered edge of a GP pin, WAKE_N and the tick
divider produce their channels' events, the divider's in the cycle of its edge; pins of an absent VIO_S do nothing, and keep their filtered
level (the model's choice, log entry 161); without the fabric's clock a wake path is all that is left of
GP and WAKE_N (R44, R227, R229, R230, R232, R234 to R240). -/
def Obligations.EventsAreRouted : Prop :=
  Claims.EventsAreJudged ∧ Claims.ChannelsFire ∧ Claims.FiringsMerge ∧
  ∀ (p : Nat) (level : Bool) (s : State), p < 8 →
    let off (x : BitVec 8) : BitVec 8 := x &&& ~~~ BitVec.ofNat 8 (2 ^ p)
    (s.fabricOn = false ∨ s.route.evtRun.getLsbD p = false ∨ s.clk.frc < cellGet s.route.evtEnd p 0 → Leads (.evtPulseEnd p) s s) ∧
    (s.fabricOn = true → s.route.evtRun.getLsbD p = true → cellGet s.route.evtEnd p 0 ≤ s.clk.frc →
      Leads (.evtPulseEnd p) s { s with route := { s.route with evtOut := off s.route.evtOut, evtRun := off s.route.evtRun } }) ∧
    (s.route.gp.getLsbD p = level ∨ s.bit .supStatus 2 = false → Leads (.gpEdge p level) s s) ∧
    (s.route.gp.getLsbD p ≠ level → s.bit .supStatus 2 = true →
      let w : State := { s with route := { s.route with gp := off s.route.gp ||| BitVec.ofNat 8 (level.toNat * 2 ^ p) } }
      let e := s.fld (.routePin p) 1 0
      let taken := (e = 0 ∧ level = true) ∨ (e = 1 ∧ level = false) ∨ e = 2
      (¬ taken → Leads (.gpEdge p level) s w) ∧
      (taken → s.fabricOn = true →
        Leads (.gpEdge p level) s { w with route := { w.route with pend := s.route.pend ++ [{ cc := 32 + p }] } }) ∧
      (taken → s.fabricOn = false → s.bit (.routeCh (32 + p)) 6 = true → Leads (.gpEdge p level) s (w.wakeLatch 1)) ∧
      (taken → s.fabricOn = false → s.bit (.routeCh (32 + p)) 6 = false → Leads (.gpEdge p level) s w)) ∧
    (s.fabricOn = true →
      Leads .wakeNFall s (State.wakeLatch { s with route := { s.route with pend := s.route.pend ++ [{ cc := 57 }] } } 0)) ∧
    (s.fabricOn = false → Leads .wakeNFall s
      (if s.bit (.routeCh 57) 0 = true then (s.wakeLatch 0).wakeLatch 1 else s.wakeLatch 0)) ∧
    (s.fabricOn = true →
      let n := s.fld .routeTdiv 23 0
      (n = 0 ∨ s.route.tdCnt < n → Leads .tdFire s s) ∧
      (n ≠ 0 → n ≤ s.route.tdCnt → Leads .tdFire s
        { s with route := { s.route with tdCnt := s.route.tdCnt - n, pend := s.route.pend ++ [{ cc := 44, cycle := .edge }] } }))

/-- Writes of the routing fabric (R227, R229, R232, R233, R235, R239): software firings are refused as a whole for a locked channel, and for a
metrological one while sealed, and meet Hand, gate and BUDGET as they are then (R230, R312); latches whose gate is the latch are set and cleared; a locked channel keeps its configuration, and slots that
are not wired read 0; a write of ROUTE_TDIV restarts the count; a change of OUT, MODE or POL, or CLR in latch mode, makes an EVT pin inactive. -/
def Obligations.RoutingIsSet : Prop :=
  ∀ (h : Hdr) (v : W32) (s : State),
    (∀ w, w < 2 → Accepted h (if w = 0 then .routeFire0 else .routeFire1) v s →
      let cs := ((List.range 32).filter fun i => v.getLsbD i).map (32 * w + ·)
      let locked := ∃ cc ∈ cs, s.bit (.routeCh cc) 31 = true
      let marked := s.sl.sealed = true ∧ ∃ cc ∈ cs, s.bit (.routeCh cc) 30 = true
      (locked → Refuses (.routeFire h w v) h .stateConflict (Claims.clash s) s) ∧
      (¬ locked → marked → Refuses (.routeFire h w v) h .sealed [] s) ∧
      (¬ locked → ¬ marked → ∃ es : List REvent, es.length = cs.length ∧
        (∀ k cc : Nat, cs[k]? = some cc → ∃ p : Bool, (p = true ↔ Claims.Passes s cc) ∧
          es[k]? = some ({ cc := cc, seen := some (p, s.fld (.routeCh cc) 15 8, s.now) } : REvent)) ∧
        Answers (.routeFire h w v) h [] s
          { s with route := { s.route with pend := if s.fabricOn = true then s.route.pend ++ es else s.route.pend } })) ∧
    (∀ (i : Instr) (r : Reg) (on : Bool), (i = .routeGset h v ∧ r = .routeGset ∧ on = true) ∨ (i = .routeGclr h v ∧ r = .routeGclr ∧ on = false) →
      Accepted h r v s → ∃ l, Answers i h [] s { s with route := { s.route with latch := l } } ∧
        ∀ k, k < 16 → l.getLsbD k = if v.getLsbD k = true ∧ s.fld (.routeGsrc k) 7 0 = 0 then on else s.route.latch.getLsbD k) ∧
    (∀ cc, cc < 64 → Accepted h (.routeCh cc) v s →
      let old := s.reg (.routeCh cc)
      let new := (v &&& 0xc7cfff00) ||| (v &&& BitVec.ofNat 32 (2 ^ (fanout cc).length - 1))
      (old.getLsbD 31 = true → new &&& 0x7fffffff ≠ old &&& 0x7fffffff →
        Refuses (.routeChWrite h cc v) h .stateConflict (Claims.clash s) s) ∧
      (old.getLsbD 31 = false ∨ new &&& 0x7fffffff = old &&& 0x7fffffff →
        Claims.Sets (.routeChWrite h cc v) h [] s [(.routeCh cc, new ||| (old &&& 0x80000000))])) ∧
    (Accepted h .routeTdiv v s → ∃ u, Answers (.routeTdivWrite h v) h [] s u ∧ u.reg .routeTdiv = v &&& 0xffffff ∧
      Claims.Keeps [.routeTdiv] s u ∧ u = { s with regs := u.regs, route := { s.route with tdCnt := 0 } }) ∧
    ∀ (i : Instr) (p : Nat) (x : W32), p < 8 → (i = .routeEvtWrite h p v ∧ x = v) ∨ (i = .evtClr h p v ∧ x = v ||| 0x8000000) →
      Accepted h (.routeEvt p) x s → ∃ u, Answers i h [] s u ∧ u.reg (.routeEvt p) = x &&& 0xf60fffff ∧
        Claims.Keeps [.routeEvt p] s u ∧ u = { s with regs := u.regs, route := { s.route with evtOut := u.route.evtOut, evtRun := u.route.evtRun } } ∧
        let quiet := (s.reg (.routeEvt p) ^^^ x) &&& 0xf0000000 ≠ 0 ∨
          (x.getLsbD 27 = true ∧ bits x.toNat 29 28 = 2 ∧ x.getLsbD 31 = true)
        ∀ j, j < 8 → (u.route.evtOut.getLsbD j = true ↔ s.route.evtOut.getLsbD j = true ∧ ¬ (j = p ∧ quiet)) ∧
          (u.route.evtRun.getLsbD j = true ↔ s.route.evtRun.getLsbD j = true ∧ ¬ (j = p ∧ quiet))

/-- The sources deliverable to a target (R247): theirs is the target, they are pending, not masked, not in service, and above every
source in service at it. -/
def Claims.Deliverable (s : State) (t n : Nat) : Prop :=
  n < 128 ∧ s.fld (.irqCfg n) 9 8 = t + 1 ∧ s.irq.pend.getLsbD n = true ∧ s.irq.mask.getLsbD n = false ∧ s.irq.insv.getLsbD n = false ∧
  ∀ k, k < 128 → s.irq.insv.getLsbD k = true → s.fld (.irqCfg k) 9 8 = t + 1 → s.fld (.irqCfg k) 2 0 < s.fld (.irqCfg n) 2 0
/-- The source that a claim takes (R248): deliverable, of highest PRIO, and of those of the lowest number. -/
def Claims.Taken (s : State) (t n : Nat) : Prop :=
  Claims.Deliverable s t n ∧ ∀ k, Claims.Deliverable s t k →
    s.fld (.irqCfg k) 2 0 < s.fld (.irqCfg n) 2 0 ∨ (s.fld (.irqCfg k) 2 0 = s.fld (.irqCfg n) 2 0 ∧ n ≤ k)
/-- R249: a write of IRQ_EOI ends the named source's service, in any order; LEVEL is then the highest PRIO of those still in service and ACTIVE
whether there are any; the line is evaluated again; a source whose pending bit is still 1 is deliverable again at once; 0x7F is ignored; a
number that is not in service at the target is ignored and sets BAD_EOI. -/
def Claims.InterruptServiceEnds : Prop :=
  ∀ (h : Hdr) (t : Nat) (v : W32) (s : State), t < 2 → Accepted h (.irqEoi t) v s →
    let n := bits v.toNat 6 0
    let serves := s.irq.insv.getLsbD n = true ∧ s.fld (.irqCfg n) 9 8 = t + 1
    (n = 0x7f → Answers (.irqEoi h t v) h [] s s) ∧
    (n ≠ 0x7f → serves → ∃ i, let w : State := { s with irq := { s.irq with insv := i } }
      let here (k : Nat) : Prop := k < 128 ∧ i.getLsbD k = true ∧ s.fld (.irqCfg k) 9 8 = t + 1
      let level := (w.levelWord t).toNat
      Answers (.irqEoi h t v) h [] s w ∧ (∀ k, k < 128 → i.getLsbD k = (s.irq.insv.getLsbD k && decide (k ≠ n))) ∧
      (bits level 4 4 = 1 ↔ ∃ k, here k) ∧ (∀ k, here k → s.fld (.irqCfg k) 2 0 ≤ bits level 3 0) ∧
      ((∃ k, here k) → ∃ k, here k ∧ s.fld (.irqCfg k) 2 0 = bits level 3 0) ∧
      (bits level 31 31 = 1 ↔ ∃ k, Claims.Deliverable w t k) ∧
      (s.irq.pend.getLsbD n = true → s.irq.mask.getLsbD n = false → (∀ k, here k → s.fld (.irqCfg k) 2 0 < s.fld (.irqCfg n) 2 0) →
        Claims.Deliverable w t n)) ∧
    (∃ z, exec (.irqEoi h t v) s = .next z ∧ ((if t = 0 then z.irq.lineA else z.irq.lineB) = true ↔ ∃ k, Claims.Deliverable z t k)) ∧
    (n ≠ 0x7f → ¬ serves → ∃ b, Answers (.irqEoi h t v) h [] s { s with irq := { s.irq with badEoi := b } } ∧
      ∀ k, k < 3 → b.getLsbD k = (s.irq.badEoi.getLsbD k || decide (k = t)))
/-- R248 at the host targets: a claim takes the deliverable source of highest PRIO and lowest number, returns it with its PRIO and marks
it in service, whereupon its line is evaluated; with none deliverable it returns 0x7F and changes nothing. A host's read of IRQ_CLAIM_S returns the same and changes
nothing (R245). R249: a write of IRQ_EOI ends the named source's service; 0x7F is ignored; a number that is not in service at the target
is ignored and sets BAD_EOI. -/
def Obligations.InterruptsAreClaimed : Prop :=
  Claims.InterruptServiceEnds ∧ (∀ (h : Hdr) (t : Nat) (s : State), t < 3 → Admitted h (.regRead (Reg.irqClaim t).addr) s →
    ((∀ n, ¬ Claims.Deliverable s t n) → Answers (.irqClaim h t) h (leBytes 4 0x7f) s s) ∧
    ∀ n, Claims.Taken s t n →
      (t = 2 → Answers (.irqClaim h t) h (leBytes 4 (s.fld (.irqCfg n) 2 0 * 256 + n)) s s) ∧
      (t < 2 → ∃ v, (∀ k, k < 128 → v.getLsbD k = (s.irq.insv.getLsbD k || decide (k = n))) ∧
        Answers (.irqClaim h t) h (leBytes 4 (s.fld (.irqCfg n) 2 0 * 256 + n)) s
          (State.irqSettle { s with irq := { s.irq with insv := v, claimedA := s.irq.claimedA || decide (t = 0)
                                                        claimedB := s.irq.claimedB || decide (t = 1) } })))

/-- The interrupt controller's other commands (R242, R243, R245, R249, R253 to R255): a write of a view sets the bits of the sources of its
target, reserved numbers never become pending, and the lines are evaluated at once, as with a new IRQ_CFG; CLR of BAD_EOI; IRQ_CFG is refused while its source is in service, and the mask of a source
given to the sequencer is cleared; the sequencer claims, clears and ends a source and writes its event; an in-band interrupt, of the
bytes 0x1F and PEEK, is repeated 1 ms after the last while its request stands unclaimed and its port runs. -/
def Obligations.InterruptsAreSet : Prop :=
  (∀ (h : Hdr) (t w : Nat) (v : W32) (s : State), t < 2 → w < 4 →
    (Accepted h (.irqPend t w) v s → ∃ x, Answers (.irqPendWrite h t w v) h [] s (State.irqSettle { s with irq := { s.irq with pend := x } }) ∧
      ∀ n, n < 128 → x.getLsbD n = if n / 32 = w ∧ s.fld (.irqCfg n) 9 8 = t + 1 then v.getLsbD (n % 32) && !irqReserved n
        else s.irq.pend.getLsbD n) ∧
    (Accepted h (.irqMask t w) v s → ∃ x, Answers (.irqMaskWrite h t w v) h [] s (State.irqSettle { s with irq := { s.irq with mask := x } }) ∧
      ∀ n, n < 128 → x.getLsbD n = if n / 32 = w ∧ s.fld (.irqCfg n) 9 8 = t + 1 then v.getLsbD (n % 32) else s.irq.mask.getLsbD n) ∧
    (Accepted h (.irqCtrl t) (v ||| 4) s → ∃ u, Answers (.clrBadeoi h t v) h [] s u ∧ u.reg (.irqCtrl t) = v &&& 3 ∧
      Claims.Keeps [.irqCtrl t] s u ∧ u = { s with regs := u.regs, irq := { s.irq with badEoi := u.irq.badEoi } } ∧
      ∀ k, k < 3 → u.irq.badEoi.getLsbD k = (s.irq.badEoi.getLsbD k && decide (k ≠ t)))) ∧
  (∀ (h : Hdr) (n : Nat) (v : W32) (s : State), n < 128 → Accepted h (.irqCfg n) v s →
    (s.irq.insv.getLsbD n = true → Refuses (.irqCfgWrite h n v) h .stateConflict (Claims.clash s) s) ∧
    (s.irq.insv.getLsbD n = false → ∃ u, Answers (.irqCfgWrite h n v) h [] s u.irqSettle ∧ u.reg (.irqCfg n) = v &&& 0x307 ∧
      Claims.Keeps [.irqCfg n] s u ∧ u = { s with regs := u.regs, irq := { s.irq with mask := u.irq.mask } } ∧
      ∀ k, k < 128 → u.irq.mask.getLsbD k = (s.irq.mask.getLsbD k && !(decide (k = n) && decide (bits v.toNat 9 8 = 3))))) ∧
  (∀ (i : Instr) (late : Nat) (s : State), i = .seqIrqService late ∨ (i = .dozeService ∧ late = 0 ∧ s.pwr.st = .doze) →
    (s.fabricOn = false ∨ (∀ n, ¬ Claims.Deliverable s 2 n) → Leads i s s) ∧
    ∀ n, s.fabricOn = true → Claims.Taken s 2 n → ∃ x, (∀ k, k < 128 → x.getLsbD k = (s.irq.pend.getLsbD k && decide (k ≠ n))) ∧
      let t : State := { s.run late with irq := { s.irq with pend := x } }
      Leads i s (if n < 112 then { t with weir := { s.weir with mv0 := s.weir.mv0 ++
          ((List.range 16).filter fun q => s.qOn q && s.bit .irqSeqQmask q).map fun q =>
            (q, eventUnit (0x1800 + n) { t := (t.now.t + (2 ^ 64 - 1100)) % 2 ^ 64, clk := t.now.clk, ep := t.now.ep }) } } else t)) ∧
  ∀ (p : Port) (s : State), s.fabricOn = true →
    let t := if p = .a then 0 else 1
    let claimed := if p = .a then s.irq.claimedA else s.irq.claimedB
    let last := if p = .a then s.irq.ibiA else s.irq.ibiB
    let i3c := if p = .a then s.hostIf.strapA = .high else s.hostIf.strapB = .high
    let live : Prop := s.proto.factory = false ∧ (p = .a ∨ s.bit .supStatus 1 = true)
    ((∀ n, ¬ Claims.Deliverable s t n) ∨ claimed = true ∨ ¬ i3c ∨ ¬ live ∨ s.bit (.irqCtrl t) 0 = false ∨ s.clk.frc < last + 24576 →
      Leads (.ibiRepeat p) s s) ∧
    ∀ n, Claims.Taken s t n → claimed = false → i3c → live → s.bit (.irqCtrl t) 0 = true → last + 24576 ≤ s.clk.frc →
      Leads (.ibiRepeat p) s
        { s with irq := { s.irq with ibis := s.irq.ibis ++ [(t, [0x1f, BitVec.ofNat 8 n])]
                                     ibiA := if p = .a then s.clk.frc else s.irq.ibiA
                                     ibiB := if p = .b then s.clk.frc else s.irq.ibiB } }

/-! ### Queues (R257 to R285) -/

/-- `u` is `w` after the threshold of queue q is evaluated (R277): the side the queue stands on, and on a crossing its interrupt source and the
selectors that name it. -/
def Claims.Evaluated (q : Nat) (w u : State) : Prop :=
  let x := w.queue q
  let l := w.fld (.weirThr q) 18 0
  let mode := w.fld (.weirThr q) 31 30
  let side := (mode = 2 ∧ l ≤ x.c - x.r) ∨ (mode = 3 ∧ 512 * w.fld (.weirArea q) 25 16 - (x.w - x.f) < l)
  let fires := side ∧ x.thrHigh = false ∧ w.bit (.weirCfg q) 31 = true
  ((u.queue q).thrHigh = true ↔ side) ∧ u.queue q = { x with thrHigh := (u.queue q).thrHigh } ∧ (∀ k, k ≠ q → u.queue k = w.queue k) ∧
  (¬ fires → u.irq = w.irq ∧ u.route = w.route ∧ u.regs = w.regs) ∧
  (fires → u.irq = (w.irqFire (32 + q)).irq ∧ Claims.KeepsButLost w u ∧ u.route = { w.route with
    pend := w.route.pend ++ ((List.range 4).filter fun k => w.bit (.routeQt k) 4 && decide (w.fld (.routeQt k) 3 0 = q)).map fun k => { cc := 48 + k } }) ∧
  u = { w with regs := u.regs, irq := u.irq, route := u.route, queues := u.queues }
/-- The window of each port bound to queue q is empty in `u`, and nothing else of the movers has moved (R274). -/
def Claims.Emptied (q : Nat) (s u : State) : Prop :=
  u.weir = { s.weir with winA := if s.weir.winA.q = some q then { s.weir.winA with words := [] } else s.weir.winA
                         winB := if s.weir.winB.q = some q then { s.weir.winB with words := [] } else s.weir.winB }
/-- A record among those that a packet of a record count holds sets a flag of its length slot (R259). -/
def Claims.marked (first : Option Nat) (count : Nat) : Bool := first.any fun i => decide (i < count)
/-- The first record of a packet that sets such a flag, after records have joined the `n` that it held (R259). -/
def Claims.FirstMark (old new : Option Nat) (n : Nat) (recs : List Rec) (p : Rec → Prop) : Prop :=
  (old.isSome = true → new = old) ∧
  (old = none → (new = none ↔ ∀ r ∈ recs, ¬ p r) ∧
    ∀ i, new = some i → ∃ j r, i = n + j ∧ recs[j]? = some r ∧ p r ∧ ∀ k, k < j → ∀ x, recs[k]? = some x → ¬ p x)
/-- The length slot of a packet (R259). -/
def Claims.lengthWord (seq : Nat) (k : Pkt) (trunc : Bool) : W64 :=
  BitVec.ofNat 64 (seq % 256 * 2 ^ 56 + (Claims.marked k.ecc k.count).toNat * 2 ^ 52 + (Claims.marked k.fault k.count).toNat * 2 ^ 51 + (k.trunc || trunc).toNat * 2 ^ 50 +
    k.flushed.toNat * 2 ^ 49 + k.aborted.toNat * 2 ^ 48 + k.count * 2 ^ 32 +
    (if k.count = 0 then 8 else (6 * k.count - 1) % 8 + 1) * 2 ^ 24 + 6 * k.count)
/-- A byte of word count p of queue q. -/
def Claims.inWord (s : State) (q p a : Nat) : Prop := s.qAddr q p ≤ a ∧ a < s.qAddr q p + 8
/-- `u` is `w` after C of queue q has moved (R265, R277): the threshold is evaluated, and in mode 1 fires at most once in a tick. -/
def Claims.Moved (q : Nat) (w u : State) : Prop :=
  let x := w.queue q
  (w.fld (.weirThr q) 31 30 ≠ 1 → Claims.Evaluated q w u) ∧
  (w.fld (.weirThr q) 31 30 = 1 → u.queue q = { x with fired := true, thrHigh := false } ∧ (∀ k, k ≠ q → u.queue k = w.queue k) ∧
    (x.fired = true → u.irq = w.irq ∧ u.route = w.route ∧ u.regs = w.regs) ∧
    (x.fired = false → u.irq = (w.irqFire (32 + q)).irq ∧ Claims.KeepsButLost w u ∧ u.route = { w.route with
      pend := w.route.pend ++ ((List.range 4).filter fun k => w.bit (.routeQt k) 4 && decide (w.fld (.routeQt k) 3 0 = q)).map fun k => { cc := 48 + k } }) ∧
    u = { w with regs := u.regs, irq := u.irq, route := u.route, queues := u.queues })
/-- Word count at which the open packet k of a queue ends, and the queue's record once it has closed there (R259, R262). -/
def Claims.closedAt (x : Queue) (k : Pkt) : Queue :=
  let p := k.slot + 2 + 6 * k.count / 8
  let e := if k.part = [] then p else p + 1
  { x with pkt := none, w := e, seq := x.seq + 1, closed := x.closed ++ [(e, x.seq % 256)] }
/-- The words at which the open packet k of queue q closes may be written. -/
def Claims.MayClose (s : State) (q : Nat) (k : Pkt) : Prop :=
  s.allows (s.qAddr q k.slot) 0 = true ∧ (k.part ≠ [] → s.allows (s.qAddr q (k.slot + 2 + 6 * k.count / 8)) 0 = true)
/-- The memory of `u` is that of `s` after the open packet k of queue q has closed: the rest of its bytes, and its length slot (R259). -/
def Claims.CloseWritten (s : State) (q : Nat) (k : Pkt) (trunc : Bool) (u : State) : Prop :=
  let p := k.slot + 2 + 6 * k.count / 8
  u.qWord q k.slot = Claims.lengthWord (s.queue q).seq k trunc ∧
  (k.part ≠ [] → s.qAddr q p ≠ s.qAddr q k.slot → u.qWord q p = BitVec.ofNat 64 (ofLe k.part)) ∧
  ∀ a, ¬ Claims.inWord s q k.slot a → (k.part ≠ [] → ¬ Claims.inWord s q p a) → u.sramByte a = s.sramByte a
/-- UNIT_STORE (R257 to R259, R262, R263, R265, R277, R281): the mover stores the first unit that waits, and the engine, whose held record the
free place takes, goes on: nothing for a queue that is off; counted as dropped while the write side is halted; where it fits, its bytes follow
the packet's, whole words are written, and a new packet takes its time word; a packet that it closes takes its length slot first; where it
does not fit, it is dropped, an open packet closes, and DROP_S, TRUNCATED and source 56 say so; a close that waited for the unit follows it,
and with it the commit of one that PKT_TICKS asked for. -/
def Claims.UnitsAreStored : Prop :=
  ∀ s : State, s.fabricOn = true →
    (s.weir.mv0 = [] → Leads .unitStore s s.engineRun) ∧
    ∀ (q : Nat) (e : RUnit) (rest : List (Nat × RUnit)), q < 16 → s.weir.mv0 = (q, e) :: rest → (s.queue q).flushPend = false →
      let goes (u : State) : Prop := Leads .unitStore s u.engineRun
      let w : State := { s with weir := { s.weir with mv0 := rest } }
      let x := s.queue q
      let size := 512 * s.fld (.weirArea q) 25 16
      let recs := (s.unitIn x.pkt e).1
      let k : Pkt := x.pkt.getD { slot := x.w, ep := e.tm.ep, trunc := x.truncNext, flushed := x.flushNext }
      let wEnd := k.slot + 2 + (6 * (k.count + recs.length) + 7) / 8
      let dropped (y : Queue) : Queue := { y with drop := min (2 ^ 32 - 1) (y.drop + e.recs.length), dropS := true }
      let whole (k : Pkt) : Prop := k.part.length = 6 * k.count % 8
      let keeps : Prop := ∀ p, x.pkt = some p → s.unitCloses q p e = false ∧ whole p
      let room : Prop := x.f ≤ k.slot ∧ wEnd - x.f ≤ size ∧ (x.markValid = true → wEnd ≤ x.m + size) ∧
        ∀ p, k.slot ≤ p → p ≤ wEnd → s.allows (s.qAddr q p) 0 = true
      (x.pkt = none ∨ e.stamped = true ∨ 40 ≤ e.src → recs = e.recs) ∧
      (∀ p, x.pkt = some p → recs = e.recs ∨ recs = e.recs ++ stampPair e.tm) ∧
      (x.closePend = false →
        (s.qOn q = false → goes w) ∧
        (s.qOn q = true → x.whalt = true → ∃ qs, goes { w with queues := qs } ∧
          ∀ j, cellGet qs j {} = if j = q then dropped x else s.queue j) ∧
        (s.qOn q = true → x.whalt = false → x.pkt = none → size < wEnd - x.f → ∃ v u, goes u ∧ Claims.Evaluated q v u ∧
          (∀ j, v.queue j = if j = q then { dropped x with truncNext := true } else s.queue j) ∧ v.irq = (w.irqFire 56).irq ∧
          Claims.KeepsButLost s v ∧ v = { w with regs := v.regs, irq := v.irq, queues := v.queues }) ∧
        (∀ p, s.qOn q = true → x.whalt = false → x.pkt = some p → s.unitCloses q p e = false → whole p → size < wEnd - x.f →
          Claims.MayClose s q p → ∃ v u, goes u ∧ Claims.Evaluated q v u ∧
          (∀ j, v.queue j = if j = q then dropped (Claims.closedAt x p) else s.queue j) ∧ v.irq = (w.irqFire 56).irq ∧
          Claims.KeepsButLost s v ∧ Claims.CloseWritten s q p true v ∧
          v = { w with sram := v.sram, regs := v.regs, irq := v.irq, queues := v.queues }) ∧
        (∀ p, s.qOn q = true → x.whalt = false → x.pkt = some p → s.unitCloses q p e = true → whole p →
          let y := Claims.closedAt x p
          let ends := y.w + 2 + (6 * e.recs.length + 7) / 8
          x.f ≤ p.slot → ends - x.f ≤ size → (x.markValid = true → ends ≤ x.m + size) → Claims.MayClose s q p →
          (∀ i, y.w ≤ i → i ≤ ends → s.allows (s.qAddr q i) 0 = true) →
          ∃ u, goes u ∧ u.qWord q p.slot = Claims.lengthWord x.seq p false ∧ u.qWord q (y.w + 1) = BitVec.ofNat 64 e.tm.t ∧
            (u.queue q).closed = y.closed ∧ (u.queue q).seq = y.seq ∧ (u.queue q).w = ends ∧
            ∃ n, (u.queue q).pkt = some n ∧ n.slot = y.w ∧ n.count = e.recs.length ∧ n.ep = e.tm.ep) ∧
        (s.qOn q = true → x.whalt = false → keeps → room →
          let data := k.part ++ recs.flatMap fun r => leBytes 6 (r.source % 64 * 2 ^ 42 + r.flags.toNat * 2 ^ 36 + r.value.toNat)
          let first := k.slot + 2 + 6 * k.count / 8
          ∃ v u, goes u ∧ Claims.Evaluated q v u ∧ v = { w with sram := v.sram, queues := v.queues } ∧
            (∀ j, j ≠ q → v.queue j = s.queue j) ∧
            (v.queue q).w = wEnd ∧ v.queue q = { x with w := wEnd, pkt := (v.queue q).pkt, truncNext := x.truncNext && x.pkt.isSome
                                                        flushNext := x.flushNext && x.pkt.isSome } ∧
            (∃ p, (v.queue q).pkt = some p ∧ p.slot = k.slot ∧ p.count = k.count + recs.length ∧ p.ep = k.ep ∧ p.ticks = k.ticks ∧
              Claims.FirstMark k.fault p.fault k.count recs (fun r => r.flags.getLsbD 3 = true ∨
                (r.source = 62 ∧ 0x1400 ≤ r.value.toNat ∧ r.value.toNat < 0x1500)) ∧
              Claims.FirstMark k.ecc p.ecc k.count recs (fun r => r.source = 62 ∧
                (r.value.toNat = 0x1200 ∨ (0x1540 ≤ r.value.toNat ∧ r.value.toNat < 0x1558))) ∧
              p.part = data.drop (data.length / 8 * 8) ∧ p.trunc = k.trunc ∧ p.flushed = k.flushed) ∧
            (∀ i, i < data.length / 8 * 8 → v.sramByte (s.qAddr q (first + i / 8) + i % 8) = data.getD i 0) ∧
            (x.pkt = none → v.qWord q (k.slot + 1) = BitVec.ofNat 64 e.tm.t) ∧
            ∀ a, (∀ i, i < data.length / 8 → ¬ Claims.inWord s q (first + i) a) → (x.pkt = none → ¬ Claims.inWord s q (k.slot + 1) a) →
              v.sramByte a = s.sramByte a)) ∧
      (x.closePend = true → s.qOn q = true → x.whalt = false → keeps → room →
        let n := k.count + recs.length
        let p := k.slot + 2 + 6 * n / 8
        let past := if 6 * n % 8 = 0 then p else p + 1
        ∃ u, goes u ∧ (u.queue q).pkt = none ∧ (u.queue q).closePend = false ∧ (u.queue q).seq = x.seq + 1 ∧ (u.queue q).w = past ∧
          (x.commitPend = false → (u.queue q).closed = x.closed ++ [(past, x.seq % 256)] ∧ (u.queue q).c = x.c) ∧
          (x.commitPend = true → (u.queue q).closed = [] ∧ (u.queue q).c = past ∧ (u.queue q).lastSeq = x.seq % 256) ∧ ∃ y : Pkt, y.slot = k.slot ∧ y.count = n ∧
            u.qWord q k.slot = Claims.lengthWord x.seq y false)
/-- Flushes that waited for the unit in progress (R271, R274): at its end the packet and every packet of the queue is discarded, and the engine
goes on. -/
def Claims.FlushesTakeEffect : Prop :=
  ∀ (q : Nat) (s : State), q < 16 → s.fabricOn = true →
    let x := s.queue q
    let mine := s.weir.mv0.head?.map (·.1) = some q
    (x.flushPend = false → Leads (.flushEffect q) s s.engineRun) ∧
    ∀ i : Instr, i = .flushEffect q ∨ (i = .unitStore ∧ mine) → x.flushPend = true →
      ∃ v u, Leads i s u.engineRun ∧ Claims.Evaluated q v u ∧
        (∀ j, v.queue j = if j = q then { x with f := x.w, r := x.w, c := x.w, pkt := none, closed := [], ends := [], markValid := false
                                                 flushNext := true, flushPend := false, closePend := false, commitPend := false } else s.queue j) ∧
        (mine → Claims.Emptied q { s with weir := { s.weir with mv0 := s.weir.mv0.drop 1 } } v) ∧ (¬ mine → Claims.Emptied q s v) ∧
        v = { s with weir := v.weir, queues := v.queues }
/-- PKT_TICKS_CLOSE (R262, R265, R277, R282): a packet that has stood PKT_TICKS tick boundaries closes with its length slot and commits; one
whose unit is in progress waits for it; one whose slot may not be written is discarded, and the write side halts. -/
def Claims.PacketsTimeOut : Prop :=
  ∀ (q : Nat) (s : State), q < 16 → s.fabricOn = true →
    let x := s.queue q
    let n := s.fld (.weirPkt q) 15 0
    let i : Instr := .pktTicksClose q
    let mine := s.weir.mv0.head?.map (·.1) = some q
    (s.qOn q = false ∨ n = 0 ∨ (∀ k, x.pkt = some k → k.ticks < n) → Leads i s s) ∧
    ∀ k, x.pkt = some k → s.qOn q = true → n ≠ 0 → n ≤ k.ticks → x.flushPend = false →
      (mine → ∃ qs, Leads i s { s with queues := qs } ∧ ∀ j, cellGet qs j {} = if j = q then
        { x with closePend := true, commitPend := true } else s.queue j) ∧
      (¬ mine → x.thrHigh = s.thrSide q → Claims.MayClose s q k →
        let y := Claims.closedAt x k
        ∃ v u, Leads i s u ∧ Claims.Moved q v u ∧ v = { s with sram := v.sram, queues := v.queues } ∧
          (∀ j, j ≠ q → v.queue j = s.queue j) ∧
          v.queue q = { y with c := y.w, lastSeq := x.seq % 256, closed := [], ends := (v.queue q).ends, closePend := false } ∧
          Claims.CloseWritten s q k false v) ∧
      (¬ mine → s.allows (s.qAddr q k.slot) 0 = false → k.part = [] → ∃ u, Leads i s u ∧ (u.queue q).pkt = none ∧ (u.queue q).w = k.slot ∧
        (u.queue q).drop = min (2 ^ 32 - 1) (x.drop + k.count) ∧ (u.queue q).whalt = true ∧ (u.queue q).abortS = true ∧
        u.sram = s.sram ∧ u.reg (.moverStatus 0) = BitVec.ofNat 32 (2 ^ 31 + 2 ^ 24 + q * 2 ^ 16) ∧
        u.reg (.moverFaddr 0) = BitVec.ofNat 32 (s.qAddr q k.slot))
/-- WINDOW_PREFETCH (R21, R274, R283): the window of a port takes the committed words from R on, as far as it has room; a word that its region or
an uncorrectable error denies ends the read and halts the read side, with the mover's record; corrected errors are counted. -/
def Claims.WindowsFill : Prop :=
  ∀ (p : Port) (bad : Option Nat) (fixed : Nat) (s : State), s.fabricOn = true →
    let i : Instr := .windowPrefetch p bad fixed
    let win := if p = .a then s.weir.winA else s.weir.winB
    let put (x : Window) : Weir := { s.weir with winA := if p = .a then x else s.weir.winA, winB := if p = .a then s.weir.winB else x }
    let eng : Eng := { s.eng with corrected := s.eng.corrected + fixed }
    (win.q = none → Leads i s s) ∧
    ∀ q, win.q = some q →
      (s.qOn q = false ∨ (s.queue q).rhalt = true → Leads i s s) ∧
      (s.qOn q = true → (s.queue q).rhalt = false →
        let start := (s.queue q).r + s.owed q + win.words.length
        let room := min (64 - win.words.length) ((s.queue q).c - start)
        let read (n : Nat) : Window := { win with words := win.words ++ (List.range n).map fun i => s.qWord q (start + i) }
        let sound (n : Nat) : Prop := (∀ i, i < n → s.allows (s.qAddr q (start + i)) 1 = true) ∧ ∀ b, bad = some b → n ≤ b
        (sound room → Leads i s { s with eng := eng, weir := put (read room) }) ∧
        (∀ n cause, n < room → sound n →
          (s.allows (s.qAddr q (start + n)) 1 = false ∧ cause = 1) ∨ (s.allows (s.qAddr q (start + n)) 1 = true ∧ bad = some n ∧ cause = 2) →
          let m := if p = .a then 1 else 2
          ∃ u, Leads i s u ∧ (∀ j, u.queue j = if j = q then { s.queue q with rhalt := true } else s.queue j) ∧
            u.reg (.moverStatus m) = BitVec.ofNat 32 (2 ^ 31 + cause * 2 ^ 24 + q * 2 ^ 16) ∧
            u.reg (.moverFaddr m) = BitVec.ofNat 32 (s.qAddr q (start + n)) ∧ u.irq = (s.irqFire (48 + m)).irq ∧
            (∀ r : Reg, decodeAddr r.addr = some r → (∀ t w, r ≠ .irqLost t w) → r ≠ .moverStatus m → r ≠ .moverFaddr m → u.reg r = s.reg r) ∧
            u = { s with regs := u.regs, irq := u.irq, queues := u.queues, eng := eng, weir := put (read n) }))
/-- Units reach queues (R257 to R259, R262, R263, R265, R271, R274, R277, R282, R283): they are stored or dropped, deferred flushes and closes take
effect at the unit's end, packets time out, windows fill; and where nothing waits for the engine, its going on changes nothing. -/
def Obligations.QueuesFill : Prop :=
  Claims.UnitsAreStored ∧ Claims.FlushesTakeEffect ∧ Claims.PacketsTimeOut ∧ Claims.WindowsFill ∧
  ∀ s : State, Claims.Idle s → s.engineRun = s

/-- What the bits of WEIR_CTRL from FLUSH to CLR_STKY do to a queue, in the order of R272, before the threshold is evaluated (R267, R269 to R272,
R282): the refusal, or the queue. `slot` is the length slot of the packet that was open, `busy` says that a unit of the queue is in progress,
`lacks` that a block of the area lacks QW. -/
def Claims.controlled (x : Queue) (slot : Option Nat) (v : W32) (link busy lacks : Bool) : Except Status Queue :=
  let flushed : Queue := { x with f := x.w, r := x.w, c := x.w, pkt := none, closed := [], ends := [], markValid := false, flushNext := true
                                  flushPend := false, closePend := false, commitPend := false }
  let a : Queue := if v.getLsbD 2 = false then x else if busy = true then { x with flushPend := true } else flushed
  let a : Queue := if v.getLsbD 3 = true then { a with m := slot.getD a.w, markValid := true } else a
  let a : Queue := if v.getLsbD 4 = true then { a with m := a.r, markValid := true } else a
  let a : Queue := if v.getLsbD 5 = true then { a with markValid := false } else a
  let b : Queue := if v.getLsbD 6 = true then { a with r := a.m, f := min a.f a.m, rhalt := false } else a
  let c : Queue := if v.getLsbD 7 = true then { b with r := (b.ends.find? fun e => decide (b.r < e)).getD b.c, rhalt := false } else b
  let d : Queue := if v.getLsbD 8 = true ∧ c.whalt = true then { c with whalt := false, truncNext := true } else c
  let d : Queue := if v.getLsbD 9 = true then { d with dropS := false, abortS := false, underrun := false, markOver := false } else d
  let d : Queue := if v.getLsbD 2 = true ∧ d.flushPend = false then { d with markValid := false } else d
  if link = true ∧ v.getLsbD 4 = true then .error .stateConflict
  else if v.getLsbD 6 = true ∧ a.markValid = false then .error .markStale
  else if v.getLsbD 6 = true ∧ (a.c < a.m ∨ link = true) then .error .stateConflict
  else if v.getLsbD 7 = true ∧ (link = true ∨ b.r = b.c) then .error .stateConflict
  else if v.getLsbD 8 = true ∧ lacks = true then .error .badParam
  else .ok d
/-- Commands to queues, regions and movers (R20, R262, R266, R267, R269 to R273, R277, R278, R284, R285): a write of WEIR_CTRL is refused whole or
does its bits in order, a CLOSE first, which waits for a unit in progress and gives way to a FLUSH; a release sets F to R, or advances it by N up to R; the link's queue takes no REWIND, SKIP,
MARK_R or release (what R266 and R269 refuse comes first); a write of WEIR_THR
takes the present side; an enable is refused on a bad area and before SRAM_READY, and clears the queue; a disable discards what it holds and its units; AREA, PKT and
the region table take their fields where they may. -/
def Obligations.QueueCommandsAreTaken : Prop :=
  (∀ (h : Hdr) (q : Nat) (v : W32) (s : State), q < 16 →
    let x := s.queue q
    let clash := [BitVec.ofNat 8 (devCode s.proto.dev), BitVec.ofNat 8 (0x20 + q), BitVec.ofNat 8 (s.qOn q).toNat]
    let link := decide (s.fld (.weirCfg q) 30 29 = 3)
    let blocks := (List.range (s.fld (.weirArea q) 25 16)).map fun i => s.fld (.weirArea q) 9 0 + i
    (∀ (i : Instr) (c : W32), (i = .closeQ h q v ∧ c = v ||| 0x2) ∨ (i = .flush h q v ∧ c = v ||| 0x4) ∨ (i = .markW h q v ∧ c = v ||| 0x8) ∨
        (i = .markR h q v ∧ c = v ||| 0x10) ∨ (i = .markClr h q v ∧ c = v ||| 0x20) ∨ (i = .rewind h q v ∧ c = v ||| 0x40) ∨
        (i = .skip h q v ∧ c = v ||| 0x80) ∨ (i = .resume h q v ∧ c = v ||| 0x100) ∨ (i = .clrStky h q v ∧ c = v ||| 0x200) →
      Accepted h (.weirCtrl q) c s →
      let closes : Bool := c.getLsbD 1 && !c.getLsbD 2 && s.qOn q && !x.flushPend
      let busy := decide (s.weir.mv0.head?.map (·.1) = some q)
      let ctl (y : Queue) := Claims.controlled y (x.pkt.map (·.slot)) c link busy (blocks.any fun b => (s.region b).1 % 2 == 0)
      let now (y : Queue) (t : State) : Prop := ∃ u, Answers i h [] s u ∧ Claims.Evaluated q t u ∧
        (∀ j, t.queue j = if j = q then y else s.queue j) ∧
        let moved := (c.getLsbD 2 = true ∧ y.flushPend = false) ∨ c.getLsbD 6 = true ∨ c.getLsbD 7 = true
        (moved → Claims.Emptied q s t) ∧ (¬ moved → t.weir = s.weir)
      let y0 : Queue := if closes = false then x else if busy = true then { x with closePend := true }
        else { x with closePend := false }
      (closes = true → x.thrHigh = s.thrSide q) →
      (closes = false ∨ busy = true ∨ x.pkt = none →
        (∀ st, ctl y0 = .error st → Refuses i h st (if st = .stateConflict then clash else []) s) ∧
        (∀ y, ctl y0 = .ok y → ∃ t, now y t ∧ t = { s with queues := t.queues, weir := t.weir })) ∧
      (∀ k, closes = true → busy = false → x.pkt = some k → Claims.MayClose s q k →
        let y1 : Queue := { Claims.closedAt x k with closePend := false }
        (∀ st, ctl y1 = .error st → Refuses i h st (if st = .stateConflict then clash else []) s) ∧
        (∀ y, ctl y1 = .ok y → ∃ t, now y t ∧ Claims.CloseWritten s q k false t ∧
          t = { s with sram := t.sram, queues := t.queues, weir := t.weir }))) ∧
    (Accepted h (.weirRel q) v s →
      let n := bits v.toNat 18 0
      (v.getLsbD 31 = false → x.r - x.f < n → Refuses (.release h q v) h .badParam [] s) ∧
      (v.getLsbD 31 = true ∨ n ≤ x.r - x.f → link = true → Refuses (.release h q v) h .stateConflict clash s) ∧
      (link = false → v.getLsbD 31 = true ∨ n ≤ x.r - x.f → ∃ t u, Answers (.release h q v) h [] s u ∧ Claims.Evaluated q t u ∧
        (∀ j, t.queue j = if j = q then { x with f := if v.getLsbD 31 = true then x.r else x.f + n } else s.queue j) ∧
        t = { s with queues := t.queues })) ∧
    (Accepted h (.weirThr q) v s → ∃ u, Answers (.weirThrWrite h q v) h [] s u ∧ u.reg (.weirThr q) = v &&& 0xc007ffff ∧
      Claims.Keeps [.weirThr q] s u ∧ u = { s with regs := u.regs, queues := u.queues } ∧ (∀ j, j ≠ q → u.queue j = s.queue j) ∧
      u.queue q = { x with thrHigh := (u.queue q).thrHigh } ∧
      ((u.queue q).thrHigh = true ↔ (bits v.toNat 31 30 = 2 ∧ bits v.toNat 18 0 ≤ x.c - x.r) ∨
        (bits v.toNat 31 30 = 3 ∧ 512 * s.fld (.weirArea q) 25 16 - (x.w - x.f) < bits v.toNat 18 0))) ∧
    (Accepted h (.weirCfg q) v s →
      let base := s.fld (.weirArea q) 9 0
      let size := s.fld (.weirArea q) 25 16
      let bad := size = 0 ∨ 1024 < base + size ∨ base < 64 * s.fld .regionBound 3 0 ∨
        (∃ n, n < 16 ∧ n ≠ q ∧ s.qOn n = true ∧ base < s.fld (.weirArea n) 9 0 + s.fld (.weirArea n) 25 16 ∧ s.fld (.weirArea n) 9 0 < base + size) ∨
        ∃ b ∈ blocks, (s.region b).1 % 4 ≠ 3
      let anew (t : State) (y : Queue) : Prop := ∃ u, Answers (.queueEnable h q v) h [] s u ∧ u.reg (.weirCfg q) = v &&& 0xe0000000 ∧
        Claims.Keeps [.weirCfg q] s u ∧ (∀ j, u.queue j = if j = q then y else s.queue j) ∧ Claims.Emptied q t u ∧
        u = { s with regs := u.regs, queues := u.queues, weir := u.weir }
      (s.qOn q = true → bits v.toNat 30 29 ≠ s.fld (.weirCfg q) 30 29 → Refuses (.queueEnable h q v) h .stateConflict clash s) ∧
      ((s.qOn q = true ∧ bits v.toNat 30 29 = s.fld (.weirCfg q) 30 29 ∧ v.getLsbD 31 = true) ∨ (s.qOn q = false ∧ v.getLsbD 31 = false) →
        Claims.Sets (.queueEnable h q v) h [] s [(.weirCfg q, v &&& 0xe0000000)]) ∧
      (s.qOn q = true → bits v.toNat 30 29 = s.fld (.weirCfg q) 30 29 → v.getLsbD 31 = false →
        anew { s with weir := { s.weir with mv0 := s.weir.mv0.filter fun e => decide (e.1 ≠ q) } }
          { x with f := x.w, r := x.w, c := x.w, pkt := none, closed := [], ends := [], flushPend := false, closePend := false, commitPend := false }) ∧
      (s.qOn q = false → v.getLsbD 31 = true → bad → Refuses (.queueEnable h q v) h .badParam [] s) ∧
      (s.qOn q = false → v.getLsbD 31 = true → ¬ bad → s.bit .bootStatus 0 = false →
        Refuses (.queueEnable h q v) h .stateConflict (Claims.clash s) s) ∧
      (s.qOn q = false → v.getLsbD 31 = true → ¬ bad → s.bit .bootStatus 0 = true → ∃ b, anew s { thrHigh := b } ∧
        (b = true ↔ (s.fld (.weirThr q) 31 30 = 2 ∧ s.fld (.weirThr q) 18 0 = 0) ∨
          (s.fld (.weirThr q) 31 30 = 3 ∧ 512 * size < s.fld (.weirThr q) 18 0))))) ∧
  ∀ (h : Hdr) (v : W32) (s : State),
    (∀ (e : Nat) (attr : Bool), 3 ≤ e → e < 16 → Accepted h (if attr = true then .regionAttr e else .regionAddr e) v s →
      (s.bit .bootStatus 0 = false → Refuses (.regionWrite h e attr v) h .stateConflict (Claims.clash s) s) ∧
      (s.bit .bootStatus 0 = true → Claims.Sets (.regionWrite h e attr v) h [] s
        [if attr = true then (.regionAttr e, v &&& 0xc000000f) else (.regionAddr e, v &&& 0x3ff03ff)])) ∧
    (∀ e, e < 3 → Accepted h (.regionAttr e) v s → Answers (.regionWrite h e true v) h [] s s) ∧
    (Accepted h .regionBound v s →
      let b := bits v.toNat 3 0
      let same := b = s.fld .regionBound 3 0
      let used := ∃ n, n < 40 ∧ 13 ≤ s.fld (.linCfg n) 3 0
      (same → Answers (.regionBoundWrite h v) h [] s s) ∧
      (¬ same → s.bit .bootStatus 0 = false → Refuses (.regionBoundWrite h v) h .stateConflict (Claims.clash s) s) ∧
      (∀ n, ¬ same → s.bit .bootStatus 0 = true → n < 16 → s.qOn n = true → (∀ k, k < n → s.qOn k = false) →
        Refuses (.regionBoundWrite h v) h .stateConflict [BitVec.ofNat 8 (devCode s.proto.dev), BitVec.ofNat 8 (0x20 + n), 1] s) ∧
      (¬ same → s.bit .bootStatus 0 = true → (∀ n, n < 16 → s.qOn n = false) →
        (used → Refuses (.regionBoundWrite h v) h .stateConflict (Claims.clash s) s) ∧
        (¬ used → Claims.Sets (.regionBoundWrite h v) h [] s [(.regionBound, putBits (s.reg .regionBound) 3 0 b)])))

/-! ### Host ports and the sensor bus (R318 to R335) -/

/-- Port commands and events (R319, R322, R323, R326 to R329): QUAD in SPI mode; ABORT_RX discards the reply in progress and counts it,
and of a QUEUE_READ the words that have left count as delivered; a bit rate is
refused above 3 Mbit/s off the PLL, and waits for its reply; a gap or a break on the UART, while HB_DE is low, is counted and makes the
receiver wait for an idle line; the CCCs of an I3C port set and show its addresses, lengths and identity, and enable its in-band interrupts. -/
def Obligations.PortsAreOperated : Prop :=
  (∀ (h : Hdr) (t : Nat) (v : W32) (s : State), t < 2 →
    (Accepted h (.hostCfg t) v s →
      (t = 1 ∨ s.hostIf.strapA ≠ .gnd → Answers (.spiQuadWrite h t v) h [] s s) ∧
      (t = 0 → s.hostIf.strapA = .gnd → v.getLsbD 2 = true → s.bit .supStatus 4 = false →
        Refuses (.spiQuadWrite h t v) h .stateConflict (Claims.clash s) s) ∧
      (t = 0 → s.hostIf.strapA = .gnd → v.getLsbD 2 = false ∨ s.bit .supStatus 4 = true →
        Claims.Sets (.spiQuadWrite h t v) h [] s [(.hostCfg 0, putBits (s.reg (.hostCfg 0)) 2 2 (v.getLsbD 2).toNat)])) ∧
    (Accepted h (.hostCtrl t) (v ||| 2) s →
      let p : Port := if t = 0 then .a else .b
      let uart : Bool := decide (p = .b ∧ s.hostIf.strapB = .gnd)
      let read := ((s.portSent h (.regWrite (Reg.hostCtrl t).addr (v ||| 2))).bus p).pos
      let stat := if v.getLsbD 0 = true then 0 else s.reg (.hostStat t)
      let only (rs : Cells W32) (w : State) (x : W32) : Prop := ∀ q : Reg, decodeAddr q.addr = some q →
        cellGet rs q.addr q.reset = if q = .hostStat t then x else w.reg q
      let w : State := { s with freeCtr := s.freeCtr + uart.toNat }
      ((∀ x ∈ s.proto.replies, x.src ≠ .port p) ∨ (uart = false ∧ read = 0) → ∃ rs, only rs s stat ∧
        Answers (.abortRx h t v) h [] s { w with regs := rs }) ∧
      (∀ r pre post, s.proto.replies = pre ++ r :: post → (∀ x ∈ pre, x.src ≠ .port p) → r.src = .port p → uart = true ∨ read ≠ 0 →
        ∃ (k : Nat) (rs : Cells W32) (u : State), (uart = false → k = (read - 6) / 8) ∧
          let d := w.delivered p r k
          only rs d (putBits stat 23 16 (min 255 (bits stat.toNat 23 16 + 1))) ∧ Leads (.abortRx h t v) s u ∧
          u.proto.replies = pre ++ post ++ [{ replyOf h (s.nodeAddr.getD 0x40) .ok [] with ready := u.clk.frc }] ∧ AnsweredFrom { d with regs := rs } u) ∧
      ∀ (r : Reply) (k : Nat), r.q = none → s.delivered p r k = s)) ∧
  (∀ (h : Hdr) (v : W32) (s : State), Accepted h .hostBBaud v s →
    (3000000 < bits v.toNat 23 0 → s.onPll = false → Refuses (.hostBBaudWrite h v) h .stateConflict (Claims.clash s) s) ∧
    (∀ p, h.src = .port p → bits v.toNat 23 0 ≤ 3000000 ∨ s.onPll = true → ∃ rs, Answers (.hostBBaudWrite h v) h [] s
        { s with regs := rs, hostIf := { s.hostIf with ratePend := s.hostIf.ratePend ++ [(p, h.tag, bits v.toNat 23 0)] } } ∧
      ∀ q : Reg, decodeAddr q.addr = some q →
        cellGet rs q.addr q.reset = if q = .hostBBaud then putBits (s.reg q) 23 0 (bits v.toNat 23 0) else s.reg q)) ∧
  (∀ s : State,
    let runs := s.fabricOn = true ∧ s.proto.factory = false ∧ s.bit .supStatus 1 = true ∧ s.hostIf.strapB = .gnd
    let idle (b : Bool) : State := { s with hostIf := { s.hostIf with resync := b } }
    let heard : State := { s with hostIf := { s.hostIf with resync := true, rxAt := max s.hostIf.rxAt s.clk.frc } }
    (runs → s.deHigh = false → s.hostIf.resync = false →
      Claims.LeadsTo .uartGapTimeout s (idle true) [Claims.counted s (.hostStat 1) 15 8]) ∧
    (runs → s.deHigh = false → Claims.LeadsTo .uartBreak s heard [Claims.counted s (.hostStat 1) 31 24]) ∧
    (runs → Leads .uartRxResync s (idle false)) ∧
    (¬ runs ∨ s.deHigh = true ∨ s.hostIf.resync = true → Leads .uartGapTimeout s s) ∧
    (¬ runs ∨ s.deHigh = true → Leads .uartBreak s s) ∧ (¬ runs → Leads .uartRxResync s s)) ∧
  ∀ (p : Port) (n : Nat) (s : State),
    let t := portIx p
    let on := s.fabricOn = true ∧ s.proto.factory = false ∧ (if p = .a then s.hostIf.strapA else s.hostIf.strapB) = .high ∧
      (p = .a ∨ s.bit .supStatus 1 = true) ∧ s.proto.dev ≠ .boot
    let da := s.fld (.hostAddr t) 14 8
    let shows (bs : List Byte) : HostIf := { s.hostIf with ccc := (p, bs) :: s.hostIf.ccc.filter fun x => x.1 != p }
    let pid := Sys2Proof.pidMaker.toNat * 2 ^ 33 + 0x48360000 + Sys2Proof.pidInstance.toNat * 2 + t
    let two (k : Nat) : List Byte := [BitVec.ofNat 8 (k / 256), BitVec.ofNat 8 k]
    (∀ i : Instr, i = .entdaa p n ∨ i = .setdasa p n →
      (on → da = 0 → Claims.LeadsTo i s s [(.hostAddr t, putBits (s.reg (.hostAddr t)) 14 8 n)]) ∧ (¬ on ∨ da ≠ 0 → Leads i s s)) ∧
    (on → da ≠ 0 → Claims.LeadsTo (.setnewda p n) s s [(.hostAddr t, putBits (s.reg (.hostAddr t)) 14 8 n)]) ∧
    (¬ on ∨ da = 0 → Leads (.setnewda p n) s s) ∧
    (on → Claims.LeadsTo (.rstdaa p) s s [(.hostAddr t, putBits (s.reg (.hostAddr t)) 14 8 0)]) ∧ (¬ on → Leads (.rstdaa p) s s) ∧
    (∀ (i : Instr) (bs : List Byte),
      (i = .getpid p ∧ bs = (List.range 6).map fun k => BitVec.ofNat 8 (pid / 256 ^ (5 - k))) ∨ (i = .getbcr p ∧ bs = [0x06]) ∨
      (i = .getdcr p ∧ bs = [0x00]) ∨ (i = .getmwl p ∧ bs = two (if p = .a then s.hostIf.mwlA else s.hostIf.mwlB)) ∨
      (i = .getmrl p ∧ bs = two (if p = .a then s.hostIf.mrlA else s.hostIf.mrlB) ++ [2]) →
      (on → da ≠ 0 → Leads i s { s with hostIf := shows bs }) ∧ (¬ on ∨ da = 0 → Leads i s s)) ∧
    (on → da ≠ 0 → ∃ bs, bs.length = 2 ∧ Leads (.getstatus p) s { s with freeCtr := s.freeCtr + 1, hostIf := shows bs }) ∧
    (¬ on ∨ da = 0 → Leads (.getstatus p) s { s with freeCtr := s.freeCtr + 1 }) ∧
    (on → n % 2 = 1 → Claims.LeadsTo (.enec p n) s s [(.irqCtrl t, putBits (s.reg (.irqCtrl t)) 0 0 1)] ∧
      Claims.LeadsTo (.disec p n) s s [(.irqCtrl t, putBits (s.reg (.irqCtrl t)) 0 0 0)]) ∧
    (¬ on ∨ n % 2 = 0 → Leads (.enec p n) s s ∧ Leads (.disec p n) s s) ∧
    (on → Leads (.setmwl p n) s { s with hostIf := { s.hostIf with mwlA := if p = .a then min n 4165 else s.hostIf.mwlA
                                                                   mwlB := if p = .a then s.hostIf.mwlB else min n 4165 } } ∧
      Leads (.setmrl p n) s { s with hostIf := { s.hostIf with mrlA := if p = .a then min n 65535 else s.hostIf.mrlA
                                                               mrlB := if p = .a then s.hostIf.mrlB else min n 65535 } }) ∧
    (¬ on → Leads (.setmwl p n) s s ∧ Leads (.setmrl p n) s s)

/-- The sensor bus (R331 to R335): EN starts the schedule anew; the turn of the first due entry begins its transaction, or without VIO_S is
skipped and counted; what it sends is fixed then; one whose bus stops under it can only be abandoned (the model's choice, log entry 163);
an entry that is late at a tick boundary is abandoned, counted, raises source 19, and those not begun are skipped; a
transaction that ends well gives its field, left-aligned, as a record of its source, dated at its read phase less LAT in the epoch then in
force; one that fails counts in ERR, raises source 18 and repeats the last good value with FLT. Detectors and statistics slots of its source
take the record through the engine, which goes on. -/
def Obligations.PollsRun : Prop :=
  (∀ (h : Hdr) (v : W32) (s : State), Accepted h .sbusCfg v s →
    let again := v.getLsbD 31 = true ∧ s.bit .sbusCfg 31 = true
    (again → Claims.Sets (.sbusEnable h v) h [] s [(.sbusCfg, v &&& 0x80ff03ff)]) ∧
    (¬ again → ∃ u, Answers (.sbusEnable h v) h [] s u ∧ u.reg .sbusCfg = v &&& 0x80ff03ff ∧ Claims.Keeps [.sbusCfg] s u ∧
      (∀ k, k < 8 → u.poll k = { good := (s.poll k).good }) ∧ u = { s with regs := u.regs, polls := u.polls, sbusTicks := 0 })) ∧
  ∀ (k : Nat) (s : State), k < 8 → s.fabricOn = true →
    let p := s.poll k
    let turn := p.due = true ∧ ∀ j, j < k → (s.poll j).due = false
    let others (u : State) : Prop := ∀ j, j < 8 → j ≠ k → u.poll j = s.poll j
    (¬ turn → Leads (.pollDue k) s s) ∧
    (turn → s.bit .supStatus 2 = false → ∃ u, Leads (.pollDue k) s u ∧ u.poll k = { p with due := false } ∧ others u ∧
      u.reg (.sbusSpCnt k) = (Claims.counted s (.sbusSpCnt k) 7 0).2 ∧ Claims.Keeps [.sbusSpCnt k] s u ∧
      u = { s with regs := u.regs, polls := u.polls }) ∧
    (turn → s.bit .supStatus 2 = true → (∃ j, j < 8 ∧ (s.poll j).busy = true) → Leads (.pollDue k) s s) ∧
    (turn → s.bit .supStatus 2 = true → (∀ j, j < 8 → (s.poll j).busy = false) → ∃ u, Leads (.pollDue k) s u ∧
      let cfg := (s.reg (.sbusSpCfg k)).toNat
      let x := (s.reg (.sbusSpXtr k)).toNat
      let wr : List Byte := [(s.reg (.sbusSpWr k)).extractLsb' 24 8, (s.reg (.sbusSpWr k)).extractLsb' 16 8,
        (s.reg (.sbusSpWr k)).extractLsb' 8 8, (s.reg (.sbusSpWr k)).extractLsb' 0 8]
      u.poll k = { p with due := false, busy := true, busyAt := s.clk.mclk, cut := false
                          xfer := { spi := decide (bits cfg 29 29 = 1), sel := if bits cfg 29 29 = 1 then bits cfg 28 28 else bits x 6 0
                                    mode := bits cfg 27 26, read := bits x 21 19, write := wr.take (bits x 24 22) } } ∧
      others u ∧ u = { s with polls := u.polls }) ∧
    (p.late = false → p.skip = false → Leads (.pollAbandon k) s s) ∧
    (p.late = true ∨ p.skip = true → ∃ u, Leads (.pollAbandon k) s (if p.late = true then u.engineRun else u) ∧
      u.irq = (if p.late = true then (s.irqFire 19).irq else s.irq) ∧
      (∀ j, j < 8 →
        u.poll j = { s.poll j with skip := false, busy := (s.poll j).busy && !(p.late && decide (j = k))
                                   late := (s.poll j).late && decide (j ≠ k), cut := (s.poll j).cut && !(p.late && decide (j = k)) } ∧
        let c := if p.late = true ∧ j = k then (Claims.counted s (.sbusSpCnt k) 15 8).2 else s.reg (.sbusSpCnt j)
        u.reg (.sbusSpCnt j) = if (s.poll j).skip = true then putBits c 7 0 (min 255 (bits c.toNat 7 0 + 1)) else c) ∧
      (∀ q : Reg, decodeAddr q.addr = some q → (∀ t w, q ≠ .irqLost t w) → (∀ j, q ≠ .sbusSpCnt j) → u.reg q = s.reg q) ∧
      u = { s with regs := u.regs, polls := u.polls, irq := u.irq }) ∧
    ∀ (back : Nat) (ok : Bool) (bytes : List Byte),
      (p.busy = false ∨ p.late = true ∨ p.cut = true → Leads (.pollComplete k back ok bytes) s s) ∧
      (p.busy = true → p.late = false → p.cut = false →
        let x := (s.reg (.sbusSpXtr k)).toNat
        let good := ok = true ∧ bytes.length = p.xfer.read ∧ (bits x 27 27 = 0 ∨ crc8 bytes.dropLast = bytes.getLastD 0)
        let all := if bits x 25 25 = 1 then ofLe bytes.reverse else ofLe bytes
        let wid := bits x 12 7
        let field := all / 2 ^ bits x 18 13 % 2 ^ wid
        ∃ (u : State) (v : W36) (tm : Stamp) (more : List (Nat × RUnit)) (period : Nat), Leads (.pollComplete k back ok bytes) s u.engineRun ∧
          u.poll k = { p with busy := false, good := v } ∧ others u ∧
          (good → bits x 18 13 + wid ≤ 8 * bytes.length → bits x 26 26 = 1 → v = BitVec.ofNat 36 (field * 2 ^ (36 - wid))) ∧
          (good → bits x 18 13 + wid ≤ 8 * bytes.length → bits x 26 26 = 0 → wid < 36 → v = BitVec.ofNat 36 (field * 2 ^ (35 - wid))) ∧
          (¬ good → v = p.good ∧ u.reg (.sbusSpCnt k) = (Claims.counted s (.sbusSpCnt k) 31 16).2 ∧ u.bit .sbusStatus k = true ∧
            (s.irq.insv.getLsbD 18 = false → u.irq.pend.getLsbD 18 = true)) ∧
          (good → Claims.KeepsButLost s u) ∧
          (∀ q : Reg, decodeAddr q.addr = some q → (∀ t w, q ≠ .irqLost t w) → q ≠ .sbusSpCnt k → q ≠ .sbusStatus → u.reg q = s.reg q) ∧
          (let edge : Int := s.clk.frc - back
           tm.t = ((s.stampAt edge edge tm.clk).t + 2 ^ 64 - bits x 31 28 * 64000) % 2 ^ 64 ∧ tm.ep = (s.epochAt edge).1) ∧
          (∃ j, u.eng = { s.eng with jobs := s.eng.jobs ++ [j] } ∧ j.source = 48 + k ∧ j.val = v.toInt ∧ j.meas = tm ∧ j.fin = true ∧ j.left = true ∧
            ∀ t : Stage, (∃ g ∈ j.todo, g.st = t) ↔ (∃ d, d < 8 ∧ t = .det d ∧ s.bit (.dtCfg d) 31 = true ∧ s.fld (.dtCfg d) 13 8 = 48 + k) ∨
              ∃ i, i < 32 ∧ t = .stat i ∧ (s.stat i).run = true ∧ s.fld (.statCfg i) 5 0 = 48 + k) ∧
          (let fs := flagIf (!decide good) flagFLT ||| flagIf tm.clk flagCLK
           let stamp := s.bit (.sbusSpCfg k) 30
           let e : RUnit := { src := 48 + k, recs := { source := 48 + k, flags := fs, value := v } :: (if stamp = true then stampPair tm else [])
                              tm := tm, stamped := stamp, period := period }
           u.weir = { s.weir with mv0 := s.weir.mv0 ++
             (((List.range 16).filter fun q => s.qOn q && s.qTakes q (48 + k)).map fun q => (q, e)) ++ more }) ∧
          u = { s with regs := u.regs, polls := u.polls, irq := u.irq, melds := u.melds, weir := u.weir, freeCtr := u.freeCtr
                       eng := u.eng })

/-! ### The link (R336 to R355) -/

/-- Every register but the listed and the lost-event bits keeps its word. -/
def Claims.KeepsBut (l : List Reg) (s u : State) : Prop :=
  ∀ q : Reg, decodeAddr q.addr = some q → (∀ t w, q ≠ .irqLost t w) → q ∉ l → u.reg q = s.reg q
/-- What the movers are handed for an event with a stamp, to every enabled queue. -/
def Claims.eventTo (s : State) (code : Nat) (tm : Stamp) : List (Nat × RUnit) :=
  ((List.range 16).filter s.qOn).map fun q => (q, eventUnit code tm)
/-- A software stamp of an event that happens now: the sample is taken `late` TCLK periods later, at most 9 µs, and the nominal 1.1 µs is
subtracted (R367; when it is taken is the model's choice, log entry 45). -/
def Claims.softStamp (s : State) (late : Nat) : Stamp :=
  { t := ((s.stampAt (s.clk.frc + late) (s.clk.frc + late) false).t + (2 ^ 64 - 1100)) % 2 ^ 64, clk := s.now.clk, ep := s.now.ep }
/-- A HEL frame of this node with a word LAST (R341). -/
def Claims.hel (s : State) (last : Nat) : Bool × Option Nat × Frame :=
  (true, none, { type := 0x0c, dest := 0x7f, src := s.fld .linkNode 7 0, payload := [BitVec.ofNat 8 (s.fld .linkNode 7 0), BitVec.ofNat 8 last] })
/-- Frames that join those waiting at a port: 0 upstream, 1 downstream. -/
def Claims.queued (p : Nat) (xs : List (Bool × Option Nat × Frame)) (s : State) : State :=
  { s with link := { s.link with up := { s.link.up with tx := s.link.up.tx ++ if p = 0 then xs else [] }
                                 dn := { s.link.dn with tx := s.link.dn.tx ++ if p = 0 then [] else xs } } }
/-- The HEL frame that a change of the downstream port sends upstream (R350). -/
def Claims.helUp (p last : Nat) (s : State) : List (Bool × Option Nat × Frame) := if p = 1 ∧ s.portUp 0 = true then [Claims.hel s last] else []
/-- Port p goes to a state and a rate: its interrupt source, and the event of a change to or from UP (R338). -/
def Claims.PortMoves (p st rate : Nat) (also : List Reg) (s u : State) : Prop :=
  let was := s.fld (.linkPStat p) 1 0
  u.reg (.linkPStat p) = putBits (putBits (s.reg (.linkPStat p)) 1 0 st) 5 4 rate ∧ Claims.KeepsBut (.linkPStat p :: also) s u ∧
  u.irq = (s.irqFire (68 + p)).irq ∧
  (was ≠ 2 → st ≠ 2 → u.weir = s.weir ∧ u.freeCtr = s.freeCtr) ∧
  (was = 2 ∨ st = 2 → ∃ late, late ≤ 221 ∧ u.freeCtr = s.freeCtr + 1 ∧ u.weir = { s.weir with
    mv0 := s.weir.mv0 ++ Claims.eventTo s (if was = 2 then 0x1910 + p else 0x1912 + p) (Claims.softStamp s late) })
/-- LINK_Pp_ERR after code errors, retrains and frames that could not leave (R317, R342, R343, R346). -/
def Claims.errWord (e : W32) (codes trains dropped : Nat) : W32 :=
  putBits (putBits (putBits e 15 8 (min 255 (bits e.toNat 15 8 + codes))) 31 24 (min 255 (bits e.toNat 31 24 + trains)))
    7 0 (min 255 (bits e.toNat 7 0 + dropped))
/-- No command waits at a port. -/
def Claims.NoCmd (p : Nat) (s : State) : Prop := ∀ x ∈ (s.lport p).tx, x.2.2.type ≠ 1
/-- Credits of 16 bytes that a frame takes: header, payload and its CRC, one for a short frame (R340). -/
def Claims.credits (f : Frame) : Nat := if f.payload = [] then 1 else (25 + f.payload.length) / 16
/-- A port that changes state now, its counts new and nothing waiting (R346). -/
def Claims.anew (p : Nat) (s : State) : LinkPort := { since := s.clk.frc, rateAt := s.clk.frc, out := (s.lport p).out }
/-- `s` with port p anew; the frames of other nodes that waited there leave the buffers of the ports by which they came, whose credits they
held (R345). -/
def Claims.portCleared (p : Nat) (s : State) : State :=
  let freed (q : Nat) (l : LinkPort) : LinkPort :=
    { l with freed := ((s.lport p).tx.filter fun x => x.2.1 == some q).foldl (fun a x => (a + Claims.credits x.2.2) % 256) l.freed }
  (s.setLport p (freed p (Claims.anew p s))).setLport (1 - p) (freed (1 - p) (s.lport (1 - p)))
/-- An UP port retrains (R338, R342, R343, R346): TRAIN at the lowest rate, counts anew, waiting frames discarded and counted, RETRAIN counted
(once and for each lost frame). -/
def Claims.Retrained (p codes lost : Nat) (s u : State) : Prop :=
  Claims.PortMoves p 1 0 [.linkPErr p] s u ∧ u.reg (.linkPErr p) = Claims.errWord (s.reg (.linkPErr p)) codes (1 + lost) (s.lport p).tx.length ∧
  u.link = (Claims.queued 0 (Claims.helUp p (s.fld .linkNode 23 16) s) (Claims.portCleared p s)).link ∧
  u = { s with regs := u.regs, irq := u.irq, weir := u.weir, link := u.link, freeCtr := u.freeCtr }
/-- A port goes DOWN (R338, R343, R349): waiting frames are discarded and counted, LAST of a lost downstream is 0xFF, the ownership of a source
beyond the port ends. -/
def Claims.WentDown (p : Nat) (s u : State) : Prop :=
  let last := if p = 1 then 0xff else s.fld .linkNode 23 16
  let beyond (n : Nat) : Prop := ∀ a, s.nodeAddr = some a → if p = 0 then n < a else a < n
  let ends : Prop := ∃ n q, s.proto.owner = some (.link n q) ∧ beyond n
  Claims.PortMoves p 0 0 [.linkPErr p, .linkNode] s u ∧
  u.reg (.linkPErr p) = Claims.errWord (s.reg (.linkPErr p)) 0 0 (s.lport p).tx.length ∧
  u.reg .linkNode = (if p = 1 then putBits (s.reg .linkNode) 23 16 0xff else s.reg .linkNode) ∧
  u.link = (Claims.queued 0 (Claims.helUp p last s) (Claims.portCleared p s)).link ∧
  (ends → u.proto = { s.proto with owner := none
                                   staging := s.proto.staging.filter fun x => decide (some x.1 ≠ s.proto.owner)
                                   lapsed := s.proto.owner.map fun o => (o, min s.proto.deadline s.clk.frc) }) ∧
  (¬ ends → u.proto = s.proto) ∧
  u = { s with regs := u.regs, irq := u.irq, weir := u.weir, link := u.link, proto := u.proto, freeCtr := u.freeCtr }
/-- A command of an own host whose first frame waits at a port that ceases to be UP is answered here (R343, R349). -/
def Claims.OwnCommandsAreAnswered : Prop :=
  ∀ (i : Instr) (p : Nat) (s : State) (f : Frame) (h : Hdr) (port : Port) (op due : Nat), p < 2 → s.fabricOn = true → s.portUp p = true →
    (i = .signalLoss p ∨ ∃ lost codes, i = .headerCrcError p lost codes) → (s.lport p).tx = [(false, none, f)] → f.type = 1 →
    f.payload.headD 1 = 0 → s.proto.longs = [(h, .forward f.dest op due)] → h.src = .port port → h.tag = (f.payload.getD 6 0).toNat →
    (f.payload.getD 1 0).getLsbD 1 = decide (port = .b) →
    ∃ u, Leads i s u ∧ u.proto.longs = [] ∧ (u.lport p).tx = [] ∧
      u.proto.replies = s.proto.replies ++ [{ replyOf h (s.nodeAddr.getD 0x40) .linkTimeout [] with ready := u.clk.frc }]
/-- A step of the idle time base at a port (R344, R345, R351, R353, R364): of the waiting frames an urgent one goes before regular ones, a forwarded one
before this node's, the oldest first; it leaves where its credits are held, a regular one leaving two, and else marks since when they lack. A
TIM leaves with the time of its SOF, a forwarded frame frees the credits of the port by which it came, a REC moves R, and its END starts the wait for the ACK. -/
def Claims.FramesLeave : Prop :=
  ∀ (p : Nat) (s : State), p < 2 →
    let x := s.lport p
    let order (e : Bool × Option Nat × Frame) : Nat := (if e.1 = true then 0 else 2) + if e.2.1.isSome = true then 0 else 1
    (s.portUp p = false ∨ x.tx = [] → State.sendHead s p = s) ∧
    ∀ (pre post : List (Bool × Option Nat × Frame)) (urgent : Bool) (via : Option Nat) (f : Frame), s.portUp p = true →
      x.tx = pre ++ (urgent, via, f) :: post →
      (∀ e ∈ pre, order (urgent, via, f) < order e) → (∀ e ∈ post, order (urgent, via, f) ≤ order e) →
      let c := Claims.credits f
      let held := 16 - (x.sent + 256 - x.last % 256) % 256
      let out : Frame := if f.type = 0x0a then { f with payload := leBytes 8 (Claims.timeNow s) ++ f.payload.drop 8 } else f
      let w : State := s.setLport p { x with tx := pre ++ post, sent := (x.sent + c) % 256, stuck := none, out := some out }
      let enough := if urgent = true then c ≤ held else c + 2 ≤ held
      let b := (f.payload.headD 0).toNat
      (¬ enough → State.sendHead s p = s.setLport p { x with stuck := some (x.stuck.getD s.clk.frc) }) ∧
      (∀ q, enough → via = some q → State.sendHead s p = w.setLport q { w.lport q with freed := ((w.lport q).freed + c) % 256 }) ∧
      (enough → via = none → f.type ≠ 3 → State.sendHead s p = w) ∧
      (enough → via = none → f.type = 3 → ∃ v u : State, (s.qOn (b % 16) = true → Claims.Evaluated (b % 16) v u) ∧
        (s.qOn (b % 16) = false → u = w) ∧ v = { w with queues := v.queues } ∧
        (∀ j, v.queue j = if j = b % 16 then
          { s.queue j with r := min (s.queue j).c ((s.queue j).r + (f.payload.length - 4) / 8) } else s.queue j) ∧
        State.sendHead s p = { u with link := { w.link with unacked := s.link.unacked.map fun y =>
          if b / 32 % 2 = 1 ∧ y.q = b % 16 ∧ y.seq = (f.payload.getD 1 0).toNat then { y with at_ := some s.clk.frc } else y } })
/-- A queue whose packets are sent again (R277, R353): R returns to F, whereupon its threshold is evaluated, its waiting frames
are dropped, and no ACK is awaited of what has left, though one that comes still counts. -/
def Claims.QueuesAreSentAgain : Prop :=
  ∀ (q : Nat) (s : State), q < 16 →
    let own (x : Bool × Option Nat × Frame) : Bool := x.2.1.isNone && decide (x.2.2.type = 3) && decide ((x.2.2.payload.headD 0).toNat % 16 = q)
    let drop (l : LinkPort) : LinkPort := { l with tx := l.tx.filter fun x => !own x }
    ∃ v u : State, Claims.Evaluated q v u ∧ v = { s with queues := v.queues } ∧
      (∀ j, v.queue j = if j = q then { s.queue q with r := (s.queue q).f } else s.queue j) ∧
      State.resend s q = { u with link := { s.link with unacked := s.link.unacked.map (fun x => if x.q = q then { x with at_ := none } else x)
                                                        up := drop s.link.up, dn := drop s.link.dn } }
/-- The line (R339, R340, R342): a receiver reads a frame back from its symbols, with CRD pairs anywhere between them; a header whose HCRC differs
is a header error, and a payload whose length or PCRC differs a payload error with the frame's credits. A port sends TRN sets in TRAIN, in UP
its frames or IDLE with its count of freed credits, and nothing while DOWN (the names Dx.y and the byte order of PCRC are log entry 176's). -/
def Claims.FramesCrossTheLine : Prop :=
  (∀ f : Frame, f.type < 256 → f.dest < 256 → f.src < 256 → f.payload.length < 65536 →
    ∀ (a b : List Sym) (n : Nat), frameSyms f = a ++ b → readFrame (a ++ b) = .frame f ∧ readFrame (a ++ crdSyms n ++ b) = .frame f) ∧
  (∀ bs : List Byte, let line : List Sym := .k 27 7 :: bs.map .d ++ [.k 29 7]
    let n := ofLe ((bs.drop 3).take 2)
    let xs := (bs.drop 6).take n
    (bs.length < 6 ∨ crc8 (bs.take 5) ≠ bs.getD 5 0 → readFrame line = .headerError) ∧
    (6 ≤ bs.length → crc8 (bs.take 5) = bs.getD 5 0 →
      bs.drop 6 ≠ xs ++ (if n = 0 then [] else leBytes 4 (crc32 xs).toNat) ∨ xs.length ≠ n →
      readFrame line = .payloadError (if n = 0 then 1 else (25 + n) / 16))) ∧
  ∀ (s : State) (p : Nat),
    let st := s.fld (.linkPStat p) 1 0
    (st = 0 → s.lineOut p = []) ∧
    (st = 1 → s.lineOut p = [.k 28 5, .d 0xb5, .d (BitVec.ofNat 8 (s.fld (.linkPStat p) 5 4)), .d (BitVec.ofNat 8 (s.fld .linkCfg 25 24))]) ∧
    (st = 2 → s.lineOut p = (match (s.lport p).out with | some f => frameSyms f | none => [.k 28 5, .d 0x50]) ++
      [.k 28 1, .d (BitVec.ofNat 8 (s.lport p).freed)])
/-- The states of a port (R338, R342 to R346, R349, R350, R353, R364): an enabled DOWN port that hears a signal, or has been DOWN for 10 ms, trains;
training moves up to the rate asked for, limited by BAUD_MAX and by rates that have failed, then UP, with HEL to the neighbour, and queues
bound for a sink beyond it are sent again from F (log entry 175 for what had left); 100 µs at a rate give the next lower one, 1 ms in TRAIN gives DOWN; errors, credits that the
head frame has lacked for 100 µs, and RETRAIN send an UP port back to TRAIN; a damaged frame is discarded, counted and its credits returned;
waiting frames leave as their credits allow. Frames read back from the line's symbols (R339, R340). -/
def Obligations.LinkPortsTrain : Prop :=
  Claims.FramesCrossTheLine ∧ Claims.QueuesAreSentAgain ∧ Claims.FramesLeave ∧ Claims.OwnCommandsAreAnswered ∧
  (∀ (p : Nat) (s : State), p < 2 → s.fabricOn = true →
    let st := s.fld (.linkPStat p) 1 0
    let rate := s.fld (.linkPStat p) 5 4
    let x := s.lport p
    let due := x.since + 245760 ≤ s.clk.frc
    (∀ i : Instr, i = .portSignalDetect p ∨ (i = .trainRetry p ∧ due) →
      (s.bit .linkCfg p = true → st = 0 → ∃ u, Leads i s u ∧ Claims.PortMoves p 1 0 [] s u ∧
        u.link = (Claims.queued 0 (Claims.helUp p (s.fld .linkNode 23 16) s)
          (s.setLport p { x with since := s.clk.frc, rateAt := s.clk.frc, cap := 2 })).link ∧
        u = { s with regs := u.regs, irq := u.irq, weir := u.weir, link := u.link }) ∧
      (s.bit .linkCfg p = false ∨ st ≠ 0 → Leads i s s)) ∧
    (¬ due → Leads (.trainRetry p) s s) ∧
    (∀ r : Nat, let top := min (min r (s.fld .linkCfg 25 24)) x.cap
      (st ≠ 1 → Leads (.trainComplete p r) s s) ∧
      (st = 1 → rate < top → Claims.LeadsTo (.trainComplete p r) s (s.setLport p { x with rateAt := s.clk.frc })
        [(.linkPStat p, putBits (s.reg (.linkPStat p)) 5 4 top)]) ∧
      (st = 1 → top ≤ rate →
        let sink := s.fld .linkCfg 31 26
        let again (q : Nat) : Bool := (match s.nodeAddr with
            | none => true
            | some a => if p = 0 then decide (sink < a) else decide (a < sink)) && s.qOn q && decide (s.fld (.weirCfg q) 30 29 = 3)
        ∃ u, Leads (.trainComplete p r) s (((List.range 16).filter again).foldl State.resend u) ∧ Claims.PortMoves p 2 rate [] s u ∧
          u.link = (Claims.queued p [Claims.hel s (s.fld .linkNode 23 16)] (Claims.queued 0 (Claims.helUp p (s.fld .linkNode 23 16) s)
            (s.setLport p (Claims.anew p s)))).link ∧
          u = { s with regs := u.regs, irq := u.irq, weir := u.weir, link := u.link, freeCtr := u.freeCtr })) ∧
    (st ≠ 1 ∨ (s.clk.frc < x.since + 24576 ∧ (rate = 0 ∨ s.clk.frc < x.rateAt + 2458)) → Leads (.trainTimeout p) s s) ∧
    (st = 1 → s.clk.frc < x.since + 24576 → rate ≠ 0 → x.rateAt + 2458 ≤ s.clk.frc →
      Claims.LeadsTo (.trainTimeout p) s (s.setLport p { x with rateAt := s.clk.frc, cap := rate - 1 })
        [(.linkPStat p, putBits (s.reg (.linkPStat p)) 5 4 (rate - 1))]) ∧
    (st = 0 → Leads (.signalLoss p) s s) ∧
    (∀ i : Instr, (i = .signalLoss p ∧ st ≠ 0) ∨ (i = .trainTimeout p ∧ st = 1 ∧ x.since + 24576 ≤ s.clk.frc) →
      (Claims.NoCmd p s → ∃ u, Leads i s u ∧ Claims.WentDown p s u) ∧
      ∃ u, Leads i s u ∧ u.fld (.linkPStat p) 1 0 = 0 ∧ u.lport p = Claims.anew p s) ∧
    ∀ (codes lost credits n : Nat),
      let excess := 16 < (x.sent + 256 - n % 256) % 256
      let stuck := ∃ t, x.stuck = some t ∧ t + 2458 ≤ s.clk.frc
      (st ≠ 2 ∨ ¬ stuck → Leads (.creditTimeout p lost) s s) ∧
      (st ≠ 2 → Leads (.headerCrcError p lost codes) s s ∧ Leads (.crd p n lost) s s ∧
        Leads (.frameCrcError p credits codes) s s) ∧
      (st = 2 → Claims.NoCmd p s → (∃ u, Leads (.headerCrcError p lost codes) s u ∧ Claims.Retrained p codes lost s u) ∧
        (stuck → ∃ u, Leads (.creditTimeout p lost) s u ∧ Claims.Retrained p 0 lost s u) ∧
        (excess → ∃ u, Leads (.crd p n lost) s u ∧ Claims.Retrained p 0 lost s u)) ∧
      (∀ i : Instr, st = 2 → i = .headerCrcError p lost codes ∨ (i = .creditTimeout p lost ∧ stuck) ∨ (i = .crd p n lost ∧ excess) →
        ∃ u, Leads i s u ∧ u.fld (.linkPStat p) 1 0 = 1 ∧ u.lport p = Claims.anew p s) ∧
      (st = 2 → ¬ excess → Leads (.crd p n lost) s (s.setLport p { x with last := n % 256, stuck := none })) ∧
      (st = 2 → ∃ u, Leads (.frameCrcError p credits codes) s u ∧ Claims.KeepsBut [.linkPErr p] s u ∧ u.irq = (s.irqFire 70).irq ∧
        u.reg (.linkPErr p) = putBits (Claims.errWord (s.reg (.linkPErr p)) codes 0 0) 23 16 (min 255 (s.fld (.linkPErr p) 23 16 + 1)) ∧
        u = { s.setLport p { x with freed := (x.freed + credits) % 256 } with regs := u.regs, irq := u.irq })) ∧
  ∀ (h : Hdr) (p : Nat) (v : W32) (s : State) (i : Instr) (m : W32), (i = .retrainU h v ∧ p = 0 ∧ m = 1) ∨ (i = .retrainD h v ∧ p = 1 ∧ m = 2) →
    v &&& 0xf &&& ~~~ m = 0 → Accepted h .linkCtrl (v ||| m) s →
    (s.portUp p = false → Answers i h [] s s) ∧
    (s.portUp p = true → Claims.NoCmd p s →
      ∃ u, Answers i h [] s u ∧ Claims.Retrained p 0 (if p = 0 then h.cut.1 else h.cut.2) s u)

/-- Frames that go before regular ones (R341). -/
def Claims.urgent (f : Frame) : Bool := decide (f.type = 4 ∨ (8 ≤ f.type ∧ f.type ≤ 12))
/-- The receiver of a port frees the credits of a frame (R345). -/
def Claims.freed (p : Nat) (f : Frame) (s : State) : State := s.setLport p { s.lport p with freed := ((s.lport p).freed + Claims.credits f) % 256 }
/-- A frame taken by this node: its credits return, or it also leaves through the other port where it is broadcast (R343, R345). ENU, HEL and
TIM go no further than the neighbour. -/
def Claims.took (p : Nat) (f : Frame) (s : State) : State :=
  if f.type < 0x0a ∧ f.dest = 0x7f ∧ s.portUp (1 - p) = true then Claims.queued (1 - p) [(Claims.urgent f, some p, f)] s else Claims.freed p f s
/-- Port, type and frame of a row that stands for the arrival of a frame of one type. -/
def Claims.frameOf : Instr → Option (Nat × Nat × Frame)
  | .cmdFrame p f _ _ => some (p, 0x01, f)
  | .rplFrame p f _ => some (p, 0x02, f)
  | .recFrame p f _ _ => some (p, 0x03, f)
  | .ackFrame p f => some (p, 0x04, f)
  | .evtFrame p f => some (p, 0x08, f)
  | .synFrame p f => some (p, 0x09, f)
  | .timFrame p f _ => some (p, 0x0a, f)
  | .enuFrame p f => some (p, 0x0b, f)
  | .helFrame p f => some (p, 0x0c, f)
  | _ => none
/-- Such a frame arrives at an UP port and this node takes it (R343). -/
def Claims.Arrives (i : Instr) (p : Nat) (f : Frame) (s : State) : Prop :=
  p < 2 ∧ s.fabricOn = true ∧ s.portUp p = true ∧ ∃ ty, Claims.frameOf i = some (p, ty, f) ∧ f.type = ty ∧
    (0x0a ≤ ty ∨ f.dest = 0x7f ∨ s.nodeAddr = some f.dest)
/-- The groups of a mask that take link syncs, and their request for a time (R355). -/
def Claims.syncsAt (m t : Nat) (s : State) (l : List (Nat × Nat)) : Prop :=
  ∃ k, k < 256 ∧ (∀ g, g < 8 → (k / 2 ^ g % 2 = 1 ↔ m / 2 ^ g % 2 = 1 ∧ s.bit (.sluSgrp g) 2 = true)) ∧
    l = s.link.syns ++ if k = 0 then [] else [(k, t)]
/-- Frames (R290, R341, R343, R348 to R350, R354, R355): one for another node leaves through the port on its side, is discarded and counted where
that is not UP, one of a reserved type always, a command's first fragment being answered with LINK_TIMEOUT; CMD fragments join up and their packet runs with its node and
port as source; RPL ends a forwarded command or counts as late; EVT fires its producer; SYN asks for a sync; ENU gives an address or a
count (`setNode`, statement NodesAreEnumerated); HEL shows the neighbour, and a LAST that takes in the sink again has the queues sent again from F. A write of LINK_SYNCTX.FIRE sends SYN and syncs here,
and is refused without a delay. -/
def Obligations.FramesAreTaken : Prop :=
  (∀ (i : Instr) (p ty : Nat) (f : Frame) (s : State), p < 2 → s.fabricOn = true →
    (Claims.frameOf i = some (p, ty, f) → s.portUp p = false ∨ f.type ≠ ty → Leads i s s) ∧
    (i = .frameForward p f → s.portUp p = false ∨ (f.type ∈ frameTypes ∧ (f.dest = 0x7f ∨ s.nodeAddr = some f.dest)) → Leads i s s) ∧
    (i = .frameForward p f → s.portUp p = true → f.type ∉ frameTypes →
      Claims.LeadsTo i s (Claims.freed p f s) [Claims.counted s (.linkPErr p) 23 16]) ∧
    ((Claims.frameOf i = some (p, ty, f) ∧ f.type = ty ∧ ty < 0x0a) ∨ (i = .frameForward p f ∧ f.type ∈ frameTypes) →
      s.portUp p = true → f.dest ≠ 0x7f → s.nodeAddr ≠ some f.dest → ∀ q : Nat,
      (s.nodeAddr = none ∧ q = 1 - p) ∨ (∃ a, s.nodeAddr = some a ∧ q = if a < f.dest then 1 else 0) →
      (s.portUp q = true → Leads i s (Claims.queued q [(Claims.urgent f, some p, f)] s)) ∧
      (s.portUp q = false → f.type ≠ 1 → Claims.LeadsTo i s (Claims.freed p f s) [Claims.counted s (.linkPErr q) 7 0]) ∧
      (s.portUp q = false → f.type = 1 → f.payload.headD 1 ≠ 0 → Leads i s (Claims.freed p f s)) ∧
      (s.portUp q = false → f.type = 1 → f.payload.headD 1 = 0 → f.src ≠ 0x7f → s.nodeAddr ≠ some f.src → ∀ b : Nat,
        b = (if s.nodeAddr.getD 0xff < f.src then 1 else 0) → s.portUp b = true →
        let port : Port := if (f.payload.getD 1 0).getLsbD 1 then .b else .a
        let r : Reply := { src := .link f.src port, tag := (f.payload.getD 6 0).toNat, node := s.nodeAddr.getD 0x40, status := .linkTimeout
                           data := [], frees := false }
        Leads i s (Claims.queued b ((cmdFrames 0x02 f.src (s.nodeAddr.getD 0xff) port (replyBytes r)).map fun g => (false, none, g))
          (Claims.freed p f s))))) ∧
  (∀ (p : Nat) (f : Frame) (s : State),
    let w := Claims.took p f s
    let byte (k : Nat) : Nat := (f.payload.getD k 0).toNat
    let portB := (f.payload.getD 1 0).getLsbD 1
    let rest (reply : Bool) := s.link.asm.filter fun x => !(decide (x.1 = f.src) && x.2.1 == reply && x.2.2.1 == portB)
    let asm (l : List (Nat × Bool × Bool × List Byte)) : State := { w with link := { w.link with asm := l } }
    (∀ (rx : Nat) (seen : Seen), Claims.Arrives (.cmdFrame p f rx seen) p f s →
      let i : Instr := .cmdFrame p f rx seen
      let asm (l : List (Nat × Bool × Bool × List Byte)) : State := { w.wakeLatch 4 with link := { w.link with asm := l } }
      (byte 0 = 0 → byte 1 % 2 = 0 → Leads i s (asm (rest false ++ [(f.src, false, portB, f.payload.drop 2)]))) ∧
      (byte 0 ≠ 0 → (∀ x ∈ s.link.asm, ¬ (x.1 = f.src ∧ x.2.1 = false ∧ x.2.2.1 = portB)) → Leads i s (asm (rest false))) ∧
      ∀ (j : Instr) (h : Hdr) (c : HostCmd), j.wf = true → Claims.packetOf j = some (h, c) → byte 0 = 0 → byte 1 % 2 = 1 →
        f.payload.drop 2 = packetBytes h c →
          let h' : Hdr := { src := .link f.src (if portB then .b else .a), tag := h.tag, node := h.node, rx := rx, known := true, fit := true
                            ecc := seen.ecc, fix := seen.fix, errs := seen.errs, peer := seen.peer, refx := seen.refx, cut := seen.cut }
          let c' := commandOf (opcodeOf c) (paramsOf c) (min seen.shown (ofLe (((paramsOf c).drop 1).take 2))) seen.bad
          Leads i s ((asm (rest false)).submit h' c' (hostBody h' c'))) ∧
    (∀ old : Bool, Claims.Arrives (.rplFrame p f old) p f s → byte 0 = 0 → byte 1 % 2 = 0 →
      Leads (.rplFrame p f old) s (asm (rest true ++ [(f.src, true, portB, f.payload.drop 2)]))) ∧
    (∀ (old : Bool) (r : Reply), Claims.Arrives (.rplFrame p f old) p f s → byte 0 = 0 → byte 1 % 2 = 1 → f.payload.drop 2 = replyBytes r →
      r.node < 256 → r.tag < 256 → r.data.length < 65533 →
      let i : Instr := .rplFrame p f old
      let port : Port := if portB then .b else .a
      let late := (r.node, r.tag, port) ∈ s.proto.late
      let awaited (x : Hdr × LongOp) : Prop := x.1.src = .port port ∧ x.1.tag = r.tag ∧ ∃ op due, x.2 = .forward r.node op due
      (late → old = true ∨ (∀ x ∈ s.proto.longs, ¬ awaited x) → Claims.LeadsTo i s
        { asm (rest true) with proto := { s.proto with late := s.proto.late.erase (r.node, r.tag, port) } } [Claims.counted s .cmdLink 31 16]) ∧
      (∀ x, ¬ late ∨ old = false → s.proto.longs = [x] → awaited x →
        ∃ u, Leads i s u ∧
          u.proto.replies = s.proto.replies ++ [{ src := .port port, tag := r.tag, node := r.node, status := r.status, data := r.data
                                                  frees := true, ready := u.clk.frc }] ∧
          AnsweredFrom { asm (rest true) with proto := { s.proto with longs := [] } } u) ∧
      (¬ late → (∀ x ∈ s.proto.longs, ¬ awaited x) → Leads i s (asm (rest true)))) ∧
    (Claims.Arrives (.evtFrame p f) p f s →
      Leads (.evtFrame p f) s { w with route := { s.route with pend := s.route.pend ++ [{ cc := 52 + byte 0 % 4 }] } }) ∧
    (Claims.Arrives (.synFrame p f) p f s → let t := ofLe ((f.payload.drop 1).take 8)
      ∃ l, Claims.syncsAt (byte 0) t s l ∧
        (timeDiff s.now.t t < 0 → Leads (.synFrame p f) s { w with link := { w.link with syns := l } }) ∧
        (0 ≤ timeDiff s.now.t t → Claims.LeadsTo (.synFrame p f) s
          { w with link := { w.link with syns := l }, weir := { s.weir with mv0 := s.weir.mv0 ++ Claims.eventTo s 0x1905 s.now } }
          [(.linkStatus, putBits (s.reg .linkStatus) 3 3 1)])) ∧
    (Claims.Arrives (.enuFrame p f) p f s →
      let a := byte 0
      let own := s.fld .linkNode 7 0
      let enu (src a kind : Nat) : Bool × Option Nat × Frame :=
        (true, none, { type := 0x0b, dest := 0x7f, src := src, payload := [BitVec.ofNat 8 a, BitVec.ofNat 8 kind] })
      (f.payload.getD 1 0 = 0 → 64 ≤ a → Leads (.enuFrame p f) s (Claims.queued 0 (if s.portUp 0 then [enu own 64 1] else []) w)) ∧
      (f.payload.getD 1 0 = 0 → a < 64 → Leads (.enuFrame p f) s (Claims.queued (if s.portUp 1 then 1 else 0)
        (if s.portUp 1 then [enu a (a + 1) 0] else if s.portUp 0 then [enu a (a + 1) 1] else []) (w.setNode a))) ∧
      (f.payload.getD 1 0 ≠ 0 → s.portUp 0 = true → Leads (.enuFrame p f) s (Claims.queued 0 [enu own a 1] w)) ∧
      (f.payload.getD 1 0 ≠ 0 → s.portUp 0 = false → s.proto.longs = [] → Leads (.enuFrame p f) s w) ∧
      (f.payload.getD 1 0 ≠ 0 → s.portUp 0 = false → ∀ (h : Hdr) (o : Port), h.src = .port o → h.node ≠ 0x7f → s.proto.longs = [(h, .linkEnum)] →
        ∃ rs u, (∀ q : Reg, decodeAddr q.addr = some q → cellGet rs q.addr q.reset =
            if q = .linkNode then putBits (s.reg q) 15 8 a else if q = .linkStatus ∧ 64 ≤ a then putBits (s.reg q) 1 1 1 else s.reg q) ∧
          Leads (.enuFrame p f) s u ∧ Replies h .ok [BitVec.ofNat 8 a] s u ∧
          AnsweredFrom { w with regs := rs, proto := { s.proto with longs := [] } } u)) ∧
    (Claims.Arrives (.helFrame p f) p f s →
      let a := byte 0
      let last := if p = 1 then (if byte 1 = 0xff then a else byte 1) else s.fld .linkNode 23 16
      let fits : Prop := ∃ n, s.nodeAddr = some n ∧ if p = 0 then a + 1 = n else a = n + 1
      let sink := s.fld .linkCfg 31 26
      let reaches (l : Nat) : Prop := l ≠ 0xff ∧ sink ≤ l
      let back : Prop := p = 1 ∧ (∀ n, s.nodeAddr = some n → n < sink) ∧ reaches (last % 256) ∧ ¬ reaches (s.fld .linkNode 23 16)
      ∃ u, (¬ back → Leads (.helFrame p f) s u) ∧
        (back → Leads (.helFrame p f) s
          (((List.range 16).filter fun q => s.qOn q && decide (s.fld (.weirCfg q) 30 29 = 3)).foldl State.resend u)) ∧
        Claims.KeepsBut [.linkNode, .linkStatus] s u ∧ u.fld .linkNode 23 16 = last % 256 ∧
        u.reg .linkNode = putBits (s.reg .linkNode) 23 16 (u.fld .linkNode 23 16) ∧
        (fits → u.reg .linkStatus = s.reg .linkStatus ∧ u.irq = s.irq) ∧
        (¬ fits → u.reg .linkStatus = putBits (s.reg .linkStatus) 2 2 1 ∧ u.irq = (s.irqFire 71).irq) ∧
        u = { Claims.queued 0 (if p = 1 ∧ s.portUp 0 = true then [Claims.hel s last] else [])
                (w.setLport p { w.lport p with far := if a = 0xff then none else some a }) with regs := u.regs, irq := u.irq })) ∧
  ∀ (h : Hdr) (v : W32) (s : State),
    let m := bits v.toNat 15 8
    let t := (Claims.timeNow s + bits v.toNat 31 16 * 1000) % 2 ^ 64
    (Admitted h (.regWrite Reg.linkSynctx.addr v) s → bits v.toNat 31 16 = 0 → Refuses (.linkSyncFire h v) h .badParam [] s) ∧
    (Accepted h .linkSynctx v s → m = 0 → Claims.Sets (.linkSyncFire h v) h [] s [(.linkSynctx, v &&& 0xffff0001)]) ∧
    (Accepted h .linkSynctx v s → m ≠ 0 → ∃ l rs, Claims.syncsAt m t s l ∧
      (∀ q : Reg, decodeAddr q.addr = some q → cellGet rs q.addr q.reset = if q = .linkSynctx then v &&& 0xffff0001 else s.reg q) ∧
      let x : Bool × Option Nat × Frame := (true, none, { type := 0x09, dest := 0x7f, src := s.fld .linkNode 7 0, payload := BitVec.ofNat 8 m :: leBytes 8 t })
      let w := Claims.queued 1 (if s.portUp 1 then [x] else []) (Claims.queued 0 (if s.portUp 0 then [x] else []) s)
      Answers (.linkSyncFire h v) h [] s { w with regs := rs, link := { w.link with syns := l } })

/-- Words of queue q that wait in REC frames of this node (R351). -/
def Claims.ownRec (q : Nat) (x : Bool × Option Nat × Frame) : Bool :=
  x.2.1.isNone && decide (x.2.2.type = 3) && decide ((x.2.2.payload.headD 0).toNat % 16 = q)
/-- The word count from which queue q sends next. -/
def Claims.sendsFrom (s : State) (q : Nat) : Nat :=
  (s.queue q).r + ((s.link.up.tx ++ s.link.dn.tx).map fun x => if Claims.ownRec q x then (x.2.2.payload.length - 4) / 8 else 0).sum
/-- Queue q has a packet to send: on, OWNER 3, not halted, with committed words left (R351). -/
def Claims.sends (s : State) (q : Nat) : Prop :=
  s.qOn q = true ∧ s.fld (.weirCfg q) 30 29 = 3 ∧ (s.queue q).rhalt = false ∧ Claims.sendsFrom s q < (s.queue q).c
/-- The REC frames of a packet's words, 25 to a frame (R341, R351): queue, START, END, ABORT; SEQ; OFFSET; words. -/
def Claims.recFrames (s : State) (q seq : Nat) (ws : List W64) (abort : Bool) : List (Bool × Option Nat × Frame) :=
  let n := max 1 ((ws.length + 24) / 25)
  (List.range n).map fun i =>
    let b := q + (if i = 0 then 16 else 0) + if i + 1 = n then 32 + 64 * abort.toNat else 0
    let words := (ws.drop (25 * i)).take 25
    let bytes := [BitVec.ofNat 8 b, BitVec.ofNat 8 seq] ++ leBytes 2 (25 * i) ++ words.flatMap fun w => leBytes 8 w.toNat
    (false, none, { type := 0x03, dest := s.fld .linkCfg 31 26, src := s.fld .linkNode 7 0, payload := bytes })
/-- The port towards a node (R343). -/
def Claims.towards (s : State) (n : Nat) : Nat := if s.nodeAddr.getD 0xff < n then 1 else 0
/-- The frames of a packet join those that wait at a port: every other frame keeps its place, the frames of a queue keep their order, and the
queues' frames go in turn, the k-th waiting frame of each before the (k + 1)-th of any (R344, R351; log entry 133). -/
def Claims.RecordsTakeTurns : Prop :=
  ∀ (s : State) (p : Nat) (fs : List Frame), p < 2 → (∀ f ∈ fs, f.type = 3) →
    let own (x : Bool × Option Nat × Frame) : Bool := x.2.1.isNone && decide (x.2.2.type = 3)
    let q (f : Frame) : Nat := (f.payload.headD 0).toNat % 16
    let tx := (s.lport p).tx
    ∃ (l : List (Bool × Option Nat × Frame)) (r : List Frame), State.linkRecs s p fs = s.setLport p { s.lport p with tx := l } ∧
      r = (l.filter own).map (·.2.2) ∧ l.filter (fun x => !own x) = tx.filter (fun x => !own x) ∧
      (∀ n, r.filter (fun f => q f == n) = ((tx.filter own).map (·.2.2) ++ fs).filter fun f => q f == n) ∧
      (∀ (i j : Nat) (f g : Frame), i < j → r[i]? = some f → r[j]? = some g →
        (r.take i).countP (fun x => q x == q f) ≤ (r.take j).countP (fun x => q x == q g)) ∧
      ∀ (k : Nat) (x : Bool × Option Nat × Frame), tx[k]? = some x → own x = false → l[k]? = some x
/-- A packet that reaches the sink (R21, R282, R352): it becomes one of the local queue, behind the event of its origin, and is acknowledged; a
duplicate only that. Where its read meets an uncorrectable error the local packet closes with ABORTED, MV4 keeps the record and the write side
halts; it is acknowledged all the same (log entry 134). -/
def Claims.SinkStores (p : Nat) (f : Frame) (bad : Option Nat) (fixed : Nat) (ws : List W64) (s : State) : Prop :=
  let i : Instr := .recFrame p f bad fixed
  let b := (f.payload.getD 0 0).toNat
  let q := b % 16
  let seq := (f.payload.getD 1 0).toNat
  let rest := s.link.recs.filter fun r => !decide (r.origin = f.src ∧ r.queue = q)
  let w := Claims.took p f s
  let got : State := { w with eng := { s.eng with corrected := s.eng.corrected + fixed } }
  let lq := s.fld .linkRxq 3 0
  let last := ((s.link.acc.filter fun a => decide (a.1 = f.src ∧ a.2.1 = q)).map (·.2.2)).head?
  let dup := ∃ l, last = some l ∧ (l + 256 - seq) % 256 < 128
  let a := Claims.towards s f.src
  let ack : Bool × Option Nat × Frame :=
    (true, none, { type := 0x04, dest := f.src, src := s.fld .linkNode 7 0, payload := [BitVec.ofNat 8 q, BitVec.ofNat 8 seq] })
  let acked : State := Claims.queued a [ack] { got with link := { w.link with
    recs := rest, acc := (s.link.acc.filter fun x => !decide (x.1 = f.src ∧ x.2.1 = q)) ++ [(f.src, q, seq)] } }
  let head := (ws.headD 0).toNat
  let n := min (bits head 47 32) (8 * (ws.length - 2) / 6)
  let x := s.queue lq
  let fits (n : Nat) : Prop :=
    let wEnd := x.w + 2 + (6 * (n + 1) + 7) / 8
    n < 65535 ∧ f.src < 64 ∧ x.pkt = none ∧ x.whalt = false ∧ x.f ≤ x.w ∧ wEnd - x.f ≤ 512 * s.fld (.weirArea lq) 25 16 ∧
      (x.markValid = true → wEnd ≤ x.m + 512 * s.fld (.weirArea lq) 25 16) ∧ ∀ j, x.w ≤ j → j ≤ wEnd → s.allows (s.qAddr lq j) 0 = true
  (dup → Leads i s (Claims.queued a [ack] { got with link := { w.link with recs := rest } })) ∧
  (∀ m, ¬ dup → bad = some m → m < ws.length → fits (if m = 0 then 0 else min (bits head 47 32) (8 * (m - 2) / 6)) →
    ∃ (u : State) (place : Nat), Leads i s u ∧ place < 2 ^ 15 ∧ u.link = acked.link ∧ u.freeCtr = s.freeCtr + 1 ∧ u.eng = got.eng ∧
      u.reg (.moverStatus 4) = BitVec.ofNat 32 (2 ^ 31 + 2 * 2 ^ 24 + lq * 2 ^ 16) ∧
      u.reg (.moverFaddr 4) = BitVec.ofNat 32 (0x10000000 + 8 * place) ∧ (u.queue lq).whalt = true ∧ (u.queue lq).abortS = true ∧
      (u.queue lq).pkt = none ∧ (u.queue lq).seq = x.seq + 1 ∧
      (let y := (u.qWord lq x.w).toNat
       bits y 63 56 = x.seq % 256 ∧ bits y 52 52 = 1 ∧ bits y 48 48 = 1)) ∧
  (¬ dup → (∀ m, bad = some m → ws.length ≤ m) → fits n →
    let wEnd := x.w + 2 + (6 * (n + 1) + 7) / 8
    let bytes := leBytes 6 (62 * 2 ^ 42 + 0x1a00 + f.src) ++ (ws.drop 2).flatMap fun v => leBytes 8 v.toNat
    ∃ u, Leads i s u ∧
      u.queue lq = { x with w := wEnd, seq := x.seq + 1, closed := x.closed ++ [(wEnd, x.seq % 256)], truncNext := false, flushNext := false
                            thrHigh := (u.queue lq).thrHigh } ∧
      (∀ j, j ≠ lq → u.queue j = s.queue j) ∧ u.qWord lq (x.w + 1) = ws.getD 1 0 ∧
      (∀ k, k < 6 * (n + 1) → u.sramByte (s.qAddr lq (x.w + 2 + k / 8) + k % 8) = bytes.getD k 0) ∧
      (let y := (u.qWord lq x.w).toNat
       bits y 63 56 = x.seq % 256 ∧ bits y 47 32 = n + 1 ∧ bits y 23 0 = 6 * (n + 1) ∧ (bits head 51 51 = 1 → bits y 51 51 = 1) ∧
       (bits head 52 52 = 1 → bits y 52 52 = 1) ∧ (bits y 50 50 = 1 ↔ x.truncNext = true ∨ bits head 50 50 = 1) ∧
       (bits y 49 49 = 1 ↔ x.flushNext = true ∨ bits head 49 49 = 1) ∧ (bits y 48 48 = 1 ↔ b / 64 % 2 = 1 ∨ bits head 48 48 = 1)) ∧
      (∀ c, (∀ j, x.w ≤ j → j ≤ wEnd → ¬ Claims.inWord s lq j c) → u.sramByte c = s.sramByte c) ∧ Claims.KeepsButLost s u ∧
      (s.fld (.weirThr lq) 31 30 < 2 → u.irq = s.irq ∧ u.route = s.route) ∧
      u = { acked with sram := u.sram, queues := u.queues, irq := u.irq, route := u.route, regs := u.regs })
/-- Records over the link (R351 to R353): nothing is sent on the sink itself or while the port to it is not UP; the queues take turns, and so do their frames;
the next committed packet leaves whole in REC frames, a read fault ends it with ABORT and halts the read side; an ACK moves F, and R where it
lags, to the packet's end, and what waits of it and of those before it need not go (the model's choice, log entry 175); without an ACK R returns to F. At the sink frames join by origin, queue and OFFSET; the complete packet becomes
one of the local queue, behind the event of its origin, and is acknowledged; a duplicate only that; with LINK_RXQ or its queue off
neither. -/
def Obligations.RecordsCrossTheLink : Prop :=
  Claims.RecordsTakeTurns ∧ (∀ (bad : Option Nat) (fixed : Nat) (s : State), s.fabricOn = true →
    let i : Instr := .recSend bad fixed
    let sink := s.fld .linkCfg 31 26
    let port := if s.nodeAddr = none ∨ sink < s.nodeAddr.getD 0xff then 0 else 1
    let turn (k : Nat) : Nat := (s.link.lastQ + 1 + k) % 16
    (s.nodeAddr = some sink ∨ s.portUp port = false ∨ (∀ q, q < 16 → ¬ Claims.sends s q) → Leads i s s) ∧
    (∀ k : Nat, s.nodeAddr ≠ some sink → s.portUp port = true → k < 16 → Claims.sends s (turn k) → (∀ j, j < k → ¬ Claims.sends s (turn j)) →
      let q := turn k
      let start := Claims.sendsFrom s q
      let head := (s.qWord q start).toNat
      let seq := bits head 63 56
      let n := 2 + (6 * bits head 47 32 + 7) / 8
      let word (j : Nat) : W64 := s.qWord q (start + j)
      let sent (m : Nat) (abort : Bool) : State := State.linkRecs
        { s with eng := { s.eng with corrected := s.eng.corrected + fixed }
                 link := { s.link with
                   lastQ := q
                   unacked := s.link.unacked.filter (fun x => !(decide (x.q = q) && decide (x.till = start + m))) ++
                     [{ q := q, seq := seq, till := start + m }] } }
        port ((Claims.recFrames s q seq ((List.range m).map word) abort).map (·.2.2))
      (start + n ≤ (s.queue q).c → (∀ j, j < n → s.allows (s.qAddr q (start + j)) 1 = true) → (∀ m, bad = some m → n ≤ m) →
        Leads i s (sent n false)) ∧
      ∀ m : Nat, m < n → start + m < (s.queue q).c → (∀ j, j < m → s.allows (s.qAddr q (start + j)) 1 = true) →
        (∀ b, bad = some b → m ≤ b) → s.allows (s.qAddr q (start + m)) 1 = false ∨ bad = some m →
        let a := s.qAddr q (start + m)
        ∃ u, Leads i s u ∧ Claims.KeepsBut [.moverStatus 3, .moverFaddr 3] s u ∧ u.irq = (s.irqFire 51).irq ∧
          u.reg (.moverStatus 3) = BitVec.ofNat 32 (2 ^ 31 + (if s.allows a 1 = true then 2 else 1) * 2 ^ 24 + q * 2 ^ 16) ∧
          u.reg (.moverFaddr 3) = BitVec.ofNat 32 a ∧
          (∀ j, u.queue j = if j = q then { s.queue q with rhalt := true } else s.queue j) ∧
          u = { sent m true with regs := u.regs, irq := u.irq, queues := u.queues })) ∧
  (∀ (q : Nat) (s : State), s.fabricOn = true →
    let late := ∃ x ∈ s.link.unacked, x.q = q ∧ ∃ t, x.at_ = some t ∧ t + 4 * s.fld .cmdLink 15 0 * 24576 ≤ s.clk.frc
    (¬ late → Leads (.ackTimeout q) s s) ∧ (late → Leads (.ackTimeout q) s (State.resend s q))) ∧
  (∀ (p : Nat) (f : Frame) (s : State), Claims.Arrives (.ackFrame p f) p f s →
    let q := (f.payload.getD 0 0).toNat
    let seq := (f.payload.getD 1 0).toNat
    let w := Claims.took p f s
    ((∀ x ∈ s.link.unacked, ¬ (x.q = q ∧ x.seq = seq)) → Leads (.ackFrame p f) s w) ∧
    ∀ (pre post : List SentPkt) (y : SentPkt), q < 16 → s.link.unacked = pre ++ y :: post → y.q = q → y.seq = seq →
      (∀ x ∈ pre, ¬ (x.q = q ∧ x.seq = seq)) →
      let e := y.till
      ∃ v u : State, Leads (.ackFrame p f) s u ∧ Claims.Evaluated q v u ∧
        (∀ j, v.queue j = if j = q then { s.queue q with f := max (s.queue q).f e, r := max (s.queue q).r e } else s.queue j) ∧
        let upTo (x : SentPkt) : Bool := decide (x.q = q) && decide (x.till ≤ e)
        let keep (l : LinkPort) : LinkPort := { l with tx := l.tx.filter fun x => !(Claims.ownRec q x &&
          (s.link.unacked.filter upTo).any fun z => decide (z.seq = (x.2.2.payload.getD 1 0).toNat)) }
        v = { w with queues := v.queues
                     link := { w.link with unacked := s.link.unacked.filter (fun x => !upTo x), up := keep w.link.up, dn := keep w.link.dn } }) ∧
  ∀ (p : Nat) (f : Frame) (bad : Option Nat) (fixed : Nat) (s : State), Claims.Arrives (.recFrame p f bad fixed) p f s →
    let i : Instr := .recFrame p f bad fixed
    let b := (f.payload.getD 0 0).toNat
    let q := b % 16
    let off := ofLe ((f.payload.drop 2).take 2)
    let new : List W64 := (List.range (min 26 ((f.payload.length - 4) / 8))).map fun k => BitVec.ofNat 64 (ofLe ((f.payload.drop (4 + 8 * k)).take 8))
    let old : List W64 := if b / 16 % 2 = 1 then []
      else ((s.link.recs.filter fun r => decide (r.origin = f.src ∧ r.queue = q)).map (·.words)).headD []
    let rest := s.link.recs.filter fun r => !decide (r.origin = f.src ∧ r.queue = q)
    let w := Claims.took p f s
    let recs (l : List RecAsm) : State := { w with link := { w.link with recs := l } }
    let on := s.bit .linkRxq 31 = true ∧ s.qOn (s.fld .linkRxq 3 0) = true
    (off ≠ old.length → Leads i s (recs rest)) ∧
    (off = old.length → b / 32 % 2 = 0 → Leads i s (recs (rest ++ [{ origin := f.src, queue := q, words := old ++ new }]))) ∧
    (off = old.length → b / 32 % 2 = 1 → ¬ on → Leads i s (recs rest)) ∧
    (off = old.length → b / 32 % 2 = 1 → on → f.src ≠ 0x7f → s.nodeAddr ≠ some f.src → s.portUp (Claims.towards s f.src) = true →
      Claims.SinkStores p f bad fixed (old ++ new) s)

/-! ### The time servo (R359, R364 to R367) -/

/-- A field of TIME_SRV_CFG in force: a block in progress goes by the word of its start (R365, register table). -/
def Claims.srv (s : State) (hi lo : Nat) : Nat := bits ((s.servo.held.map (·.1)).getD (s.reg .timeSrvCfg)).toNat hi lo
/-- PRI in force. -/
def Claims.pri (s : State) : Nat := bits ((s.servo.held.map (·.2)).getD (s.reg .timeSrvPri)).toNat 7 0
/-- The TIM frame of a state (R341, R364): corrected time, the master and PRI followed (a MASTER's own, and the node's own where it follows
none), hops and one, STEPSEQ, the FORCED of that STEPSEQ. -/
def Claims.tim (s : State) : Bool × Option Nat × Frame :=
  let own := s.fld .linkNode 7 0
  let bid := if s.fld .timeSrvStat 25 23 = 5 then (Claims.pri s, own) else s.servo.best.getD (Claims.pri s, own)
  (true, none, { type := 0x0a, dest := 0x7f, src := own
                 payload := leBytes 8 (Claims.timeNow s) ++ [BitVec.ofNat 8 bid.2, BitVec.ofNat 8 bid.1, BitVec.ofNat 8 (s.fld .timeSrvStat 15 8 + 1),
                   BitVec.ofNat 8 (s.fld .timeSrvStat 7 0), BitVec.ofNat 8 s.servo.flag.toNat, 0, 0, 0] })
/-- The node as a candidate: PRI in force and address, with EN and a PRI below 255 (R364). -/
def Claims.bid (s : State) : Option (Nat × Nat) :=
  if s.bit .timeSrvCfg 31 = true ∧ Claims.pri s < 255 then some (Claims.pri s, s.fld .linkNode 7 0) else none
/-- `u` is `s` after the node has become MASTER (R364, R366): it shows itself, 0x3F while it has no address, at no hops; source 74 and event
0x1904 tell the change; its candidature is that of its registers. -/
def Claims.IsMaster (s u : State) : Prop :=
  let own := s.fld .linkNode 7 0
  Claims.KeepsBut [.timeSrvStat] s u ∧ u.irq = (s.irqFire 74).irq ∧
  u.reg .timeSrvStat = putBits (putBits (putBits (putBits (s.reg .timeSrvStat) 31 26 (if own = 0xff then 0x3f else own)) 15 8 0) 21 21 1) 25 23 5 ∧
  u = { s with regs := u.regs, irq := u.irq, weir := { s.weir with mv0 := s.weir.mv0 ++ Claims.eventTo s 0x1904 s.now }
               servo := { s.servo with masterPort := none, es := [], held := none, forced := false, flag := false, sent := none
                                       best := if s.bit .timeSrvCfg 31 = true ∧ s.fld .timeSrvPri 7 0 < 255 then some (s.fld .timeSrvPri 7 0, own)
                                         else none } }
/-- A node that follows a master but is itself the better candidate, by PRI and then by address, becomes MASTER; nothing else makes one of it
here (R364; when it is held to be so is the model's choice, log entry 177). -/
def Claims.TheBestIsElected : Prop :=
  ∀ s : State,
    let wins : Prop := s.servo.masterPort ≠ none ∧ s.fld .timeSrvStat 25 23 ≠ 5 ∧
      ∃ b c, Claims.bid s = some b ∧ s.servo.best = some c ∧ (b.1 < c.1 ∨ (b.1 = c.1 ∧ b.2 < c.2))
    (wins → Claims.IsMaster s s.elect) ∧ (¬ wins → s.elect = s)
/-- Writes of TIME_SRV_CFG and TIME_SRV_PRI (R364 to R366): a block in progress goes on by the words before them; EN starts the servo in
ACQUIRE or turns it off at once (log entry 93), and keeps the integrator; a PRI in force may make the node MASTER. -/
def Claims.TheServoIsSet : Prop :=
  ∀ (h : Hdr) (v : W32) (s : State),
    let kept : Servo := if s.servo.es = [] ∨ s.servo.held.isSome = true then s.servo
      else { s.servo with held := some (s.reg .timeSrvCfg, s.reg .timeSrvPri) }
    let set (r : Reg) (x : W32) (l : List (Reg × W32)) (rs : Cells W32) : Prop := ∀ q : Reg, decodeAddr q.addr = some q →
      cellGet rs q.addr q.reset = if q = r then x else (l.lookup q).getD (s.reg q)
    let stat (n : Nat) : List (Reg × W32) := [(.timeSrvStat, putBits (s.reg .timeSrvStat) 25 23 n)]
    (Accepted h .timeSrvPri v s → ∃ rs, set .timeSrvPri (v &&& 0xff) [] rs ∧
      Answers (.regWrite h (Reg.timeSrvPri).addr v) h [] s (State.elect { s with regs := rs, servo := kept })) ∧
    (Accepted h .timeSrvCfg v s → bits v.toNat 27 25 ≤ 4 → 2 ≤ bits v.toNat 15 12 →
      let i : Instr := .regWrite h (Reg.timeSrvCfg).addr v
      let x := v &&& 0xfeffffff
      (v.getLsbD 31 = s.bit .timeSrvCfg 31 → ∃ rs, set .timeSrvCfg x [] rs ∧ Answers i h [] s { s with regs := rs, servo := kept }) ∧
      (v.getLsbD 31 ≠ s.bit .timeSrvCfg 31 → ∃ rs, set .timeSrvCfg x (stat (v.getLsbD 31).toNat) rs ∧
        Answers i h [] s { s with regs := rs, servo := { i := s.servo.i, since := s.clk.frc } }))
/-- A block changes the time by a step or its rate (R365, R366). -/
def Claims.KeepsTime (s u : State) : Prop := Claims.KeepsBut [.timeSrvStat, .timeErr, .timeCnt, .timeLastStep] s u
/-- The servo (R359, R364 to R366): a MASTER sends TIM every 2^PER ms; a TIM from the master's port or of a better bid is accepted, with its hops, STEPSEQ and error,
a change of the master shown, the next state, and in TRACK its passing on; the end of a block steps the time by the largest error, is refused, or
moves integrator and rate (REFUSED stays until an error within STEP_THR or a forced step); the best candidate is elected; without TIM a follower goes to HOLDOVER, and a node that may become MASTER. REACQ starts anew; a read of
TIME_NOW_LO captures time and FRC. -/
def Obligations.TimeIsServed : Prop :=
  Claims.TheBestIsElected ∧ Claims.TheServoIsSet ∧
  (∀ s : State, s.fabricOn = true →
    let st := s.fld .timeSrvStat 25 23
    let es := s.servo.es
    let per := Claims.srv s 30 28
    let minf := Claims.srv s 27 25
    let hold := Claims.srv s 15 12 * 2 ^ per * 24576
    let late (k : Nat) : Prop := s.servo.since + k * hold ≤ s.clk.frc
    let stat (f : W32 → W32) (n : Nat) : W32 := putBits (f (s.reg .timeSrvStat)) 25 23 n
    let due := ∀ t, s.servo.sent = some t → t + 2 ^ per * 24576 ≤ s.clk.frc
    (st ≠ 5 ∨ ¬ due → Leads .timSend s s) ∧
    (st = 5 → due → Leads .timSend s { Claims.queued 1 (if s.portUp 1 then [Claims.tim s] else [])
        (Claims.queued 0 (if s.portUp 0 then [Claims.tim s] else []) s) with servo := { s.servo with sent := some s.clk.frc } }) ∧
    (es.length < 2 ^ minf ∨ (st ≠ 1 ∧ st ≠ 2 ∧ st ≠ 3) → Leads .servoBlock s s) ∧
    (∀ e ∈ es, (∀ x ∈ es, x ≤ e) → 2 ^ minf ≤ es.length → st = 1 ∨ st = 2 ∨ st = 3 →
      let err : W32 := BitVec.ofInt 32 (max (-(2 ^ 31)) (min (2 ^ 31 - 1) e))
      let big := (Claims.srv s 11 0 : Int) < |e|
      let allowed := st = 1 ∨ s.servo.forced = true ∨ |e * 65536| ≤ (s.reg .timeJumpLimit).toNat * 65536
      let servo : Servo := { s.servo with es := [], forced := false, held := none }
      (big → allowed → ∃ t u : State, Claims.stepped s t (e * 65536) s.tim.rate ∧ Leads .servoBlock s u.elect ∧ u.reg .timeErr = err ∧
        u.reg .timeSrvStat = stat (fun x => putBits x 22 22 s.servo.forced.toNat) (if st = 3 ∧ s.servo.forced = false then 3 else 2) ∧ u.reg .timeCnt = t.reg .timeCnt ∧
        u.reg .timeLastStep = t.reg .timeLastStep ∧ Claims.KeepsTime s u ∧ u = { t with regs := u.regs, servo := servo }) ∧
      (big → ¬ allowed → ∃ u, Leads .servoBlock s u.elect ∧ u.reg .timeErr = err ∧ u.reg .timeSrvStat = stat (fun x => putBits x 19 19 1) 3 ∧
        u.reg .timeCnt = (Claims.counted s .timeCnt 31 24).2 ∧
        u.reg .timeLastStep = BitVec.ofInt 32 (max (-(2 ^ 31)) (min (2 ^ 31 - 1) e)) ∧ Claims.KeepsTime s u ∧ u.irq = (s.irqFire 72).irq ∧
        u = { s with regs := u.regs, irq := u.irq, servo := servo
                     weir := { s.weir with mv0 := s.weir.mv0 ++ Claims.eventTo s 0x1901 s.now } }) ∧
      (¬ big → ∃ u, let p := 2 ^ (minf + per) * 1000000
        let lim (x : Int) : Int := max (-(2 ^ 31)) (min (2 ^ 31 - 1) x)
        let i := lim (s.servo.i + divRound (e * 2 ^ 40) (p * 2 ^ Claims.srv s 19 16))
        Leads .servoBlock s u.elect ∧ u.reg .timeErr = err ∧ u.reg .timeSrvStat = stat id 2 ∧ Claims.KeepsBut [.timeSrvStat, .timeErr] s u ∧
        u.servo = { servo with i := i } ∧ u.tim.rate = lim (i + divRound (e * 2 ^ 40) (p * 2 ^ Claims.srv s 23 20)) ∧
        u.tim.epoch = s.tim.epoch + 1 ∧ u = { s with regs := u.regs, servo := u.servo, tim := u.tim })) ∧
    (¬ ((st = 2 ∨ st = 3) ∧ late 1) → Leads .holdoverTimeout s s) ∧
    ((st = 2 ∨ st = 3) → late 1 → ∃ u, Leads .holdoverTimeout s u ∧ u.reg .timeSrvStat = stat (fun x => putBits x 20 20 1) 4 ∧
      Claims.KeepsBut [.timeSrvStat] s u ∧ u.irq = (s.irqFire 73).irq ∧ u.tim.rate = s.servo.i ∧ u.tim.epoch = s.tim.epoch + 1 ∧
      u.weir = { s.weir with mv0 := s.weir.mv0 ++ Claims.eventTo s 0x1902 s.now } ∧
      u = { s with regs := u.regs, irq := u.irq, tim := u.tim, weir := u.weir
                   servo := { s.servo with es := [], held := none, since := s.clk.frc } }) ∧
    (Claims.pri s = 255 ∨ ¬ ((st = 1 ∧ late 1) ∨ (st = 4 ∧ late 2)) → Leads .masterTimeout s s) ∧
    (Claims.pri s < 255 → (st = 1 ∧ late 1) ∨ (st = 4 ∧ late 2) → ∃ u, Leads .masterTimeout s u ∧ Claims.IsMaster s u)) ∧
  (∀ (p rx : Nat) (f : Frame) (s : State), Claims.Arrives (.timFrame p f rx) p f s →
    let w := Claims.took p f s
    let byte (k : Nat) : Nat := (f.payload.getD k 0).toNat
    let st := s.fld .timeSrvStat 25 23
    let better := ∀ c, (if s.servo.masterPort = none then Claims.bid s else s.servo.best) = some c → byte 9 < c.1 ∨ (byte 9 = c.1 ∧ byte 8 < c.2)
    let changed := s.fld .timeSrvStat 15 8 = 0 ∨ s.fld .timeSrvStat 31 26 ≠ byte 8 % 64
    let fresh := changed ∨ st = 5 ∨ s.servo.masterPort ≠ some p
    (st = 0 ∨ (s.servo.masterPort ≠ some p ∧ ¬ better) → Leads (.timFrame p f rx) s w) ∧
    (st ≠ 0 → s.servo.masterPort = some p ∨ better →
      let e := timeDiff (ofLe (f.payload.take 8)) (((s.stampAt rx rx false).t + (2 ^ 64 - 1100)) % 2 ^ 64) + s.fld (.linkPDly p) 15 0 +
        (28 * (400 / 2 ^ s.fld (.linkPStat p) 5 4) : Nat)
      let again := changed ∧ s.bit .rstCause 10 = true
      let st' := if st = 4 then 2 else if again then 1 else if st = 5 then 2 else st
      let jump := byte 12 % 2 = 1 ∧ byte 11 ≠ s.fld .timeSrvStat 7 0
      let old := putBits (putBits (s.reg .timeSrvStat) 7 0 (byte 11)) 15 8 (byte 10)
      ∃ u, Leads (.timFrame p f rx) s u.elect ∧ Claims.KeepsBut [.timeSrvStat, .timeCnt] s u ∧
        u.reg .timeCnt = (Claims.counted s .timeCnt 15 0).2 ∧
        (changed → u.reg .timeSrvStat = putBits (putBits (putBits old 31 26 (byte 8)) 21 21 1) 25 23 st' ∧ u.irq = (s.irqFire 74).irq) ∧
        (¬ changed → u.reg .timeSrvStat = putBits old 25 23 st' ∧ u.irq = s.irq) ∧
        u.servo.forced = (!decide changed && (s.servo.forced || decide jump)) ∧
        u.servo = { s.servo with masterPort := some p, best := some (byte 9, byte 8), since := s.clk.frc, forced := u.servo.forced
                                 es := (if fresh then [] else s.servo.es) ++ [e], held := if fresh then none else s.servo.held
                                 flag := decide (byte 12 % 2 = 1) } ∧
        u.weir = { s.weir with mv0 := s.weir.mv0 ++ (if changed then Claims.eventTo s 0x1904 s.now else []) ++
          if st = 4 then Claims.eventTo s 0x1903 s.now else [] } ∧
        u.link = (Claims.queued (1 - p) (if st = 2 ∧ ¬ again ∧ s.portUp (1 - p) = true then [Claims.tim u] else []) w).link ∧
        u = { s with regs := u.regs, irq := u.irq, weir := u.weir, servo := u.servo, link := u.link })) ∧
  (∀ (h : Hdr) (v : W32) (s : State), v &&& 3 = 0 → Accepted h .timeCtrl (v ||| 4) s →
    (s.fld .timeSrvStat 25 23 = 0 → Answers (.reacq h v) h [] s s) ∧
    (s.fld .timeSrvStat 25 23 ≠ 0 → ∃ rs, (∀ q : Reg, decodeAddr q.addr = some q → cellGet rs q.addr q.reset =
        if q = .timeSrvStat then putBits (s.reg q) 25 23 1 else s.reg q) ∧
      let servo : Servo := { s.servo with es := [], held := none, forced := false, since := s.clk.frc, masterPort := none, best := none }
      Answers (.reacq h v) h [] s { s with regs := rs, servo := servo })) ∧
  ∀ (h : Hdr) (s : State), Admitted h (.regRead 0xc0114) s →
    let t := Claims.timeNow s
    let later : List (Nat × Nat) := [(0xc0118, t / 2 ^ 32), (0xc011c, s.clk.frc), (0xc0120, s.clk.frc / 2 ^ 32)]
    Answers (.timeNowRead h) h (leBytes 4 t) s
      { s with caps := (s.caps.filter fun c => !(decide (c.1 = h.src) && later.any fun x => x.1 == c.2.1)) ++
          later.map fun x => (h.src, x.1, BitVec.ofNat 32 x.2) }

/-! ### Emulator outputs, balance loop (R399 to R409) -/

/-- What the two outputs and the loop are in `u`, when output k is `x`: the other is that of `s`. -/
def Claims.output (k : Nat) (x : Beo) (s : State) : State :=
  { s with beo0 := if k = 0 then x else s.beo0, beo1 := if k = 0 then s.beo1 else x }
/-- `u` is `s` after the record of output k of the emulator has become `x`, whose hold may begin or end with it (R403): at an entry HOLD_S,
source 20 and event 0x1C00 + k; at the end event 0x1C10 + k; while it is held and driven, CODE is frozen, or HVAL where HMODE is 1. -/
def Claims.HoldMoves (k : Nat) (x : Beo) (s u : State) : Prop :=
  let was := (s.beo k).evHold || (s.beo k).fHold
  let now := x.evHold || x.fHold
  let rise := now && !was
  let y : Beo := { x with holdS := x.holdS || rise, code := if now && x.on && s.bit (.beoCfg k) 30 then x.hval else x.code }
  Claims.KeepsButLost s u ∧ u.irq = (if rise then (s.irqFire 20).irq else s.irq) ∧
  u = { Claims.output k y s with
        regs := u.regs, irq := u.irq
        weir := { s.weir with mv0 := s.weir.mv0 ++ if rise then Claims.eventTo s (0x1c00 + k) s.now
          else if was && !now then Claims.eventTo s (0x1c10 + k) s.now else [] } }
/-- A value limited to 36 bits. -/
def Claims.lim36 (x : Int) : Int := max (-(2 ^ 35)) (min (2 ^ 35 - 1) x)
/-- The output code of a result (R401; the rounding of a tie is the model's choice, log entry 34). -/
def Claims.code (r : Int) : Int := max (-8388608) (min 8388607 (divRound r (2 ^ 12)))
/-- The latest record of a stream that an output takes carries a flag of a mask (R403). -/
def Claims.flagged (s : State) (src excl : Nat) : Bool :=
  (s.pastOf (128 + src)).head?.any fun p => decide (p.flags &&& BitVec.ofNat 6 excl ≠ 0)
/-- What a tick boundary does to an output (R401 to R403): the settings are taken; an output that is enabled and not the loop's has its flag
hold judged, and takes the code of the latest record of its source that left since the boundary before, unless it is held or not driven. -/
def Claims.OutputsEmulate : Prop :=
  ∀ (k : Nat) (s : State), k < 2 → ¬ (s.bit .beoLoopCfg 31 = true ∧ s.fld .beoLoopCfg 30 30 = k) →
    let x := s.beo k
    let src := s.fld (.beoCfg k) 5 0
    let y : Beo := { x with src := src, scale := (s.reg (.beoScale k)).toInt, ofs := s.pair (.beoOfsLo k) (.beoOfsHi k), ticks := x.ticks + 1
                            hval := (BitVec.ofNat 24 (s.fld (.beoHval k) 23 0)).toInt, on := x.on && !x.offNext, offNext := false }
    let flag := Claims.flagged s src (s.fld (.beoCfg k) 29 24)
    (s.bit (.beoCfg k) 31 = false → s.beoTick k = Claims.output k y s) ∧
    (s.bit (.beoCfg k) 31 = true → ∃ v, Claims.HoldMoves k { y with fHold := flag } s v ∧
      let fresh (p : Past) : Prop := (s.pastOf (128 + src)).head? = some p ∧ s.eng.prevTickAt ≤ p.period
      let free : Prop := y.evHold = false ∧ flag = false ∧ y.on = true
      (∀ p, fresh p → free →
        s.beoTick k = Claims.output k { v.beo k with code := Claims.code (Claims.lim36 ((p.val * y.scale + y.ofs * 2 ^ 28 + 2 ^ 27) / 2 ^ 28)) } v) ∧
      ((∀ p, ¬ fresh p) ∨ ¬ free → s.beoTick k = v))
/-- An iteration of the loop (R405, R407): in RUN, without a flag of HEXCL at its sources, the error, the integrator, which is frozen where the
last command was limited and the error drives it further, the command and its code, e_prev being the error itself after SYN and at a
resumption; ICLAMP tells whether the integrator is limited, and its rise sets ICLAMP_S, fires source 21 and writes event 0x1C20. A flagged
one holds the loop; HCNT clean ones in a row in HOLD, and no event hold, resume it with e_prev at the error and event 0x1C10 + OUT (the
fractional bits and the sign of KI are log entry 35's). -/
def Claims.TheLoopIterates : Prop :=
  ∀ (j : Job) (s : State), s.loop.st ≠ 0 →
    let l := s.loop
    let k := s.fld .beoLoopCfg 30 30
    let a := s.fld .beoLoopCfg 5 0
    let b := s.fld .beoLoopCfg 11 6
    let here := l.inp.filter fun e => e.1 == j.b
    let x (n : Nat) : Int := (here.find? fun e => e.2.1 == n).elim 0 (·.2.2.1)
    let flags : BitVec 6 := here.foldl (fun f e => f ||| e.2.2.2) 0
    let bad : Prop := flags &&& BitVec.ofNat 6 (s.fld .beoLoopCfg 27 22) ≠ 0
    let coef (r : Reg) : Int := (s.reg r).toInt
    let e := Claims.lim36 ((coef .beoLoopWa * x a + coef .beoLoopWb * (if b = 63 then 0 else x b) + 2 ^ 27) / 2 ^ 28 - s.pair .beoLoopSpLo .beoLoopSpHi)
    let l1 : Loop := { l with iter := min (2 ^ 32 - 1) (l.iter + 1), inp := l.inp.filter fun e => decide (e.1 ≠ j.b) }
    let w : State := { s with loop := l1 }
    (l.st = 1 → s.loopItem j = w) ∧
    (l.st = 2 → bad → s.loopItem j = w.loopHold) ∧
    (l.st = 2 → ¬ bad →
      let frozen : Prop := 0 < l.uSat * (e * coef .beoLoopKi)
      let ilim := s.pair .beoLoopIlimLo .beoLoopIlimHi * 2 ^ 35
      let raw := l.i70 + e * coef .beoLoopKi * 2 ^ 19
      let i := if frozen then l.i70 else max (-ilim) (min ilim raw)
      let prev := if l.reload = true ∨ flags.getLsbD 1 = true then e else l.ePrev
      let sum := e * coef .beoLoopKp / 2 ^ 16 + Claims.lim36 (divRound i (2 ^ 35)) + (e - prev) * coef .beoLoopKd / 2 ^ 16
        + s.pair .beoLoopUofsLo .beoLoopUofsHi
      ∃ u, s.loopItem j = u ∧ (u.loop.clamp = true ↔ if frozen then l.clamp = true else raw < -ilim ∨ ilim < raw) ∧
        u.beo k = { s.beo k with code := Claims.code (Claims.lim36 sum) } ∧ (∀ n, n < 2 → n ≠ k → u.beo n = s.beo n) ∧
        let rise := u.loop.clamp && !l.clamp
        u.loop = { l1 with i70 := i, ePrev := e, reload := false, clamp := u.loop.clamp, clampS := l.clampS || rise
                           uSat := if 2 ^ 35 - 1 < sum then 1 else if sum < -(2 ^ 35) then -1 else 0 } ∧
        Claims.KeepsButLost s u ∧ u.irq = (if rise then (s.irqFire 21).irq else s.irq) ∧
        u = { s with regs := u.regs, irq := u.irq, loop := u.loop, beo0 := u.beo0, beo1 := u.beo1
                     weir := { s.weir with mv0 := s.weir.mv0 ++ if rise then Claims.eventTo s 0x1c20 s.now else [] } }) ∧
    (l.st = 3 → ∀ n : Nat, (bad → n = 0) → (¬ bad → n = l.clean + 1) →
      (s.fld .beoLoopCfg 21 14 ≤ n → l.evHold = false →
        s.loopItem j = { s with loop := { l1 with st := 2, clean := 0, ePrev := e, reload := false }
                                weir := { s.weir with mv0 := s.weir.mv0 ++ Claims.eventTo s (0x1c10 + k) s.now } }) ∧
      (n < s.fld .beoLoopCfg 21 14 ∨ l.evHold = true → s.loopItem j = { s with loop := { l1 with clean := n } }))
/-- The loop follows its sources (R407): one that leaves RUNNING without a fault brings it back to WAIT, with HVAL and the integrator cleared; one
that enters FAULTED holds it; it runs once all are RUNNING, with e_prev to come from the first iteration, and is held at once where an event
hold stands. -/
def Claims.TheLoopFollows : Prop :=
  ∀ old s : State, s.loop.st ≠ 0 →
    let k := s.fld .beoLoopCfg 30 30
    let source (n : Nat) : Prop := n = s.fld .beoLoopCfg 5 0 ∨ (n = s.fld .beoLoopCfg 11 6 ∧ n ≠ 63)
    let left : Prop := ∃ n, source n ∧ (old.ch n).st = .running ∧ ((s.ch n).st = .idle ∨ (s.ch n).st = .settling)
    let fault : Prop := ∃ n, source n ∧ (old.ch n).st ≠ .faulted ∧ (s.ch n).st = .faulted
    let ready : Prop := ∀ n, source n → (s.ch n).st = .running
    let ran : State := { s with loop := { s.loop with st := 2, reload := true } }
    (left → s.loop.st ≠ 1 → State.loopFollow old s = { Claims.output k { s.beo k with code := (s.beo k).hval } s with
      loop := { s.loop with st := 1, i70 := 0, clamp := false, uSat := 0, inp := [] }
      weir := { s.weir with mv0 := s.weir.mv0 ++ if s.loop.st = 3 then Claims.eventTo s (0x1c10 + k) s.now else [] } }) ∧
    (¬ left → s.loop.st = 2 → (fault → State.loopFollow old s = s.loopHold) ∧ (¬ fault → State.loopFollow old s = s)) ∧
    (s.loop.st = 1 → (ready → State.loopFollow old s = if s.loop.evHold = true then ran.loopHold else ran) ∧
      (¬ ready → State.loopFollow old s = s)) ∧
    (¬ left → s.loop.st = 3 → State.loopFollow old s = s)
/-- An event hold of the loop's output k (R403, R407): its count starts anew; in RUN the loop goes to HOLD, with HOLD_S, source 20, event 0x1C00 + k
and CODE frozen, or HVAL where HMODE is 1. -/
def Claims.LoopHeld (k : Nat) (s u : State) : Prop :=
  let x := { s.beo k with ticks := 0 }
  let runs : Bool := decide (s.loop.st = 2)
  let y : Beo := if runs then { x with holdS := true, code := if s.bit .beoLoopCfg 29 then x.hval else x.code } else x
  Claims.KeepsButLost s u ∧ u.irq = (if runs then (s.irqFire 20).irq else s.irq) ∧
  u = { Claims.output k y s with
        regs := u.regs, irq := u.irq
        loop := if runs then { s.loop with evHold := true, st := 3, clean := 0 } else { s.loop with evHold := true }
        weir := { s.weir with mv0 := s.weir.mv0 ++ if runs then Claims.eventTo s (0x1c00 + k) s.now else [] } }
/-- BEO_LOOP_CFG (R406, R409): EN = 1 is refused with BAD_PARAM for bad sources, counts or limits, with STATE_CONFLICT while the output is enabled,
VEXC_OK is 0, TJ_SHUT is in force or LOCK is 1, with BUDGET over R30; accepted, the loop waits with its output at HVAL, in RUN. While EN is 1
other fields are refused; EN = 0 ends a hold with its event and drives HVAL, then high impedance from the next boundary on. -/
def Claims.TheLoopIsEnabled : Prop :=
  ∀ (h : Hdr) (v : W32) (s : State), Accepted h .beoLoopCfg v s →
    let word := v &&& 0xefffcfff
    let t := s.setReg .beoLoopCfg word
    let a := bits v.toNat 5 0
    let b := bits v.toNat 11 6
    let k := bits v.toNat 30 30
    let x := s.beo k
    let source (n : Nat) : Prop := n = a ∨ (n = b ∧ b ≠ 63)
    let bad := 24 ≤ a ∨ (24 ≤ b ∧ b ≠ 63) ∨ a = b ∨ bits v.toNat 21 14 = 0 ∨ s.pair .beoLoopIlimLo .beoLoopIlimHi < 0 ∨
      4 ≤ popCount (s.reg .engPrio).toNat ∨
      ∃ n, source n ∧ (s.bit .engPrio n = false ∨ 16000 * s.decimD n < s.mclkHz ∨ s.decimD n ≠ s.decimD a)
    let clash := s.bit (.beoCfg k) 31 = true ∨ s.bit .supStatus 3 = false ∨ s.bit .monTempStatus 2 = true ∨ s.bit .beoCtrl 31 = true
    let only (rs : Cells W32) : Prop := ∀ q : Reg, decodeAddr q.addr = some q → cellGet rs q.addr q.reset = if q = .beoLoopCfg then word else s.reg q
    (s.bit .beoLoopCfg 31 = false → v.getLsbD 31 = true →
      (bad → Refuses (.loopEnable h v) h .badParam [] s) ∧
      (¬ bad → clash → Refuses (.loopEnable h v) h .stateConflict (Claims.clash s) s) ∧
      (¬ bad → ¬ clash → budgetBroken s t = true → Refuses (.loopEnable h v) h .budget [] s) ∧
      (¬ bad → ¬ clash → budgetBroken s t = false → ∃ rs, only rs ∧ Answers (.loopEnable h v) h [] s
        { Claims.output k { x with on := true, code := x.hval, offNext := false, evHold := false } s with
          regs := rs, loop := { st := 1, clampS := s.loop.clampS }, proto := { s.proto with dev := .run }
          weir := { s.weir with mv0 := s.weir.mv0 ++ if x.evHold && !x.fHold then Claims.eventTo s (0x1c10 + k) s.now else [] } })) ∧
    (s.bit .beoLoopCfg 31 = false → v.getLsbD 31 = false →
      (s.bit .beoCtrl 31 = true → Refuses (.loopEnable h v) h .stateConflict (Claims.clash s) s) ∧
      (s.bit .beoCtrl 31 = false → ∃ rs, only rs ∧ Answers (.loopEnable h v) h [] s { s with regs := rs })) ∧
    (s.bit .beoLoopCfg 31 = true →
      (s.bit .beoCtrl 31 = true → Refuses (.loopEnable h v) h .stateConflict (Claims.clash s) s) ∧
      (s.bit .beoCtrl 31 = false → (s.reg .beoLoopCfg ^^^ word) &&& 0x7fffffff ≠ 0 →
        Refuses (.loopEnable h v) h .stateConflict [BitVec.ofNat 8 (devCode s.proto.dev), 0x31, 1] s) ∧
      (s.bit .beoCtrl 31 = false → (s.reg .beoLoopCfg ^^^ word) &&& 0x7fffffff = 0 → v.getLsbD 31 = true → Answers (.loopEnable h v) h [] s s) ∧
      (s.bit .beoCtrl 31 = false → (s.reg .beoLoopCfg ^^^ word) &&& 0x7fffffff = 0 → v.getLsbD 31 = false → ∃ rs, only rs ∧
        let calm : Bool := decide (s.proto.dev = .run) && (List.range 24).all fun n => decide ((s.ch n).st = .idle) && !(s.ch n).startPend
        Answers (.loopEnable h v) h [] s
          { Claims.output k { x with code := if x.on = true then x.hval else x.code, offNext := x.on } s with
            regs := rs
            loop := if s.loop.st = 0 then { s.loop with evHold := false, inp := [] }
              else { s.loop with st := 0, i70 := 0, clamp := false, evHold := false, inp := [] }
            weir := { s.weir with mv0 := s.weir.mv0 ++ if s.loop.st = 3 then Claims.eventTo s (0x1c10 + k) s.now else [] }
            proto := { s.proto with dev := if calm then .config else s.proto.dev } }))

/-- The outputs (R399, R402, R403, R409): LOCK refuses settings; EN is refused without VEXC_OK, in TJ_SHUT and on the loop's output, and
drives CODE 0; EN = 0 releases at once and ends the flag hold; EXCL and HMODE act at once; HOLD starts an event hold, driven or not (the model's
choices, log entry 165), RELEASE and HTICKS end it, CLR_STKY clears; LOCK stays. At a tick boundary an output emulates its source (R401); the
loop iterates and follows its sources (R405, R407). BEO_LOOP_CFG
(R406): EN = 1 is refused for bad sources, counts or limits, while its output is enabled, without VEXC_OK, in TJ_SHUT or under LOCK, and
over R30; else the loop waits with its output at HVAL, in RUN. EN = 0 drives HVAL, then high impedance. -/
def Obligations.OutputsAreHeld : Prop :=
  Claims.OutputsEmulate ∧ Claims.TheLoopIterates ∧ Claims.TheLoopFollows ∧ Claims.TheLoopIsEnabled ∧ ((∀ (h : Hdr) (k : Nat) (v : W32) (s : State), k < 2 → Accepted h (.beoCfg k) v s →
    let was := s.bit (.beoCfg k) 31
    let locked := s.bit .beoCtrl 31 = true
    let dark := s.bit .supStatus 3 = false ∨ s.bit .monTempStatus 2 = true
    let drives := s.bit .beoLoopCfg 31 = true ∧ s.fld .beoLoopCfg 30 30 = k
    (locked → Refuses (.beoEnable h k v) h .stateConflict (Claims.clash s) s) ∧
    (¬ locked → v.getLsbD 31 = true → was = false → dark → Refuses (.beoEnable h k v) h .stateConflict (Claims.clash s) s) ∧
    (¬ locked → v.getLsbD 31 = true → was = false → ¬ dark → drives →
      Refuses (.beoEnable h k v) h .stateConflict [BitVec.ofNat 8 (devCode s.proto.dev), 0x31, 1] s) ∧
    (¬ locked → v.getLsbD 31 = false ∨ was = true ∨ (¬ dark ∧ ¬ drives) →
      let x := s.beo k
      let flag := Claims.flagged s x.src (bits v.toNat 29 24)
      ∃ rs, (∀ q : Reg, decodeAddr q.addr = some q → cellGet rs q.addr q.reset = if q = .beoCfg k then v &&& 0xffffff3f else s.reg q) ∧
        let t : State := { s with regs := rs }
        (v.getLsbD 31 = true → was = false → ∃ u, Claims.HoldMoves k { x with on := true, fHold := flag, offNext := false } t u ∧
          Answers (.beoEnable h k v) h [] s (Claims.output k { u.beo k with code := 0 } u)) ∧
        (v.getLsbD 31 = false → was = true → ∃ u, Claims.HoldMoves k { x with on := false, fHold := false, slept := false } t u ∧
          Answers (.beoEnable h k v) h [] s u) ∧
        (v.getLsbD 31 = true → was = true → ¬ drives → ∃ u, Claims.HoldMoves k { x with fHold := x.fHold || flag } t u ∧
          Answers (.beoEnable h k v) h [] s u) ∧
        ((v.getLsbD 31 = true ∧ was = true ∧ drives) ∨ (v.getLsbD 31 = false ∧ was = false) → Answers (.beoEnable h k v) h [] s t))) ∧
  (∀ (h : Hdr) (k : Nat) (v : W32) (s : State), k < 2 →
    let load := s.reg .beoCtrl &&& 0x300
    let drives := s.bit .beoLoopCfg 31 = true ∧ s.fld .beoLoopCfg 30 30 = k
    let x := s.beo k
    (v &&& 0x8000033e = load ||| BitVec.ofNat 32 (4 * 2 ^ k) → Accepted h .beoCtrl v s →
      (¬ drives → ∃ u, Answers (.beoCtrlHold h v) h [] s u ∧ Claims.HoldMoves k { x with evHold := true, ticks := 0 } s u) ∧
      (drives → ∃ u, Answers (.beoCtrlHold h v) h [] s u ∧ Claims.LoopHeld k s u)) ∧
    (v &&& 0x8000033e = load ||| BitVec.ofNat 32 (16 * 2 ^ k) → Accepted h .beoCtrl v s →
      (¬ drives → ∃ u, Answers (.beoCtrlRelease h v) h [] s u ∧ Claims.HoldMoves k { x with evHold := false } s u) ∧
      (drives → ∃ u, Answers (.beoCtrlRelease h v) h [] s u ∧ Claims.Keeps [] s u ∧
        u = { s with regs := u.regs, loop := { s.loop with evHold := false } })) ∧
    (s.fabricOn = true →
      let held := if s.bit .beoLoopCfg 31 = true ∧ s.fld .beoLoopCfg 30 30 = k then s.loop.evHold else x.evHold
      let n := s.fld (.beoCfg k) 23 8
      (held = false ∨ n = 0 ∨ x.ticks < n → Leads (.holdTicksExpiry k) s s) ∧
      (held = true → n ≠ 0 → n ≤ x.ticks → (¬ drives → ∃ u, Leads (.holdTicksExpiry k) s u ∧ Claims.HoldMoves k { x with evHold := false } s u) ∧
        (drives → Leads (.holdTicksExpiry k) s { s with loop := { s.loop with evHold := false } })))) ∧
  ∀ (h : Hdr) (v : W32) (s : State),
    let load := s.reg .beoCtrl &&& 0x300
    (v &&& 0x8000033c = load → Accepted h .beoCtrl (v ||| 2) s → ∃ u, Answers (.beoClrStky h v) h [] s u ∧ Claims.Keeps [] s u ∧
      u = { s with regs := u.regs, beo0 := { s.beo0 with holdS := false, offFault := false }
                   beo1 := { s.beo1 with holdS := false, offFault := false }, loop := { s.loop with clampS := false } }) ∧
    (v &&& 0x33e = load → Accepted h .beoCtrl (v ||| 0x80000000) s →
      Claims.Sets (.beoLock h v) h [] s [(.beoCtrl, s.reg .beoCtrl ||| 0x80000000)]) ∧
    (v &&& 0x300 ≠ load → s.bit .beoCtrl 31 = true → ∀ i : Instr, i = .beoCtrlHold h v ∨ i = .beoCtrlRelease h v → Accepted h .beoCtrl v s →
      Refuses i h .stateConflict (Claims.clash s) s) ∧
    (v.getLsbD 9 = true → s.bit .beoCtrl 9 = false → s.bit .supStatus 3 = false → Accepted h .beoCtrl v s →
      Refuses (.beoCtrlHold h v) h .stateConflict (Claims.clash s) s))


/-! ### Memories -/

/-- Every step keeps the SRAM, the OTP and the coefficient memory in canonical form, from every state in which they have it: addresses rising,
no entry equal to what an unlisted address reads as. So a byte has one value, and equal memories are equal data. -/
def Obligations.MemoriesStayCanonical : Prop := ∀ s t : State, s.memoriesWf = true → step s = .next t → t.memoriesWf = true
end

