-- ==== Sys2Proof/Laws/Cells.lean ====
section
/-! SUPPORT. Laws of sparse storage: a read after a write, a write leaves every other key alone, and a write keeps the canonical
form. -/

namespace Sys2Proof.Machine

variable {α : Type}

/-- A read gives what was written last at that key. -/
@[simp] theorem cellGet_cellSet_self (m : Cells α) (k : Nat) (v d : α) : cellGet (cellSet m k v) k d = v := by
  induction m with
  | nil => simp [cellSet, cellGet]
  | cons p m ih =>
    obtain ⟨a, x⟩ := p
    unfold cellSet
    split
    · simp [cellGet]
    · split
      · simp [cellGet]
      · rename_i h; simp [cellGet, h, ih]

/-- A write leaves every other key alone. -/
theorem cellGet_cellSet_ne (m : Cells α) {k j : Nat} (v d : α) (h : j ≠ k) : cellGet (cellSet m k v) j d = cellGet m j d := by
  induction m with
  | nil => simp [cellSet, cellGet, Ne.symm h]
  | cons p m ih =>
    obtain ⟨a, x⟩ := p
    unfold cellSet
    split
    · simp [cellGet, Ne.symm h]
    · split
      · rename_i _ ha; subst ha; simp [cellGet, Ne.symm h]
      · simp only [cellGet]; split <;> simp_all

/-- The two laws in one. -/
theorem cellGet_cellSet (m : Cells α) (k j : Nat) (v d : α) :
    cellGet (cellSet m k v) j d = if j = k then v else cellGet m j d := by
  split
  · rename_i h; subst h; simp
  · rename_i h; exact cellGet_cellSet_ne m v d h

/-- A key below every key of a list. -/
def below (k : Nat) (m : Cells α) : Prop := ∀ p ∈ m, k < p.1

theorem keysRise_cons (p : Nat × α) (m : Cells α) : keysRise (p :: m) = true ↔ below p.1 m ∧ keysRise m = true := by
  induction m generalizing p with
  | nil => simp [keysRise, below]
  | cons q m ih =>
    simp only [keysRise, Bool.and_eq_true, decide_eq_true_eq]
    constructor
    · rintro ⟨h, hr⟩
      refine ⟨?_, hr⟩
      intro x hx
      rcases List.mem_cons.1 hx with rfl | hx
      · exact h
      · exact Nat.lt_trans h (((ih q).1 hr).1 x hx)
    · rintro ⟨hb, hr⟩
      exact ⟨hb q (by simp), hr⟩

theorem mem_cellSet (m : Cells α) (k : Nat) (v : α) (p : Nat × α) (h : p ∈ cellSet m k v) : p = (k, v) ∨ p ∈ m := by
  induction m with
  | nil => simpa [cellSet] using h
  | cons q m ih =>
    obtain ⟨a, x⟩ := q
    unfold cellSet at h
    split at h
    · rcases List.mem_cons.1 h with h | h
      · exact .inl h
      · exact .inr h
    · split at h
      · rcases List.mem_cons.1 h with h | h
        · exact .inl h
        · exact .inr (List.mem_cons_of_mem _ h)
      · rcases List.mem_cons.1 h with h | h
        · exact .inr (by simp [h])
        · rcases ih h with h | h
          · exact .inl h
          · exact .inr (List.mem_cons_of_mem _ h)

theorem mem_cellDrop (m : Cells α) (k : Nat) (p : Nat × α) (h : p ∈ cellDrop m k) : p ∈ m := by
  induction m with
  | nil => simp [cellDrop] at h
  | cons q m ih =>
    obtain ⟨a, x⟩ := q
    unfold cellDrop at h
    split at h
    · exact List.mem_cons_of_mem _ (ih h)
    · rcases List.mem_cons.1 h with h | h
      · simp [h]
      · exact List.mem_cons_of_mem _ (ih h)

/-- A write keeps the keys rising. -/
theorem keysRise_cellSet (m : Cells α) (k : Nat) (v : α) (h : keysRise m = true) : keysRise (cellSet m k v) = true := by
  induction m with
  | nil => rfl
  | cons q m ih =>
    obtain ⟨a, x⟩ := q
    obtain ⟨hb, hr⟩ := (keysRise_cons _ _).1 h
    unfold cellSet
    split
    · rename_i hk
      refine (keysRise_cons _ _).2 ⟨?_, h⟩
      intro p hp
      rcases List.mem_cons.1 hp with rfl | hp
      · exact hk
      · exact Nat.lt_trans hk (hb p hp)
    · split
      · rename_i _ ha; subst ha; exact (keysRise_cons _ _).2 ⟨hb, hr⟩
      · rename_i h1 h2
        refine (keysRise_cons _ _).2 ⟨?_, ih hr⟩
        intro p hp
        rcases mem_cellSet _ _ _ _ hp with rfl | hp
        · simp only; omega
        · exact hb p hp

/-- A removal keeps the keys rising. -/
theorem keysRise_cellDrop (m : Cells α) (k : Nat) (h : keysRise m = true) : keysRise (cellDrop m k) = true := by
  induction m with
  | nil => rfl
  | cons q m ih =>
    obtain ⟨a, x⟩ := q
    obtain ⟨hb, hr⟩ := (keysRise_cons _ _).1 h
    unfold cellDrop
    split
    · exact ih hr
    · exact (keysRise_cons _ _).2 ⟨fun p hp => hb p (mem_cellDrop _ _ _ hp), ih hr⟩

theorem cellGet_cellDrop_self (m : Cells α) (k : Nat) (d : α) : cellGet (cellDrop m k) k d = d := by
  induction m with
  | nil => rfl
  | cons q m ih =>
    obtain ⟨a, x⟩ := q
    unfold cellDrop
    split
    · exact ih
    · rename_i h; simp [cellGet, h, ih]

theorem cellGet_cellDrop_ne (m : Cells α) {k j : Nat} (d : α) (h : j ≠ k) : cellGet (cellDrop m k) j d = cellGet m j d := by
  induction m with
  | nil => rfl
  | cons q m ih =>
    obtain ⟨a, x⟩ := q
    unfold cellDrop
    split
    · rename_i ha; subst ha; simp [cellGet, Ne.symm h, ih]
    · simp only [cellGet]; split <;> simp_all

variable [DecidableEq α]

/-- Memory: a read gives what was written last at that address. -/
@[simp] theorem memSet_self (m : Cells α) (k : Nat) (v d : α) : cellGet (memSet m k v d) k d = v := by
  unfold memSet
  split
  · rename_i h; rw [cellGet_cellDrop_self, h]
  · simp

/-- Memory: a write leaves every other address alone. -/
theorem memSet_ne (m : Cells α) {k j : Nat} (v d : α) (h : j ≠ k) : cellGet (memSet m k v d) j d = cellGet m j d := by
  unfold memSet
  split
  · exact cellGet_cellDrop_ne m d h
  · exact cellGet_cellSet_ne m v d h

/-- Memory: a write keeps the canonical form. -/
theorem memWf_memSet (m : Cells α) (k : Nat) (v d : α) (h : memWf m d = true) : memWf (memSet m k v d) d = true := by
  simp only [memWf, Bool.and_eq_true, List.all_eq_true, decide_eq_true_eq] at h ⊢
  unfold memSet
  split
  · exact ⟨keysRise_cellDrop _ _ h.1, fun p hp => h.2 p (mem_cellDrop _ _ _ hp)⟩
  · rename_i hv
    refine ⟨keysRise_cellSet _ _ _ h.1, fun p hp => ?_⟩
    rcases mem_cellSet _ _ _ _ hp with rfl | hp
    · exact hv
    · exact h.2 p hp

end Sys2Proof.Machine
end

