-- ==== Sys2Proof/Laws/State.lean ====
section
/-! SUPPORT. One lemma per field of the state and per update: what an update leaves alone, and what it puts where it acts. Each is
true by unfolding, so that no later proof unfolds a record update. -/

namespace Sys2Proof.Machine

/-! ### setReg -/

@[simp] theorem State.setReg_pending (s : State) (r : Reg) (v : W32) : (s.setReg r v).pending = s.pending := rfl
@[simp] theorem State.setReg_sram (s : State) (r : Reg) (v : W32) : (s.setReg r v).sram = s.sram := rfl
@[simp] theorem State.setReg_otp (s : State) (r : Reg) (v : W32) : (s.setReg r v).otp = s.otp := rfl
@[simp] theorem State.setReg_coef (s : State) (r : Reg) (v : W32) : (s.setReg r v).coef = s.coef := rfl
@[simp] theorem State.setReg_proto (s : State) (r : Reg) (v : W32) : (s.setReg r v).proto = s.proto := rfl
@[simp] theorem State.setReg_clk (s : State) (r : Reg) (v : W32) : (s.setReg r v).clk = s.clk := rfl
@[simp] theorem State.setReg_eng (s : State) (r : Reg) (v : W32) : (s.setReg r v).eng = s.eng := rfl
@[simp] theorem State.setReg_chains (s : State) (r : Reg) (v : W32) : (s.setReg r v).chains = s.chains := rfl
@[simp] theorem State.setReg_past (s : State) (r : Reg) (v : W32) : (s.setReg r v).past = s.past := rfl
@[simp] theorem State.setReg_drivers (s : State) (r : Reg) (v : W32) : (s.setReg r v).drivers = s.drivers := rfl
@[simp] theorem State.setReg_sources (s : State) (r : Reg) (v : W32) : (s.setReg r v).sources = s.sources := rfl
@[simp] theorem State.setReg_mon (s : State) (r : Reg) (v : W32) : (s.setReg r v).mon = s.mon := rfl
@[simp] theorem State.setReg_ds (s : State) (r : Reg) (v : W32) : (s.setReg r v).ds = s.ds := rfl
@[simp] theorem State.setReg_dsStage (s : State) (r : Reg) (v : W32) : (s.setReg r v).dsStage = s.dsStage := rfl
@[simp] theorem State.setReg_dets (s : State) (r : Reg) (v : W32) : (s.setReg r v).dets = s.dets := rfl
@[simp] theorem State.setReg_stats (s : State) (r : Reg) (v : W32) : (s.setReg r v).stats = s.stats := rfl
@[simp] theorem State.setReg_melds (s : State) (r : Reg) (v : W32) : (s.setReg r v).melds = s.melds := rfl
@[simp] theorem State.setReg_route (s : State) (r : Reg) (v : W32) : (s.setReg r v).route = s.route := rfl
@[simp] theorem State.setReg_irq (s : State) (r : Reg) (v : W32) : (s.setReg r v).irq = s.irq := rfl
@[simp] theorem State.setReg_queues (s : State) (r : Reg) (v : W32) : (s.setReg r v).queues = s.queues := rfl
@[simp] theorem State.setReg_weir (s : State) (r : Reg) (v : W32) : (s.setReg r v).weir = s.weir := rfl
@[simp] theorem State.setReg_syncs (s : State) (r : Reg) (v : W32) : (s.setReg r v).syncs = s.syncs := rfl
@[simp] theorem State.setReg_syncLast (s : State) (r : Reg) (v : W32) : (s.setReg r v).syncLast = s.syncLast := rfl
@[simp] theorem State.setReg_syncPin (s : State) (r : Reg) (v : W32) : (s.setReg r v).syncPin = s.syncPin := rfl
@[simp] theorem State.setReg_tim (s : State) (r : Reg) (v : W32) : (s.setReg r v).tim = s.tim := rfl
@[simp] theorem State.setReg_caps (s : State) (r : Reg) (v : W32) : (s.setReg r v).caps = s.caps := rfl
@[simp] theorem State.setReg_hostIf (s : State) (r : Reg) (v : W32) : (s.setReg r v).hostIf = s.hostIf := rfl
@[simp] theorem State.setReg_polls (s : State) (r : Reg) (v : W32) : (s.setReg r v).polls = s.polls := rfl
@[simp] theorem State.setReg_sbusTicks (s : State) (r : Reg) (v : W32) : (s.setReg r v).sbusTicks = s.sbusTicks := rfl
@[simp] theorem State.setReg_link (s : State) (r : Reg) (v : W32) : (s.setReg r v).link = s.link := rfl
@[simp] theorem State.setReg_servo (s : State) (r : Reg) (v : W32) : (s.setReg r v).servo = s.servo := rfl
@[simp] theorem State.setReg_pwr (s : State) (r : Reg) (v : W32) : (s.setReg r v).pwr = s.pwr := rfl
@[simp] theorem State.setReg_ebb (s : State) (r : Reg) (v : W32) : (s.setReg r v).ebb = s.ebb := rfl
@[simp] theorem State.setReg_sl (s : State) (r : Reg) (v : W32) : (s.setReg r v).sl = s.sl := rfl
@[simp] theorem State.setReg_beo0 (s : State) (r : Reg) (v : W32) : (s.setReg r v).beo0 = s.beo0 := rfl
@[simp] theorem State.setReg_beo1 (s : State) (r : Reg) (v : W32) : (s.setReg r v).beo1 = s.beo1 := rfl
@[simp] theorem State.setReg_loop (s : State) (r : Reg) (v : W32) : (s.setReg r v).loop = s.loop := rfl
@[simp] theorem State.setReg_freeCtr (s : State) (r : Reg) (v : W32) : (s.setReg r v).freeCtr = s.freeCtr := rfl
@[simp] theorem State.setReg_ch_at (s : State) (r : Reg) (v : W32) (m : Nat) : (s.setReg r v).ch m = s.ch m := rfl
@[simp] theorem State.setReg_drv_at (s : State) (r : Reg) (v : W32) (m : Nat) : (s.setReg r v).drv m = s.drv m := rfl
@[simp] theorem State.setReg_isrc_at (s : State) (r : Reg) (v : W32) (m : Nat) : (s.setReg r v).isrc m = s.isrc m := rfl
@[simp] theorem State.setReg_dsr_at (s : State) (r : Reg) (v : W32) (m : Nat) : (s.setReg r v).dsr m = s.dsr m := rfl
@[simp] theorem State.setReg_det_at (s : State) (r : Reg) (v : W32) (m : Nat) : (s.setReg r v).det m = s.det m := rfl
@[simp] theorem State.setReg_stat_at (s : State) (r : Reg) (v : W32) (m : Nat) : (s.setReg r v).stat m = s.stat m := rfl
@[simp] theorem State.setReg_meld_at (s : State) (r : Reg) (v : W32) (m : Nat) : (s.setReg r v).meld m = s.meld m := rfl
@[simp] theorem State.setReg_queue_at (s : State) (r : Reg) (v : W32) (m : Nat) : (s.setReg r v).queue m = s.queue m := rfl
@[simp] theorem State.setReg_poll_at (s : State) (r : Reg) (v : W32) (m : Nat) : (s.setReg r v).poll m = s.poll m := rfl

/-! ### setFld -/

@[simp] theorem State.setFld_pending (s : State) (r : Reg) (hi lo v : Nat) : (s.setFld r hi lo v).pending = s.pending := rfl
@[simp] theorem State.setFld_sram (s : State) (r : Reg) (hi lo v : Nat) : (s.setFld r hi lo v).sram = s.sram := rfl
@[simp] theorem State.setFld_otp (s : State) (r : Reg) (hi lo v : Nat) : (s.setFld r hi lo v).otp = s.otp := rfl
@[simp] theorem State.setFld_coef (s : State) (r : Reg) (hi lo v : Nat) : (s.setFld r hi lo v).coef = s.coef := rfl
@[simp] theorem State.setFld_proto (s : State) (r : Reg) (hi lo v : Nat) : (s.setFld r hi lo v).proto = s.proto := rfl
@[simp] theorem State.setFld_clk (s : State) (r : Reg) (hi lo v : Nat) : (s.setFld r hi lo v).clk = s.clk := rfl
@[simp] theorem State.setFld_eng (s : State) (r : Reg) (hi lo v : Nat) : (s.setFld r hi lo v).eng = s.eng := rfl
@[simp] theorem State.setFld_chains (s : State) (r : Reg) (hi lo v : Nat) : (s.setFld r hi lo v).chains = s.chains := rfl
@[simp] theorem State.setFld_past (s : State) (r : Reg) (hi lo v : Nat) : (s.setFld r hi lo v).past = s.past := rfl
@[simp] theorem State.setFld_drivers (s : State) (r : Reg) (hi lo v : Nat) : (s.setFld r hi lo v).drivers = s.drivers := rfl
@[simp] theorem State.setFld_sources (s : State) (r : Reg) (hi lo v : Nat) : (s.setFld r hi lo v).sources = s.sources := rfl
@[simp] theorem State.setFld_mon (s : State) (r : Reg) (hi lo v : Nat) : (s.setFld r hi lo v).mon = s.mon := rfl
@[simp] theorem State.setFld_ds (s : State) (r : Reg) (hi lo v : Nat) : (s.setFld r hi lo v).ds = s.ds := rfl
@[simp] theorem State.setFld_dsStage (s : State) (r : Reg) (hi lo v : Nat) : (s.setFld r hi lo v).dsStage = s.dsStage := rfl
@[simp] theorem State.setFld_dets (s : State) (r : Reg) (hi lo v : Nat) : (s.setFld r hi lo v).dets = s.dets := rfl
@[simp] theorem State.setFld_stats (s : State) (r : Reg) (hi lo v : Nat) : (s.setFld r hi lo v).stats = s.stats := rfl
@[simp] theorem State.setFld_melds (s : State) (r : Reg) (hi lo v : Nat) : (s.setFld r hi lo v).melds = s.melds := rfl
@[simp] theorem State.setFld_route (s : State) (r : Reg) (hi lo v : Nat) : (s.setFld r hi lo v).route = s.route := rfl
@[simp] theorem State.setFld_irq (s : State) (r : Reg) (hi lo v : Nat) : (s.setFld r hi lo v).irq = s.irq := rfl
@[simp] theorem State.setFld_queues (s : State) (r : Reg) (hi lo v : Nat) : (s.setFld r hi lo v).queues = s.queues := rfl
@[simp] theorem State.setFld_weir (s : State) (r : Reg) (hi lo v : Nat) : (s.setFld r hi lo v).weir = s.weir := rfl
@[simp] theorem State.setFld_syncs (s : State) (r : Reg) (hi lo v : Nat) : (s.setFld r hi lo v).syncs = s.syncs := rfl
@[simp] theorem State.setFld_syncLast (s : State) (r : Reg) (hi lo v : Nat) : (s.setFld r hi lo v).syncLast = s.syncLast := rfl
@[simp] theorem State.setFld_syncPin (s : State) (r : Reg) (hi lo v : Nat) : (s.setFld r hi lo v).syncPin = s.syncPin := rfl
@[simp] theorem State.setFld_tim (s : State) (r : Reg) (hi lo v : Nat) : (s.setFld r hi lo v).tim = s.tim := rfl
@[simp] theorem State.setFld_caps (s : State) (r : Reg) (hi lo v : Nat) : (s.setFld r hi lo v).caps = s.caps := rfl
@[simp] theorem State.setFld_hostIf (s : State) (r : Reg) (hi lo v : Nat) : (s.setFld r hi lo v).hostIf = s.hostIf := rfl
@[simp] theorem State.setFld_polls (s : State) (r : Reg) (hi lo v : Nat) : (s.setFld r hi lo v).polls = s.polls := rfl
@[simp] theorem State.setFld_sbusTicks (s : State) (r : Reg) (hi lo v : Nat) : (s.setFld r hi lo v).sbusTicks = s.sbusTicks := rfl
@[simp] theorem State.setFld_link (s : State) (r : Reg) (hi lo v : Nat) : (s.setFld r hi lo v).link = s.link := rfl
@[simp] theorem State.setFld_servo (s : State) (r : Reg) (hi lo v : Nat) : (s.setFld r hi lo v).servo = s.servo := rfl
@[simp] theorem State.setFld_pwr (s : State) (r : Reg) (hi lo v : Nat) : (s.setFld r hi lo v).pwr = s.pwr := rfl
@[simp] theorem State.setFld_ebb (s : State) (r : Reg) (hi lo v : Nat) : (s.setFld r hi lo v).ebb = s.ebb := rfl
@[simp] theorem State.setFld_sl (s : State) (r : Reg) (hi lo v : Nat) : (s.setFld r hi lo v).sl = s.sl := rfl
@[simp] theorem State.setFld_beo0 (s : State) (r : Reg) (hi lo v : Nat) : (s.setFld r hi lo v).beo0 = s.beo0 := rfl
@[simp] theorem State.setFld_beo1 (s : State) (r : Reg) (hi lo v : Nat) : (s.setFld r hi lo v).beo1 = s.beo1 := rfl
@[simp] theorem State.setFld_loop (s : State) (r : Reg) (hi lo v : Nat) : (s.setFld r hi lo v).loop = s.loop := rfl
@[simp] theorem State.setFld_freeCtr (s : State) (r : Reg) (hi lo v : Nat) : (s.setFld r hi lo v).freeCtr = s.freeCtr := rfl
@[simp] theorem State.setFld_ch_at (s : State) (r : Reg) (hi lo v : Nat) (m : Nat) : (s.setFld r hi lo v).ch m = s.ch m := rfl
@[simp] theorem State.setFld_drv_at (s : State) (r : Reg) (hi lo v : Nat) (m : Nat) : (s.setFld r hi lo v).drv m = s.drv m := rfl
@[simp] theorem State.setFld_isrc_at (s : State) (r : Reg) (hi lo v : Nat) (m : Nat) : (s.setFld r hi lo v).isrc m = s.isrc m := rfl
@[simp] theorem State.setFld_dsr_at (s : State) (r : Reg) (hi lo v : Nat) (m : Nat) : (s.setFld r hi lo v).dsr m = s.dsr m := rfl
@[simp] theorem State.setFld_det_at (s : State) (r : Reg) (hi lo v : Nat) (m : Nat) : (s.setFld r hi lo v).det m = s.det m := rfl
@[simp] theorem State.setFld_stat_at (s : State) (r : Reg) (hi lo v : Nat) (m : Nat) : (s.setFld r hi lo v).stat m = s.stat m := rfl
@[simp] theorem State.setFld_meld_at (s : State) (r : Reg) (hi lo v : Nat) (m : Nat) : (s.setFld r hi lo v).meld m = s.meld m := rfl
@[simp] theorem State.setFld_queue_at (s : State) (r : Reg) (hi lo v : Nat) (m : Nat) : (s.setFld r hi lo v).queue m = s.queue m := rfl
@[simp] theorem State.setFld_poll_at (s : State) (r : Reg) (hi lo v : Nat) (m : Nat) : (s.setFld r hi lo v).poll m = s.poll m := rfl

/-! ### setBit -/

@[simp] theorem State.setBit_pending (s : State) (r : Reg) (i : Nat) (b : Bool) : (s.setBit r i b).pending = s.pending := rfl
@[simp] theorem State.setBit_sram (s : State) (r : Reg) (i : Nat) (b : Bool) : (s.setBit r i b).sram = s.sram := rfl
@[simp] theorem State.setBit_otp (s : State) (r : Reg) (i : Nat) (b : Bool) : (s.setBit r i b).otp = s.otp := rfl
@[simp] theorem State.setBit_coef (s : State) (r : Reg) (i : Nat) (b : Bool) : (s.setBit r i b).coef = s.coef := rfl
@[simp] theorem State.setBit_proto (s : State) (r : Reg) (i : Nat) (b : Bool) : (s.setBit r i b).proto = s.proto := rfl
@[simp] theorem State.setBit_clk (s : State) (r : Reg) (i : Nat) (b : Bool) : (s.setBit r i b).clk = s.clk := rfl
@[simp] theorem State.setBit_eng (s : State) (r : Reg) (i : Nat) (b : Bool) : (s.setBit r i b).eng = s.eng := rfl
@[simp] theorem State.setBit_chains (s : State) (r : Reg) (i : Nat) (b : Bool) : (s.setBit r i b).chains = s.chains := rfl
@[simp] theorem State.setBit_past (s : State) (r : Reg) (i : Nat) (b : Bool) : (s.setBit r i b).past = s.past := rfl
@[simp] theorem State.setBit_drivers (s : State) (r : Reg) (i : Nat) (b : Bool) : (s.setBit r i b).drivers = s.drivers := rfl
@[simp] theorem State.setBit_sources (s : State) (r : Reg) (i : Nat) (b : Bool) : (s.setBit r i b).sources = s.sources := rfl
@[simp] theorem State.setBit_mon (s : State) (r : Reg) (i : Nat) (b : Bool) : (s.setBit r i b).mon = s.mon := rfl
@[simp] theorem State.setBit_ds (s : State) (r : Reg) (i : Nat) (b : Bool) : (s.setBit r i b).ds = s.ds := rfl
@[simp] theorem State.setBit_dsStage (s : State) (r : Reg) (i : Nat) (b : Bool) : (s.setBit r i b).dsStage = s.dsStage := rfl
@[simp] theorem State.setBit_dets (s : State) (r : Reg) (i : Nat) (b : Bool) : (s.setBit r i b).dets = s.dets := rfl
@[simp] theorem State.setBit_stats (s : State) (r : Reg) (i : Nat) (b : Bool) : (s.setBit r i b).stats = s.stats := rfl
@[simp] theorem State.setBit_melds (s : State) (r : Reg) (i : Nat) (b : Bool) : (s.setBit r i b).melds = s.melds := rfl
@[simp] theorem State.setBit_route (s : State) (r : Reg) (i : Nat) (b : Bool) : (s.setBit r i b).route = s.route := rfl
@[simp] theorem State.setBit_irq (s : State) (r : Reg) (i : Nat) (b : Bool) : (s.setBit r i b).irq = s.irq := rfl
@[simp] theorem State.setBit_queues (s : State) (r : Reg) (i : Nat) (b : Bool) : (s.setBit r i b).queues = s.queues := rfl
@[simp] theorem State.setBit_weir (s : State) (r : Reg) (i : Nat) (b : Bool) : (s.setBit r i b).weir = s.weir := rfl
@[simp] theorem State.setBit_syncs (s : State) (r : Reg) (i : Nat) (b : Bool) : (s.setBit r i b).syncs = s.syncs := rfl
@[simp] theorem State.setBit_syncLast (s : State) (r : Reg) (i : Nat) (b : Bool) : (s.setBit r i b).syncLast = s.syncLast := rfl
@[simp] theorem State.setBit_syncPin (s : State) (r : Reg) (i : Nat) (b : Bool) : (s.setBit r i b).syncPin = s.syncPin := rfl
@[simp] theorem State.setBit_tim (s : State) (r : Reg) (i : Nat) (b : Bool) : (s.setBit r i b).tim = s.tim := rfl
@[simp] theorem State.setBit_caps (s : State) (r : Reg) (i : Nat) (b : Bool) : (s.setBit r i b).caps = s.caps := rfl
@[simp] theorem State.setBit_hostIf (s : State) (r : Reg) (i : Nat) (b : Bool) : (s.setBit r i b).hostIf = s.hostIf := rfl
@[simp] theorem State.setBit_polls (s : State) (r : Reg) (i : Nat) (b : Bool) : (s.setBit r i b).polls = s.polls := rfl
@[simp] theorem State.setBit_sbusTicks (s : State) (r : Reg) (i : Nat) (b : Bool) : (s.setBit r i b).sbusTicks = s.sbusTicks := rfl
@[simp] theorem State.setBit_link (s : State) (r : Reg) (i : Nat) (b : Bool) : (s.setBit r i b).link = s.link := rfl
@[simp] theorem State.setBit_servo (s : State) (r : Reg) (i : Nat) (b : Bool) : (s.setBit r i b).servo = s.servo := rfl
@[simp] theorem State.setBit_pwr (s : State) (r : Reg) (i : Nat) (b : Bool) : (s.setBit r i b).pwr = s.pwr := rfl
@[simp] theorem State.setBit_ebb (s : State) (r : Reg) (i : Nat) (b : Bool) : (s.setBit r i b).ebb = s.ebb := rfl
@[simp] theorem State.setBit_sl (s : State) (r : Reg) (i : Nat) (b : Bool) : (s.setBit r i b).sl = s.sl := rfl
@[simp] theorem State.setBit_beo0 (s : State) (r : Reg) (i : Nat) (b : Bool) : (s.setBit r i b).beo0 = s.beo0 := rfl
@[simp] theorem State.setBit_beo1 (s : State) (r : Reg) (i : Nat) (b : Bool) : (s.setBit r i b).beo1 = s.beo1 := rfl
@[simp] theorem State.setBit_loop (s : State) (r : Reg) (i : Nat) (b : Bool) : (s.setBit r i b).loop = s.loop := rfl
@[simp] theorem State.setBit_freeCtr (s : State) (r : Reg) (i : Nat) (b : Bool) : (s.setBit r i b).freeCtr = s.freeCtr := rfl
@[simp] theorem State.setBit_ch_at (s : State) (r : Reg) (i : Nat) (b : Bool) (m : Nat) : (s.setBit r i b).ch m = s.ch m := rfl
@[simp] theorem State.setBit_drv_at (s : State) (r : Reg) (i : Nat) (b : Bool) (m : Nat) : (s.setBit r i b).drv m = s.drv m := rfl
@[simp] theorem State.setBit_isrc_at (s : State) (r : Reg) (i : Nat) (b : Bool) (m : Nat) : (s.setBit r i b).isrc m = s.isrc m := rfl
@[simp] theorem State.setBit_dsr_at (s : State) (r : Reg) (i : Nat) (b : Bool) (m : Nat) : (s.setBit r i b).dsr m = s.dsr m := rfl
@[simp] theorem State.setBit_det_at (s : State) (r : Reg) (i : Nat) (b : Bool) (m : Nat) : (s.setBit r i b).det m = s.det m := rfl
@[simp] theorem State.setBit_stat_at (s : State) (r : Reg) (i : Nat) (b : Bool) (m : Nat) : (s.setBit r i b).stat m = s.stat m := rfl
@[simp] theorem State.setBit_meld_at (s : State) (r : Reg) (i : Nat) (b : Bool) (m : Nat) : (s.setBit r i b).meld m = s.meld m := rfl
@[simp] theorem State.setBit_queue_at (s : State) (r : Reg) (i : Nat) (b : Bool) (m : Nat) : (s.setBit r i b).queue m = s.queue m := rfl
@[simp] theorem State.setBit_poll_at (s : State) (r : Reg) (i : Nat) (b : Bool) (m : Nat) : (s.setBit r i b).poll m = s.poll m := rfl

/-! ### satAdd -/

@[simp] theorem State.satAdd_pending (s : State) (r : Reg) (hi lo k : Nat) : (s.satAdd r hi lo k).pending = s.pending := rfl
@[simp] theorem State.satAdd_sram (s : State) (r : Reg) (hi lo k : Nat) : (s.satAdd r hi lo k).sram = s.sram := rfl
@[simp] theorem State.satAdd_otp (s : State) (r : Reg) (hi lo k : Nat) : (s.satAdd r hi lo k).otp = s.otp := rfl
@[simp] theorem State.satAdd_coef (s : State) (r : Reg) (hi lo k : Nat) : (s.satAdd r hi lo k).coef = s.coef := rfl
@[simp] theorem State.satAdd_proto (s : State) (r : Reg) (hi lo k : Nat) : (s.satAdd r hi lo k).proto = s.proto := rfl
@[simp] theorem State.satAdd_clk (s : State) (r : Reg) (hi lo k : Nat) : (s.satAdd r hi lo k).clk = s.clk := rfl
@[simp] theorem State.satAdd_eng (s : State) (r : Reg) (hi lo k : Nat) : (s.satAdd r hi lo k).eng = s.eng := rfl
@[simp] theorem State.satAdd_chains (s : State) (r : Reg) (hi lo k : Nat) : (s.satAdd r hi lo k).chains = s.chains := rfl
@[simp] theorem State.satAdd_past (s : State) (r : Reg) (hi lo k : Nat) : (s.satAdd r hi lo k).past = s.past := rfl
@[simp] theorem State.satAdd_drivers (s : State) (r : Reg) (hi lo k : Nat) : (s.satAdd r hi lo k).drivers = s.drivers := rfl
@[simp] theorem State.satAdd_sources (s : State) (r : Reg) (hi lo k : Nat) : (s.satAdd r hi lo k).sources = s.sources := rfl
@[simp] theorem State.satAdd_mon (s : State) (r : Reg) (hi lo k : Nat) : (s.satAdd r hi lo k).mon = s.mon := rfl
@[simp] theorem State.satAdd_ds (s : State) (r : Reg) (hi lo k : Nat) : (s.satAdd r hi lo k).ds = s.ds := rfl
@[simp] theorem State.satAdd_dsStage (s : State) (r : Reg) (hi lo k : Nat) : (s.satAdd r hi lo k).dsStage = s.dsStage := rfl
@[simp] theorem State.satAdd_dets (s : State) (r : Reg) (hi lo k : Nat) : (s.satAdd r hi lo k).dets = s.dets := rfl
@[simp] theorem State.satAdd_stats (s : State) (r : Reg) (hi lo k : Nat) : (s.satAdd r hi lo k).stats = s.stats := rfl
@[simp] theorem State.satAdd_melds (s : State) (r : Reg) (hi lo k : Nat) : (s.satAdd r hi lo k).melds = s.melds := rfl
@[simp] theorem State.satAdd_route (s : State) (r : Reg) (hi lo k : Nat) : (s.satAdd r hi lo k).route = s.route := rfl
@[simp] theorem State.satAdd_irq (s : State) (r : Reg) (hi lo k : Nat) : (s.satAdd r hi lo k).irq = s.irq := rfl
@[simp] theorem State.satAdd_queues (s : State) (r : Reg) (hi lo k : Nat) : (s.satAdd r hi lo k).queues = s.queues := rfl
@[simp] theorem State.satAdd_weir (s : State) (r : Reg) (hi lo k : Nat) : (s.satAdd r hi lo k).weir = s.weir := rfl
@[simp] theorem State.satAdd_syncs (s : State) (r : Reg) (hi lo k : Nat) : (s.satAdd r hi lo k).syncs = s.syncs := rfl
@[simp] theorem State.satAdd_syncLast (s : State) (r : Reg) (hi lo k : Nat) : (s.satAdd r hi lo k).syncLast = s.syncLast := rfl
@[simp] theorem State.satAdd_syncPin (s : State) (r : Reg) (hi lo k : Nat) : (s.satAdd r hi lo k).syncPin = s.syncPin := rfl
@[simp] theorem State.satAdd_tim (s : State) (r : Reg) (hi lo k : Nat) : (s.satAdd r hi lo k).tim = s.tim := rfl
@[simp] theorem State.satAdd_caps (s : State) (r : Reg) (hi lo k : Nat) : (s.satAdd r hi lo k).caps = s.caps := rfl
@[simp] theorem State.satAdd_hostIf (s : State) (r : Reg) (hi lo k : Nat) : (s.satAdd r hi lo k).hostIf = s.hostIf := rfl
@[simp] theorem State.satAdd_polls (s : State) (r : Reg) (hi lo k : Nat) : (s.satAdd r hi lo k).polls = s.polls := rfl
@[simp] theorem State.satAdd_sbusTicks (s : State) (r : Reg) (hi lo k : Nat) : (s.satAdd r hi lo k).sbusTicks = s.sbusTicks := rfl
@[simp] theorem State.satAdd_link (s : State) (r : Reg) (hi lo k : Nat) : (s.satAdd r hi lo k).link = s.link := rfl
@[simp] theorem State.satAdd_servo (s : State) (r : Reg) (hi lo k : Nat) : (s.satAdd r hi lo k).servo = s.servo := rfl
@[simp] theorem State.satAdd_pwr (s : State) (r : Reg) (hi lo k : Nat) : (s.satAdd r hi lo k).pwr = s.pwr := rfl
@[simp] theorem State.satAdd_ebb (s : State) (r : Reg) (hi lo k : Nat) : (s.satAdd r hi lo k).ebb = s.ebb := rfl
@[simp] theorem State.satAdd_sl (s : State) (r : Reg) (hi lo k : Nat) : (s.satAdd r hi lo k).sl = s.sl := rfl
@[simp] theorem State.satAdd_beo0 (s : State) (r : Reg) (hi lo k : Nat) : (s.satAdd r hi lo k).beo0 = s.beo0 := rfl
@[simp] theorem State.satAdd_beo1 (s : State) (r : Reg) (hi lo k : Nat) : (s.satAdd r hi lo k).beo1 = s.beo1 := rfl
@[simp] theorem State.satAdd_loop (s : State) (r : Reg) (hi lo k : Nat) : (s.satAdd r hi lo k).loop = s.loop := rfl
@[simp] theorem State.satAdd_freeCtr (s : State) (r : Reg) (hi lo k : Nat) : (s.satAdd r hi lo k).freeCtr = s.freeCtr := rfl
@[simp] theorem State.satAdd_ch_at (s : State) (r : Reg) (hi lo k : Nat) (m : Nat) : (s.satAdd r hi lo k).ch m = s.ch m := rfl
@[simp] theorem State.satAdd_drv_at (s : State) (r : Reg) (hi lo k : Nat) (m : Nat) : (s.satAdd r hi lo k).drv m = s.drv m := rfl
@[simp] theorem State.satAdd_isrc_at (s : State) (r : Reg) (hi lo k : Nat) (m : Nat) : (s.satAdd r hi lo k).isrc m = s.isrc m := rfl
@[simp] theorem State.satAdd_dsr_at (s : State) (r : Reg) (hi lo k : Nat) (m : Nat) : (s.satAdd r hi lo k).dsr m = s.dsr m := rfl
@[simp] theorem State.satAdd_det_at (s : State) (r : Reg) (hi lo k : Nat) (m : Nat) : (s.satAdd r hi lo k).det m = s.det m := rfl
@[simp] theorem State.satAdd_stat_at (s : State) (r : Reg) (hi lo k : Nat) (m : Nat) : (s.satAdd r hi lo k).stat m = s.stat m := rfl
@[simp] theorem State.satAdd_meld_at (s : State) (r : Reg) (hi lo k : Nat) (m : Nat) : (s.satAdd r hi lo k).meld m = s.meld m := rfl
@[simp] theorem State.satAdd_queue_at (s : State) (r : Reg) (hi lo k : Nat) (m : Nat) : (s.satAdd r hi lo k).queue m = s.queue m := rfl
@[simp] theorem State.satAdd_poll_at (s : State) (r : Reg) (hi lo k : Nat) (m : Nat) : (s.satAdd r hi lo k).poll m = s.poll m := rfl

/-! ### setPair -/

@[simp] theorem State.setPair_pending (s : State) (lo hi : Reg) (v : Int) : (s.setPair lo hi v).pending = s.pending := rfl
@[simp] theorem State.setPair_sram (s : State) (lo hi : Reg) (v : Int) : (s.setPair lo hi v).sram = s.sram := rfl
@[simp] theorem State.setPair_otp (s : State) (lo hi : Reg) (v : Int) : (s.setPair lo hi v).otp = s.otp := rfl
@[simp] theorem State.setPair_coef (s : State) (lo hi : Reg) (v : Int) : (s.setPair lo hi v).coef = s.coef := rfl
@[simp] theorem State.setPair_proto (s : State) (lo hi : Reg) (v : Int) : (s.setPair lo hi v).proto = s.proto := rfl
@[simp] theorem State.setPair_clk (s : State) (lo hi : Reg) (v : Int) : (s.setPair lo hi v).clk = s.clk := rfl
@[simp] theorem State.setPair_eng (s : State) (lo hi : Reg) (v : Int) : (s.setPair lo hi v).eng = s.eng := rfl
@[simp] theorem State.setPair_chains (s : State) (lo hi : Reg) (v : Int) : (s.setPair lo hi v).chains = s.chains := rfl
@[simp] theorem State.setPair_past (s : State) (lo hi : Reg) (v : Int) : (s.setPair lo hi v).past = s.past := rfl
@[simp] theorem State.setPair_drivers (s : State) (lo hi : Reg) (v : Int) : (s.setPair lo hi v).drivers = s.drivers := rfl
@[simp] theorem State.setPair_sources (s : State) (lo hi : Reg) (v : Int) : (s.setPair lo hi v).sources = s.sources := rfl
@[simp] theorem State.setPair_mon (s : State) (lo hi : Reg) (v : Int) : (s.setPair lo hi v).mon = s.mon := rfl
@[simp] theorem State.setPair_ds (s : State) (lo hi : Reg) (v : Int) : (s.setPair lo hi v).ds = s.ds := rfl
@[simp] theorem State.setPair_dsStage (s : State) (lo hi : Reg) (v : Int) : (s.setPair lo hi v).dsStage = s.dsStage := rfl
@[simp] theorem State.setPair_dets (s : State) (lo hi : Reg) (v : Int) : (s.setPair lo hi v).dets = s.dets := rfl
@[simp] theorem State.setPair_stats (s : State) (lo hi : Reg) (v : Int) : (s.setPair lo hi v).stats = s.stats := rfl
@[simp] theorem State.setPair_melds (s : State) (lo hi : Reg) (v : Int) : (s.setPair lo hi v).melds = s.melds := rfl
@[simp] theorem State.setPair_route (s : State) (lo hi : Reg) (v : Int) : (s.setPair lo hi v).route = s.route := rfl
@[simp] theorem State.setPair_irq (s : State) (lo hi : Reg) (v : Int) : (s.setPair lo hi v).irq = s.irq := rfl
@[simp] theorem State.setPair_queues (s : State) (lo hi : Reg) (v : Int) : (s.setPair lo hi v).queues = s.queues := rfl
@[simp] theorem State.setPair_weir (s : State) (lo hi : Reg) (v : Int) : (s.setPair lo hi v).weir = s.weir := rfl
@[simp] theorem State.setPair_syncs (s : State) (lo hi : Reg) (v : Int) : (s.setPair lo hi v).syncs = s.syncs := rfl
@[simp] theorem State.setPair_syncLast (s : State) (lo hi : Reg) (v : Int) : (s.setPair lo hi v).syncLast = s.syncLast := rfl
@[simp] theorem State.setPair_syncPin (s : State) (lo hi : Reg) (v : Int) : (s.setPair lo hi v).syncPin = s.syncPin := rfl
@[simp] theorem State.setPair_tim (s : State) (lo hi : Reg) (v : Int) : (s.setPair lo hi v).tim = s.tim := rfl
@[simp] theorem State.setPair_caps (s : State) (lo hi : Reg) (v : Int) : (s.setPair lo hi v).caps = s.caps := rfl
@[simp] theorem State.setPair_hostIf (s : State) (lo hi : Reg) (v : Int) : (s.setPair lo hi v).hostIf = s.hostIf := rfl
@[simp] theorem State.setPair_polls (s : State) (lo hi : Reg) (v : Int) : (s.setPair lo hi v).polls = s.polls := rfl
@[simp] theorem State.setPair_sbusTicks (s : State) (lo hi : Reg) (v : Int) : (s.setPair lo hi v).sbusTicks = s.sbusTicks := rfl
@[simp] theorem State.setPair_link (s : State) (lo hi : Reg) (v : Int) : (s.setPair lo hi v).link = s.link := rfl
@[simp] theorem State.setPair_servo (s : State) (lo hi : Reg) (v : Int) : (s.setPair lo hi v).servo = s.servo := rfl
@[simp] theorem State.setPair_pwr (s : State) (lo hi : Reg) (v : Int) : (s.setPair lo hi v).pwr = s.pwr := rfl
@[simp] theorem State.setPair_ebb (s : State) (lo hi : Reg) (v : Int) : (s.setPair lo hi v).ebb = s.ebb := rfl
@[simp] theorem State.setPair_sl (s : State) (lo hi : Reg) (v : Int) : (s.setPair lo hi v).sl = s.sl := rfl
@[simp] theorem State.setPair_beo0 (s : State) (lo hi : Reg) (v : Int) : (s.setPair lo hi v).beo0 = s.beo0 := rfl
@[simp] theorem State.setPair_beo1 (s : State) (lo hi : Reg) (v : Int) : (s.setPair lo hi v).beo1 = s.beo1 := rfl
@[simp] theorem State.setPair_loop (s : State) (lo hi : Reg) (v : Int) : (s.setPair lo hi v).loop = s.loop := rfl
@[simp] theorem State.setPair_freeCtr (s : State) (lo hi : Reg) (v : Int) : (s.setPair lo hi v).freeCtr = s.freeCtr := rfl
@[simp] theorem State.setPair_ch_at (s : State) (lo hi : Reg) (v : Int) (m : Nat) : (s.setPair lo hi v).ch m = s.ch m := rfl
@[simp] theorem State.setPair_drv_at (s : State) (lo hi : Reg) (v : Int) (m : Nat) : (s.setPair lo hi v).drv m = s.drv m := rfl
@[simp] theorem State.setPair_isrc_at (s : State) (lo hi : Reg) (v : Int) (m : Nat) : (s.setPair lo hi v).isrc m = s.isrc m := rfl
@[simp] theorem State.setPair_dsr_at (s : State) (lo hi : Reg) (v : Int) (m : Nat) : (s.setPair lo hi v).dsr m = s.dsr m := rfl
@[simp] theorem State.setPair_det_at (s : State) (lo hi : Reg) (v : Int) (m : Nat) : (s.setPair lo hi v).det m = s.det m := rfl
@[simp] theorem State.setPair_stat_at (s : State) (lo hi : Reg) (v : Int) (m : Nat) : (s.setPair lo hi v).stat m = s.stat m := rfl
@[simp] theorem State.setPair_meld_at (s : State) (lo hi : Reg) (v : Int) (m : Nat) : (s.setPair lo hi v).meld m = s.meld m := rfl
@[simp] theorem State.setPair_queue_at (s : State) (lo hi : Reg) (v : Int) (m : Nat) : (s.setPair lo hi v).queue m = s.queue m := rfl
@[simp] theorem State.setPair_poll_at (s : State) (lo hi : Reg) (v : Int) (m : Nat) : (s.setPair lo hi v).poll m = s.poll m := rfl

/-! ### setCh -/

@[simp] theorem State.setCh_pending (s : State) (n : Nat) (x : Chain) : (s.setCh n x).pending = s.pending := rfl
@[simp] theorem State.setCh_regs (s : State) (n : Nat) (x : Chain) : (s.setCh n x).regs = s.regs := rfl
@[simp] theorem State.setCh_sram (s : State) (n : Nat) (x : Chain) : (s.setCh n x).sram = s.sram := rfl
@[simp] theorem State.setCh_otp (s : State) (n : Nat) (x : Chain) : (s.setCh n x).otp = s.otp := rfl
@[simp] theorem State.setCh_coef (s : State) (n : Nat) (x : Chain) : (s.setCh n x).coef = s.coef := rfl
@[simp] theorem State.setCh_proto (s : State) (n : Nat) (x : Chain) : (s.setCh n x).proto = s.proto := rfl
@[simp] theorem State.setCh_clk (s : State) (n : Nat) (x : Chain) : (s.setCh n x).clk = s.clk := rfl
@[simp] theorem State.setCh_eng (s : State) (n : Nat) (x : Chain) : (s.setCh n x).eng = s.eng := rfl
@[simp] theorem State.setCh_past (s : State) (n : Nat) (x : Chain) : (s.setCh n x).past = s.past := rfl
@[simp] theorem State.setCh_drivers (s : State) (n : Nat) (x : Chain) : (s.setCh n x).drivers = s.drivers := rfl
@[simp] theorem State.setCh_sources (s : State) (n : Nat) (x : Chain) : (s.setCh n x).sources = s.sources := rfl
@[simp] theorem State.setCh_mon (s : State) (n : Nat) (x : Chain) : (s.setCh n x).mon = s.mon := rfl
@[simp] theorem State.setCh_ds (s : State) (n : Nat) (x : Chain) : (s.setCh n x).ds = s.ds := rfl
@[simp] theorem State.setCh_dsStage (s : State) (n : Nat) (x : Chain) : (s.setCh n x).dsStage = s.dsStage := rfl
@[simp] theorem State.setCh_dets (s : State) (n : Nat) (x : Chain) : (s.setCh n x).dets = s.dets := rfl
@[simp] theorem State.setCh_stats (s : State) (n : Nat) (x : Chain) : (s.setCh n x).stats = s.stats := rfl
@[simp] theorem State.setCh_melds (s : State) (n : Nat) (x : Chain) : (s.setCh n x).melds = s.melds := rfl
@[simp] theorem State.setCh_route (s : State) (n : Nat) (x : Chain) : (s.setCh n x).route = s.route := rfl
@[simp] theorem State.setCh_irq (s : State) (n : Nat) (x : Chain) : (s.setCh n x).irq = s.irq := rfl
@[simp] theorem State.setCh_queues (s : State) (n : Nat) (x : Chain) : (s.setCh n x).queues = s.queues := rfl
@[simp] theorem State.setCh_weir (s : State) (n : Nat) (x : Chain) : (s.setCh n x).weir = s.weir := rfl
@[simp] theorem State.setCh_syncs (s : State) (n : Nat) (x : Chain) : (s.setCh n x).syncs = s.syncs := rfl
@[simp] theorem State.setCh_syncLast (s : State) (n : Nat) (x : Chain) : (s.setCh n x).syncLast = s.syncLast := rfl
@[simp] theorem State.setCh_syncPin (s : State) (n : Nat) (x : Chain) : (s.setCh n x).syncPin = s.syncPin := rfl
@[simp] theorem State.setCh_tim (s : State) (n : Nat) (x : Chain) : (s.setCh n x).tim = s.tim := rfl
@[simp] theorem State.setCh_caps (s : State) (n : Nat) (x : Chain) : (s.setCh n x).caps = s.caps := rfl
@[simp] theorem State.setCh_hostIf (s : State) (n : Nat) (x : Chain) : (s.setCh n x).hostIf = s.hostIf := rfl
@[simp] theorem State.setCh_polls (s : State) (n : Nat) (x : Chain) : (s.setCh n x).polls = s.polls := rfl
@[simp] theorem State.setCh_sbusTicks (s : State) (n : Nat) (x : Chain) : (s.setCh n x).sbusTicks = s.sbusTicks := rfl
@[simp] theorem State.setCh_link (s : State) (n : Nat) (x : Chain) : (s.setCh n x).link = s.link := rfl
@[simp] theorem State.setCh_servo (s : State) (n : Nat) (x : Chain) : (s.setCh n x).servo = s.servo := rfl
@[simp] theorem State.setCh_pwr (s : State) (n : Nat) (x : Chain) : (s.setCh n x).pwr = s.pwr := rfl
@[simp] theorem State.setCh_ebb (s : State) (n : Nat) (x : Chain) : (s.setCh n x).ebb = s.ebb := rfl
@[simp] theorem State.setCh_sl (s : State) (n : Nat) (x : Chain) : (s.setCh n x).sl = s.sl := rfl
@[simp] theorem State.setCh_beo0 (s : State) (n : Nat) (x : Chain) : (s.setCh n x).beo0 = s.beo0 := rfl
@[simp] theorem State.setCh_beo1 (s : State) (n : Nat) (x : Chain) : (s.setCh n x).beo1 = s.beo1 := rfl
@[simp] theorem State.setCh_loop (s : State) (n : Nat) (x : Chain) : (s.setCh n x).loop = s.loop := rfl
@[simp] theorem State.setCh_freeCtr (s : State) (n : Nat) (x : Chain) : (s.setCh n x).freeCtr = s.freeCtr := rfl
@[simp] theorem State.setCh_reg (s : State) (n : Nat) (x : Chain) (q : Reg) : (s.setCh n x).reg q = s.reg q := rfl
@[simp] theorem State.setCh_fld (s : State) (n : Nat) (x : Chain) (q : Reg) (j k : Nat) : (s.setCh n x).fld q j k = s.fld q j k := rfl
@[simp] theorem State.setCh_bit (s : State) (n : Nat) (x : Chain) (q : Reg) (j : Nat) : (s.setCh n x).bit q j = s.bit q j := rfl
@[simp] theorem State.setCh_drv_at (s : State) (n : Nat) (x : Chain) (m : Nat) : (s.setCh n x).drv m = s.drv m := rfl
@[simp] theorem State.setCh_isrc_at (s : State) (n : Nat) (x : Chain) (m : Nat) : (s.setCh n x).isrc m = s.isrc m := rfl
@[simp] theorem State.setCh_dsr_at (s : State) (n : Nat) (x : Chain) (m : Nat) : (s.setCh n x).dsr m = s.dsr m := rfl
@[simp] theorem State.setCh_det_at (s : State) (n : Nat) (x : Chain) (m : Nat) : (s.setCh n x).det m = s.det m := rfl
@[simp] theorem State.setCh_stat_at (s : State) (n : Nat) (x : Chain) (m : Nat) : (s.setCh n x).stat m = s.stat m := rfl
@[simp] theorem State.setCh_meld_at (s : State) (n : Nat) (x : Chain) (m : Nat) : (s.setCh n x).meld m = s.meld m := rfl
@[simp] theorem State.setCh_queue_at (s : State) (n : Nat) (x : Chain) (m : Nat) : (s.setCh n x).queue m = s.queue m := rfl
@[simp] theorem State.setCh_poll_at (s : State) (n : Nat) (x : Chain) (m : Nat) : (s.setCh n x).poll m = s.poll m := rfl

/-! ### modCh -/

@[simp] theorem State.modCh_pending (s : State) (n : Nat) (g : Chain → Chain) : (s.modCh n g).pending = s.pending := rfl
@[simp] theorem State.modCh_regs (s : State) (n : Nat) (g : Chain → Chain) : (s.modCh n g).regs = s.regs := rfl
@[simp] theorem State.modCh_sram (s : State) (n : Nat) (g : Chain → Chain) : (s.modCh n g).sram = s.sram := rfl
@[simp] theorem State.modCh_otp (s : State) (n : Nat) (g : Chain → Chain) : (s.modCh n g).otp = s.otp := rfl
@[simp] theorem State.modCh_coef (s : State) (n : Nat) (g : Chain → Chain) : (s.modCh n g).coef = s.coef := rfl
@[simp] theorem State.modCh_proto (s : State) (n : Nat) (g : Chain → Chain) : (s.modCh n g).proto = s.proto := rfl
@[simp] theorem State.modCh_clk (s : State) (n : Nat) (g : Chain → Chain) : (s.modCh n g).clk = s.clk := rfl
@[simp] theorem State.modCh_eng (s : State) (n : Nat) (g : Chain → Chain) : (s.modCh n g).eng = s.eng := rfl
@[simp] theorem State.modCh_past (s : State) (n : Nat) (g : Chain → Chain) : (s.modCh n g).past = s.past := rfl
@[simp] theorem State.modCh_drivers (s : State) (n : Nat) (g : Chain → Chain) : (s.modCh n g).drivers = s.drivers := rfl
@[simp] theorem State.modCh_sources (s : State) (n : Nat) (g : Chain → Chain) : (s.modCh n g).sources = s.sources := rfl
@[simp] theorem State.modCh_mon (s : State) (n : Nat) (g : Chain → Chain) : (s.modCh n g).mon = s.mon := rfl
@[simp] theorem State.modCh_ds (s : State) (n : Nat) (g : Chain → Chain) : (s.modCh n g).ds = s.ds := rfl
@[simp] theorem State.modCh_dsStage (s : State) (n : Nat) (g : Chain → Chain) : (s.modCh n g).dsStage = s.dsStage := rfl
@[simp] theorem State.modCh_dets (s : State) (n : Nat) (g : Chain → Chain) : (s.modCh n g).dets = s.dets := rfl
@[simp] theorem State.modCh_stats (s : State) (n : Nat) (g : Chain → Chain) : (s.modCh n g).stats = s.stats := rfl
@[simp] theorem State.modCh_melds (s : State) (n : Nat) (g : Chain → Chain) : (s.modCh n g).melds = s.melds := rfl
@[simp] theorem State.modCh_route (s : State) (n : Nat) (g : Chain → Chain) : (s.modCh n g).route = s.route := rfl
@[simp] theorem State.modCh_irq (s : State) (n : Nat) (g : Chain → Chain) : (s.modCh n g).irq = s.irq := rfl
@[simp] theorem State.modCh_queues (s : State) (n : Nat) (g : Chain → Chain) : (s.modCh n g).queues = s.queues := rfl
@[simp] theorem State.modCh_weir (s : State) (n : Nat) (g : Chain → Chain) : (s.modCh n g).weir = s.weir := rfl
@[simp] theorem State.modCh_syncs (s : State) (n : Nat) (g : Chain → Chain) : (s.modCh n g).syncs = s.syncs := rfl
@[simp] theorem State.modCh_syncLast (s : State) (n : Nat) (g : Chain → Chain) : (s.modCh n g).syncLast = s.syncLast := rfl
@[simp] theorem State.modCh_syncPin (s : State) (n : Nat) (g : Chain → Chain) : (s.modCh n g).syncPin = s.syncPin := rfl
@[simp] theorem State.modCh_tim (s : State) (n : Nat) (g : Chain → Chain) : (s.modCh n g).tim = s.tim := rfl
@[simp] theorem State.modCh_caps (s : State) (n : Nat) (g : Chain → Chain) : (s.modCh n g).caps = s.caps := rfl
@[simp] theorem State.modCh_hostIf (s : State) (n : Nat) (g : Chain → Chain) : (s.modCh n g).hostIf = s.hostIf := rfl
@[simp] theorem State.modCh_polls (s : State) (n : Nat) (g : Chain → Chain) : (s.modCh n g).polls = s.polls := rfl
@[simp] theorem State.modCh_sbusTicks (s : State) (n : Nat) (g : Chain → Chain) : (s.modCh n g).sbusTicks = s.sbusTicks := rfl
@[simp] theorem State.modCh_link (s : State) (n : Nat) (g : Chain → Chain) : (s.modCh n g).link = s.link := rfl
@[simp] theorem State.modCh_servo (s : State) (n : Nat) (g : Chain → Chain) : (s.modCh n g).servo = s.servo := rfl
@[simp] theorem State.modCh_pwr (s : State) (n : Nat) (g : Chain → Chain) : (s.modCh n g).pwr = s.pwr := rfl
@[simp] theorem State.modCh_ebb (s : State) (n : Nat) (g : Chain → Chain) : (s.modCh n g).ebb = s.ebb := rfl
@[simp] theorem State.modCh_sl (s : State) (n : Nat) (g : Chain → Chain) : (s.modCh n g).sl = s.sl := rfl
@[simp] theorem State.modCh_beo0 (s : State) (n : Nat) (g : Chain → Chain) : (s.modCh n g).beo0 = s.beo0 := rfl
@[simp] theorem State.modCh_beo1 (s : State) (n : Nat) (g : Chain → Chain) : (s.modCh n g).beo1 = s.beo1 := rfl
@[simp] theorem State.modCh_loop (s : State) (n : Nat) (g : Chain → Chain) : (s.modCh n g).loop = s.loop := rfl
@[simp] theorem State.modCh_freeCtr (s : State) (n : Nat) (g : Chain → Chain) : (s.modCh n g).freeCtr = s.freeCtr := rfl
@[simp] theorem State.modCh_reg (s : State) (n : Nat) (g : Chain → Chain) (q : Reg) : (s.modCh n g).reg q = s.reg q := rfl
@[simp] theorem State.modCh_fld (s : State) (n : Nat) (g : Chain → Chain) (q : Reg) (j k : Nat) : (s.modCh n g).fld q j k = s.fld q j k := rfl
@[simp] theorem State.modCh_bit (s : State) (n : Nat) (g : Chain → Chain) (q : Reg) (j : Nat) : (s.modCh n g).bit q j = s.bit q j := rfl
@[simp] theorem State.modCh_drv_at (s : State) (n : Nat) (g : Chain → Chain) (m : Nat) : (s.modCh n g).drv m = s.drv m := rfl
@[simp] theorem State.modCh_isrc_at (s : State) (n : Nat) (g : Chain → Chain) (m : Nat) : (s.modCh n g).isrc m = s.isrc m := rfl
@[simp] theorem State.modCh_dsr_at (s : State) (n : Nat) (g : Chain → Chain) (m : Nat) : (s.modCh n g).dsr m = s.dsr m := rfl
@[simp] theorem State.modCh_det_at (s : State) (n : Nat) (g : Chain → Chain) (m : Nat) : (s.modCh n g).det m = s.det m := rfl
@[simp] theorem State.modCh_stat_at (s : State) (n : Nat) (g : Chain → Chain) (m : Nat) : (s.modCh n g).stat m = s.stat m := rfl
@[simp] theorem State.modCh_meld_at (s : State) (n : Nat) (g : Chain → Chain) (m : Nat) : (s.modCh n g).meld m = s.meld m := rfl
@[simp] theorem State.modCh_queue_at (s : State) (n : Nat) (g : Chain → Chain) (m : Nat) : (s.modCh n g).queue m = s.queue m := rfl
@[simp] theorem State.modCh_poll_at (s : State) (n : Nat) (g : Chain → Chain) (m : Nat) : (s.modCh n g).poll m = s.poll m := rfl

/-! ### setDrv -/

@[simp] theorem State.setDrv_pending (s : State) (n : Nat) (x : Driver) : (s.setDrv n x).pending = s.pending := rfl
@[simp] theorem State.setDrv_regs (s : State) (n : Nat) (x : Driver) : (s.setDrv n x).regs = s.regs := rfl
@[simp] theorem State.setDrv_sram (s : State) (n : Nat) (x : Driver) : (s.setDrv n x).sram = s.sram := rfl
@[simp] theorem State.setDrv_otp (s : State) (n : Nat) (x : Driver) : (s.setDrv n x).otp = s.otp := rfl
@[simp] theorem State.setDrv_coef (s : State) (n : Nat) (x : Driver) : (s.setDrv n x).coef = s.coef := rfl
@[simp] theorem State.setDrv_proto (s : State) (n : Nat) (x : Driver) : (s.setDrv n x).proto = s.proto := rfl
@[simp] theorem State.setDrv_clk (s : State) (n : Nat) (x : Driver) : (s.setDrv n x).clk = s.clk := rfl
@[simp] theorem State.setDrv_eng (s : State) (n : Nat) (x : Driver) : (s.setDrv n x).eng = s.eng := rfl
@[simp] theorem State.setDrv_chains (s : State) (n : Nat) (x : Driver) : (s.setDrv n x).chains = s.chains := rfl
@[simp] theorem State.setDrv_past (s : State) (n : Nat) (x : Driver) : (s.setDrv n x).past = s.past := rfl
@[simp] theorem State.setDrv_sources (s : State) (n : Nat) (x : Driver) : (s.setDrv n x).sources = s.sources := rfl
@[simp] theorem State.setDrv_mon (s : State) (n : Nat) (x : Driver) : (s.setDrv n x).mon = s.mon := rfl
@[simp] theorem State.setDrv_ds (s : State) (n : Nat) (x : Driver) : (s.setDrv n x).ds = s.ds := rfl
@[simp] theorem State.setDrv_dsStage (s : State) (n : Nat) (x : Driver) : (s.setDrv n x).dsStage = s.dsStage := rfl
@[simp] theorem State.setDrv_dets (s : State) (n : Nat) (x : Driver) : (s.setDrv n x).dets = s.dets := rfl
@[simp] theorem State.setDrv_stats (s : State) (n : Nat) (x : Driver) : (s.setDrv n x).stats = s.stats := rfl
@[simp] theorem State.setDrv_melds (s : State) (n : Nat) (x : Driver) : (s.setDrv n x).melds = s.melds := rfl
@[simp] theorem State.setDrv_route (s : State) (n : Nat) (x : Driver) : (s.setDrv n x).route = s.route := rfl
@[simp] theorem State.setDrv_irq (s : State) (n : Nat) (x : Driver) : (s.setDrv n x).irq = s.irq := rfl
@[simp] theorem State.setDrv_queues (s : State) (n : Nat) (x : Driver) : (s.setDrv n x).queues = s.queues := rfl
@[simp] theorem State.setDrv_weir (s : State) (n : Nat) (x : Driver) : (s.setDrv n x).weir = s.weir := rfl
@[simp] theorem State.setDrv_syncs (s : State) (n : Nat) (x : Driver) : (s.setDrv n x).syncs = s.syncs := rfl
@[simp] theorem State.setDrv_syncLast (s : State) (n : Nat) (x : Driver) : (s.setDrv n x).syncLast = s.syncLast := rfl
@[simp] theorem State.setDrv_syncPin (s : State) (n : Nat) (x : Driver) : (s.setDrv n x).syncPin = s.syncPin := rfl
@[simp] theorem State.setDrv_tim (s : State) (n : Nat) (x : Driver) : (s.setDrv n x).tim = s.tim := rfl
@[simp] theorem State.setDrv_caps (s : State) (n : Nat) (x : Driver) : (s.setDrv n x).caps = s.caps := rfl
@[simp] theorem State.setDrv_hostIf (s : State) (n : Nat) (x : Driver) : (s.setDrv n x).hostIf = s.hostIf := rfl
@[simp] theorem State.setDrv_polls (s : State) (n : Nat) (x : Driver) : (s.setDrv n x).polls = s.polls := rfl
@[simp] theorem State.setDrv_sbusTicks (s : State) (n : Nat) (x : Driver) : (s.setDrv n x).sbusTicks = s.sbusTicks := rfl
@[simp] theorem State.setDrv_link (s : State) (n : Nat) (x : Driver) : (s.setDrv n x).link = s.link := rfl
@[simp] theorem State.setDrv_servo (s : State) (n : Nat) (x : Driver) : (s.setDrv n x).servo = s.servo := rfl
@[simp] theorem State.setDrv_pwr (s : State) (n : Nat) (x : Driver) : (s.setDrv n x).pwr = s.pwr := rfl
@[simp] theorem State.setDrv_ebb (s : State) (n : Nat) (x : Driver) : (s.setDrv n x).ebb = s.ebb := rfl
@[simp] theorem State.setDrv_sl (s : State) (n : Nat) (x : Driver) : (s.setDrv n x).sl = s.sl := rfl
@[simp] theorem State.setDrv_beo0 (s : State) (n : Nat) (x : Driver) : (s.setDrv n x).beo0 = s.beo0 := rfl
@[simp] theorem State.setDrv_beo1 (s : State) (n : Nat) (x : Driver) : (s.setDrv n x).beo1 = s.beo1 := rfl
@[simp] theorem State.setDrv_loop (s : State) (n : Nat) (x : Driver) : (s.setDrv n x).loop = s.loop := rfl
@[simp] theorem State.setDrv_freeCtr (s : State) (n : Nat) (x : Driver) : (s.setDrv n x).freeCtr = s.freeCtr := rfl
@[simp] theorem State.setDrv_reg (s : State) (n : Nat) (x : Driver) (q : Reg) : (s.setDrv n x).reg q = s.reg q := rfl
@[simp] theorem State.setDrv_fld (s : State) (n : Nat) (x : Driver) (q : Reg) (j k : Nat) : (s.setDrv n x).fld q j k = s.fld q j k := rfl
@[simp] theorem State.setDrv_bit (s : State) (n : Nat) (x : Driver) (q : Reg) (j : Nat) : (s.setDrv n x).bit q j = s.bit q j := rfl
@[simp] theorem State.setDrv_ch_at (s : State) (n : Nat) (x : Driver) (m : Nat) : (s.setDrv n x).ch m = s.ch m := rfl
@[simp] theorem State.setDrv_isrc_at (s : State) (n : Nat) (x : Driver) (m : Nat) : (s.setDrv n x).isrc m = s.isrc m := rfl
@[simp] theorem State.setDrv_dsr_at (s : State) (n : Nat) (x : Driver) (m : Nat) : (s.setDrv n x).dsr m = s.dsr m := rfl
@[simp] theorem State.setDrv_det_at (s : State) (n : Nat) (x : Driver) (m : Nat) : (s.setDrv n x).det m = s.det m := rfl
@[simp] theorem State.setDrv_stat_at (s : State) (n : Nat) (x : Driver) (m : Nat) : (s.setDrv n x).stat m = s.stat m := rfl
@[simp] theorem State.setDrv_meld_at (s : State) (n : Nat) (x : Driver) (m : Nat) : (s.setDrv n x).meld m = s.meld m := rfl
@[simp] theorem State.setDrv_queue_at (s : State) (n : Nat) (x : Driver) (m : Nat) : (s.setDrv n x).queue m = s.queue m := rfl
@[simp] theorem State.setDrv_poll_at (s : State) (n : Nat) (x : Driver) (m : Nat) : (s.setDrv n x).poll m = s.poll m := rfl

/-! ### modDrv -/

@[simp] theorem State.modDrv_pending (s : State) (n : Nat) (g : Driver → Driver) : (s.modDrv n g).pending = s.pending := rfl
@[simp] theorem State.modDrv_regs (s : State) (n : Nat) (g : Driver → Driver) : (s.modDrv n g).regs = s.regs := rfl
@[simp] theorem State.modDrv_sram (s : State) (n : Nat) (g : Driver → Driver) : (s.modDrv n g).sram = s.sram := rfl
@[simp] theorem State.modDrv_otp (s : State) (n : Nat) (g : Driver → Driver) : (s.modDrv n g).otp = s.otp := rfl
@[simp] theorem State.modDrv_coef (s : State) (n : Nat) (g : Driver → Driver) : (s.modDrv n g).coef = s.coef := rfl
@[simp] theorem State.modDrv_proto (s : State) (n : Nat) (g : Driver → Driver) : (s.modDrv n g).proto = s.proto := rfl
@[simp] theorem State.modDrv_clk (s : State) (n : Nat) (g : Driver → Driver) : (s.modDrv n g).clk = s.clk := rfl
@[simp] theorem State.modDrv_eng (s : State) (n : Nat) (g : Driver → Driver) : (s.modDrv n g).eng = s.eng := rfl
@[simp] theorem State.modDrv_chains (s : State) (n : Nat) (g : Driver → Driver) : (s.modDrv n g).chains = s.chains := rfl
@[simp] theorem State.modDrv_past (s : State) (n : Nat) (g : Driver → Driver) : (s.modDrv n g).past = s.past := rfl
@[simp] theorem State.modDrv_sources (s : State) (n : Nat) (g : Driver → Driver) : (s.modDrv n g).sources = s.sources := rfl
@[simp] theorem State.modDrv_mon (s : State) (n : Nat) (g : Driver → Driver) : (s.modDrv n g).mon = s.mon := rfl
@[simp] theorem State.modDrv_ds (s : State) (n : Nat) (g : Driver → Driver) : (s.modDrv n g).ds = s.ds := rfl
@[simp] theorem State.modDrv_dsStage (s : State) (n : Nat) (g : Driver → Driver) : (s.modDrv n g).dsStage = s.dsStage := rfl
@[simp] theorem State.modDrv_dets (s : State) (n : Nat) (g : Driver → Driver) : (s.modDrv n g).dets = s.dets := rfl
@[simp] theorem State.modDrv_stats (s : State) (n : Nat) (g : Driver → Driver) : (s.modDrv n g).stats = s.stats := rfl
@[simp] theorem State.modDrv_melds (s : State) (n : Nat) (g : Driver → Driver) : (s.modDrv n g).melds = s.melds := rfl
@[simp] theorem State.modDrv_route (s : State) (n : Nat) (g : Driver → Driver) : (s.modDrv n g).route = s.route := rfl
@[simp] theorem State.modDrv_irq (s : State) (n : Nat) (g : Driver → Driver) : (s.modDrv n g).irq = s.irq := rfl
@[simp] theorem State.modDrv_queues (s : State) (n : Nat) (g : Driver → Driver) : (s.modDrv n g).queues = s.queues := rfl
@[simp] theorem State.modDrv_weir (s : State) (n : Nat) (g : Driver → Driver) : (s.modDrv n g).weir = s.weir := rfl
@[simp] theorem State.modDrv_syncs (s : State) (n : Nat) (g : Driver → Driver) : (s.modDrv n g).syncs = s.syncs := rfl
@[simp] theorem State.modDrv_syncLast (s : State) (n : Nat) (g : Driver → Driver) : (s.modDrv n g).syncLast = s.syncLast := rfl
@[simp] theorem State.modDrv_syncPin (s : State) (n : Nat) (g : Driver → Driver) : (s.modDrv n g).syncPin = s.syncPin := rfl
@[simp] theorem State.modDrv_tim (s : State) (n : Nat) (g : Driver → Driver) : (s.modDrv n g).tim = s.tim := rfl
@[simp] theorem State.modDrv_caps (s : State) (n : Nat) (g : Driver → Driver) : (s.modDrv n g).caps = s.caps := rfl
@[simp] theorem State.modDrv_hostIf (s : State) (n : Nat) (g : Driver → Driver) : (s.modDrv n g).hostIf = s.hostIf := rfl
@[simp] theorem State.modDrv_polls (s : State) (n : Nat) (g : Driver → Driver) : (s.modDrv n g).polls = s.polls := rfl
@[simp] theorem State.modDrv_sbusTicks (s : State) (n : Nat) (g : Driver → Driver) : (s.modDrv n g).sbusTicks = s.sbusTicks := rfl
@[simp] theorem State.modDrv_link (s : State) (n : Nat) (g : Driver → Driver) : (s.modDrv n g).link = s.link := rfl
@[simp] theorem State.modDrv_servo (s : State) (n : Nat) (g : Driver → Driver) : (s.modDrv n g).servo = s.servo := rfl
@[simp] theorem State.modDrv_pwr (s : State) (n : Nat) (g : Driver → Driver) : (s.modDrv n g).pwr = s.pwr := rfl
@[simp] theorem State.modDrv_ebb (s : State) (n : Nat) (g : Driver → Driver) : (s.modDrv n g).ebb = s.ebb := rfl
@[simp] theorem State.modDrv_sl (s : State) (n : Nat) (g : Driver → Driver) : (s.modDrv n g).sl = s.sl := rfl
@[simp] theorem State.modDrv_beo0 (s : State) (n : Nat) (g : Driver → Driver) : (s.modDrv n g).beo0 = s.beo0 := rfl
@[simp] theorem State.modDrv_beo1 (s : State) (n : Nat) (g : Driver → Driver) : (s.modDrv n g).beo1 = s.beo1 := rfl
@[simp] theorem State.modDrv_loop (s : State) (n : Nat) (g : Driver → Driver) : (s.modDrv n g).loop = s.loop := rfl
@[simp] theorem State.modDrv_freeCtr (s : State) (n : Nat) (g : Driver → Driver) : (s.modDrv n g).freeCtr = s.freeCtr := rfl
@[simp] theorem State.modDrv_reg (s : State) (n : Nat) (g : Driver → Driver) (q : Reg) : (s.modDrv n g).reg q = s.reg q := rfl
@[simp] theorem State.modDrv_fld (s : State) (n : Nat) (g : Driver → Driver) (q : Reg) (j k : Nat) : (s.modDrv n g).fld q j k = s.fld q j k := rfl
@[simp] theorem State.modDrv_bit (s : State) (n : Nat) (g : Driver → Driver) (q : Reg) (j : Nat) : (s.modDrv n g).bit q j = s.bit q j := rfl
@[simp] theorem State.modDrv_ch_at (s : State) (n : Nat) (g : Driver → Driver) (m : Nat) : (s.modDrv n g).ch m = s.ch m := rfl
@[simp] theorem State.modDrv_isrc_at (s : State) (n : Nat) (g : Driver → Driver) (m : Nat) : (s.modDrv n g).isrc m = s.isrc m := rfl
@[simp] theorem State.modDrv_dsr_at (s : State) (n : Nat) (g : Driver → Driver) (m : Nat) : (s.modDrv n g).dsr m = s.dsr m := rfl
@[simp] theorem State.modDrv_det_at (s : State) (n : Nat) (g : Driver → Driver) (m : Nat) : (s.modDrv n g).det m = s.det m := rfl
@[simp] theorem State.modDrv_stat_at (s : State) (n : Nat) (g : Driver → Driver) (m : Nat) : (s.modDrv n g).stat m = s.stat m := rfl
@[simp] theorem State.modDrv_meld_at (s : State) (n : Nat) (g : Driver → Driver) (m : Nat) : (s.modDrv n g).meld m = s.meld m := rfl
@[simp] theorem State.modDrv_queue_at (s : State) (n : Nat) (g : Driver → Driver) (m : Nat) : (s.modDrv n g).queue m = s.queue m := rfl
@[simp] theorem State.modDrv_poll_at (s : State) (n : Nat) (g : Driver → Driver) (m : Nat) : (s.modDrv n g).poll m = s.poll m := rfl

/-! ### setIsrc -/

@[simp] theorem State.setIsrc_pending (s : State) (n : Nat) (x : Source) : (s.setIsrc n x).pending = s.pending := rfl
@[simp] theorem State.setIsrc_regs (s : State) (n : Nat) (x : Source) : (s.setIsrc n x).regs = s.regs := rfl
@[simp] theorem State.setIsrc_sram (s : State) (n : Nat) (x : Source) : (s.setIsrc n x).sram = s.sram := rfl
@[simp] theorem State.setIsrc_otp (s : State) (n : Nat) (x : Source) : (s.setIsrc n x).otp = s.otp := rfl
@[simp] theorem State.setIsrc_coef (s : State) (n : Nat) (x : Source) : (s.setIsrc n x).coef = s.coef := rfl
@[simp] theorem State.setIsrc_proto (s : State) (n : Nat) (x : Source) : (s.setIsrc n x).proto = s.proto := rfl
@[simp] theorem State.setIsrc_clk (s : State) (n : Nat) (x : Source) : (s.setIsrc n x).clk = s.clk := rfl
@[simp] theorem State.setIsrc_eng (s : State) (n : Nat) (x : Source) : (s.setIsrc n x).eng = s.eng := rfl
@[simp] theorem State.setIsrc_chains (s : State) (n : Nat) (x : Source) : (s.setIsrc n x).chains = s.chains := rfl
@[simp] theorem State.setIsrc_past (s : State) (n : Nat) (x : Source) : (s.setIsrc n x).past = s.past := rfl
@[simp] theorem State.setIsrc_drivers (s : State) (n : Nat) (x : Source) : (s.setIsrc n x).drivers = s.drivers := rfl
@[simp] theorem State.setIsrc_mon (s : State) (n : Nat) (x : Source) : (s.setIsrc n x).mon = s.mon := rfl
@[simp] theorem State.setIsrc_ds (s : State) (n : Nat) (x : Source) : (s.setIsrc n x).ds = s.ds := rfl
@[simp] theorem State.setIsrc_dsStage (s : State) (n : Nat) (x : Source) : (s.setIsrc n x).dsStage = s.dsStage := rfl
@[simp] theorem State.setIsrc_dets (s : State) (n : Nat) (x : Source) : (s.setIsrc n x).dets = s.dets := rfl
@[simp] theorem State.setIsrc_stats (s : State) (n : Nat) (x : Source) : (s.setIsrc n x).stats = s.stats := rfl
@[simp] theorem State.setIsrc_melds (s : State) (n : Nat) (x : Source) : (s.setIsrc n x).melds = s.melds := rfl
@[simp] theorem State.setIsrc_route (s : State) (n : Nat) (x : Source) : (s.setIsrc n x).route = s.route := rfl
@[simp] theorem State.setIsrc_irq (s : State) (n : Nat) (x : Source) : (s.setIsrc n x).irq = s.irq := rfl
@[simp] theorem State.setIsrc_queues (s : State) (n : Nat) (x : Source) : (s.setIsrc n x).queues = s.queues := rfl
@[simp] theorem State.setIsrc_weir (s : State) (n : Nat) (x : Source) : (s.setIsrc n x).weir = s.weir := rfl
@[simp] theorem State.setIsrc_syncs (s : State) (n : Nat) (x : Source) : (s.setIsrc n x).syncs = s.syncs := rfl
@[simp] theorem State.setIsrc_syncLast (s : State) (n : Nat) (x : Source) : (s.setIsrc n x).syncLast = s.syncLast := rfl
@[simp] theorem State.setIsrc_syncPin (s : State) (n : Nat) (x : Source) : (s.setIsrc n x).syncPin = s.syncPin := rfl
@[simp] theorem State.setIsrc_tim (s : State) (n : Nat) (x : Source) : (s.setIsrc n x).tim = s.tim := rfl
@[simp] theorem State.setIsrc_caps (s : State) (n : Nat) (x : Source) : (s.setIsrc n x).caps = s.caps := rfl
@[simp] theorem State.setIsrc_hostIf (s : State) (n : Nat) (x : Source) : (s.setIsrc n x).hostIf = s.hostIf := rfl
@[simp] theorem State.setIsrc_polls (s : State) (n : Nat) (x : Source) : (s.setIsrc n x).polls = s.polls := rfl
@[simp] theorem State.setIsrc_sbusTicks (s : State) (n : Nat) (x : Source) : (s.setIsrc n x).sbusTicks = s.sbusTicks := rfl
@[simp] theorem State.setIsrc_link (s : State) (n : Nat) (x : Source) : (s.setIsrc n x).link = s.link := rfl
@[simp] theorem State.setIsrc_servo (s : State) (n : Nat) (x : Source) : (s.setIsrc n x).servo = s.servo := rfl
@[simp] theorem State.setIsrc_pwr (s : State) (n : Nat) (x : Source) : (s.setIsrc n x).pwr = s.pwr := rfl
@[simp] theorem State.setIsrc_ebb (s : State) (n : Nat) (x : Source) : (s.setIsrc n x).ebb = s.ebb := rfl
@[simp] theorem State.setIsrc_sl (s : State) (n : Nat) (x : Source) : (s.setIsrc n x).sl = s.sl := rfl
@[simp] theorem State.setIsrc_beo0 (s : State) (n : Nat) (x : Source) : (s.setIsrc n x).beo0 = s.beo0 := rfl
@[simp] theorem State.setIsrc_beo1 (s : State) (n : Nat) (x : Source) : (s.setIsrc n x).beo1 = s.beo1 := rfl
@[simp] theorem State.setIsrc_loop (s : State) (n : Nat) (x : Source) : (s.setIsrc n x).loop = s.loop := rfl
@[simp] theorem State.setIsrc_freeCtr (s : State) (n : Nat) (x : Source) : (s.setIsrc n x).freeCtr = s.freeCtr := rfl
@[simp] theorem State.setIsrc_reg (s : State) (n : Nat) (x : Source) (q : Reg) : (s.setIsrc n x).reg q = s.reg q := rfl
@[simp] theorem State.setIsrc_fld (s : State) (n : Nat) (x : Source) (q : Reg) (j k : Nat) : (s.setIsrc n x).fld q j k = s.fld q j k := rfl
@[simp] theorem State.setIsrc_bit (s : State) (n : Nat) (x : Source) (q : Reg) (j : Nat) : (s.setIsrc n x).bit q j = s.bit q j := rfl
@[simp] theorem State.setIsrc_ch_at (s : State) (n : Nat) (x : Source) (m : Nat) : (s.setIsrc n x).ch m = s.ch m := rfl
@[simp] theorem State.setIsrc_drv_at (s : State) (n : Nat) (x : Source) (m : Nat) : (s.setIsrc n x).drv m = s.drv m := rfl
@[simp] theorem State.setIsrc_dsr_at (s : State) (n : Nat) (x : Source) (m : Nat) : (s.setIsrc n x).dsr m = s.dsr m := rfl
@[simp] theorem State.setIsrc_det_at (s : State) (n : Nat) (x : Source) (m : Nat) : (s.setIsrc n x).det m = s.det m := rfl
@[simp] theorem State.setIsrc_stat_at (s : State) (n : Nat) (x : Source) (m : Nat) : (s.setIsrc n x).stat m = s.stat m := rfl
@[simp] theorem State.setIsrc_meld_at (s : State) (n : Nat) (x : Source) (m : Nat) : (s.setIsrc n x).meld m = s.meld m := rfl
@[simp] theorem State.setIsrc_queue_at (s : State) (n : Nat) (x : Source) (m : Nat) : (s.setIsrc n x).queue m = s.queue m := rfl
@[simp] theorem State.setIsrc_poll_at (s : State) (n : Nat) (x : Source) (m : Nat) : (s.setIsrc n x).poll m = s.poll m := rfl

/-! ### modIsrc -/

@[simp] theorem State.modIsrc_pending (s : State) (n : Nat) (g : Source → Source) : (s.modIsrc n g).pending = s.pending := rfl
@[simp] theorem State.modIsrc_regs (s : State) (n : Nat) (g : Source → Source) : (s.modIsrc n g).regs = s.regs := rfl
@[simp] theorem State.modIsrc_sram (s : State) (n : Nat) (g : Source → Source) : (s.modIsrc n g).sram = s.sram := rfl
@[simp] theorem State.modIsrc_otp (s : State) (n : Nat) (g : Source → Source) : (s.modIsrc n g).otp = s.otp := rfl
@[simp] theorem State.modIsrc_coef (s : State) (n : Nat) (g : Source → Source) : (s.modIsrc n g).coef = s.coef := rfl
@[simp] theorem State.modIsrc_proto (s : State) (n : Nat) (g : Source → Source) : (s.modIsrc n g).proto = s.proto := rfl
@[simp] theorem State.modIsrc_clk (s : State) (n : Nat) (g : Source → Source) : (s.modIsrc n g).clk = s.clk := rfl
@[simp] theorem State.modIsrc_eng (s : State) (n : Nat) (g : Source → Source) : (s.modIsrc n g).eng = s.eng := rfl
@[simp] theorem State.modIsrc_chains (s : State) (n : Nat) (g : Source → Source) : (s.modIsrc n g).chains = s.chains := rfl
@[simp] theorem State.modIsrc_past (s : State) (n : Nat) (g : Source → Source) : (s.modIsrc n g).past = s.past := rfl
@[simp] theorem State.modIsrc_drivers (s : State) (n : Nat) (g : Source → Source) : (s.modIsrc n g).drivers = s.drivers := rfl
@[simp] theorem State.modIsrc_mon (s : State) (n : Nat) (g : Source → Source) : (s.modIsrc n g).mon = s.mon := rfl
@[simp] theorem State.modIsrc_ds (s : State) (n : Nat) (g : Source → Source) : (s.modIsrc n g).ds = s.ds := rfl
@[simp] theorem State.modIsrc_dsStage (s : State) (n : Nat) (g : Source → Source) : (s.modIsrc n g).dsStage = s.dsStage := rfl
@[simp] theorem State.modIsrc_dets (s : State) (n : Nat) (g : Source → Source) : (s.modIsrc n g).dets = s.dets := rfl
@[simp] theorem State.modIsrc_stats (s : State) (n : Nat) (g : Source → Source) : (s.modIsrc n g).stats = s.stats := rfl
@[simp] theorem State.modIsrc_melds (s : State) (n : Nat) (g : Source → Source) : (s.modIsrc n g).melds = s.melds := rfl
@[simp] theorem State.modIsrc_route (s : State) (n : Nat) (g : Source → Source) : (s.modIsrc n g).route = s.route := rfl
@[simp] theorem State.modIsrc_irq (s : State) (n : Nat) (g : Source → Source) : (s.modIsrc n g).irq = s.irq := rfl
@[simp] theorem State.modIsrc_queues (s : State) (n : Nat) (g : Source → Source) : (s.modIsrc n g).queues = s.queues := rfl
@[simp] theorem State.modIsrc_weir (s : State) (n : Nat) (g : Source → Source) : (s.modIsrc n g).weir = s.weir := rfl
@[simp] theorem State.modIsrc_syncs (s : State) (n : Nat) (g : Source → Source) : (s.modIsrc n g).syncs = s.syncs := rfl
@[simp] theorem State.modIsrc_syncLast (s : State) (n : Nat) (g : Source → Source) : (s.modIsrc n g).syncLast = s.syncLast := rfl
@[simp] theorem State.modIsrc_syncPin (s : State) (n : Nat) (g : Source → Source) : (s.modIsrc n g).syncPin = s.syncPin := rfl
@[simp] theorem State.modIsrc_tim (s : State) (n : Nat) (g : Source → Source) : (s.modIsrc n g).tim = s.tim := rfl
@[simp] theorem State.modIsrc_caps (s : State) (n : Nat) (g : Source → Source) : (s.modIsrc n g).caps = s.caps := rfl
@[simp] theorem State.modIsrc_hostIf (s : State) (n : Nat) (g : Source → Source) : (s.modIsrc n g).hostIf = s.hostIf := rfl
@[simp] theorem State.modIsrc_polls (s : State) (n : Nat) (g : Source → Source) : (s.modIsrc n g).polls = s.polls := rfl
@[simp] theorem State.modIsrc_sbusTicks (s : State) (n : Nat) (g : Source → Source) : (s.modIsrc n g).sbusTicks = s.sbusTicks := rfl
@[simp] theorem State.modIsrc_link (s : State) (n : Nat) (g : Source → Source) : (s.modIsrc n g).link = s.link := rfl
@[simp] theorem State.modIsrc_servo (s : State) (n : Nat) (g : Source → Source) : (s.modIsrc n g).servo = s.servo := rfl
@[simp] theorem State.modIsrc_pwr (s : State) (n : Nat) (g : Source → Source) : (s.modIsrc n g).pwr = s.pwr := rfl
@[simp] theorem State.modIsrc_ebb (s : State) (n : Nat) (g : Source → Source) : (s.modIsrc n g).ebb = s.ebb := rfl
@[simp] theorem State.modIsrc_sl (s : State) (n : Nat) (g : Source → Source) : (s.modIsrc n g).sl = s.sl := rfl
@[simp] theorem State.modIsrc_beo0 (s : State) (n : Nat) (g : Source → Source) : (s.modIsrc n g).beo0 = s.beo0 := rfl
@[simp] theorem State.modIsrc_beo1 (s : State) (n : Nat) (g : Source → Source) : (s.modIsrc n g).beo1 = s.beo1 := rfl
@[simp] theorem State.modIsrc_loop (s : State) (n : Nat) (g : Source → Source) : (s.modIsrc n g).loop = s.loop := rfl
@[simp] theorem State.modIsrc_freeCtr (s : State) (n : Nat) (g : Source → Source) : (s.modIsrc n g).freeCtr = s.freeCtr := rfl
@[simp] theorem State.modIsrc_reg (s : State) (n : Nat) (g : Source → Source) (q : Reg) : (s.modIsrc n g).reg q = s.reg q := rfl
@[simp] theorem State.modIsrc_fld (s : State) (n : Nat) (g : Source → Source) (q : Reg) (j k : Nat) : (s.modIsrc n g).fld q j k = s.fld q j k := rfl
@[simp] theorem State.modIsrc_bit (s : State) (n : Nat) (g : Source → Source) (q : Reg) (j : Nat) : (s.modIsrc n g).bit q j = s.bit q j := rfl
@[simp] theorem State.modIsrc_ch_at (s : State) (n : Nat) (g : Source → Source) (m : Nat) : (s.modIsrc n g).ch m = s.ch m := rfl
@[simp] theorem State.modIsrc_drv_at (s : State) (n : Nat) (g : Source → Source) (m : Nat) : (s.modIsrc n g).drv m = s.drv m := rfl
@[simp] theorem State.modIsrc_dsr_at (s : State) (n : Nat) (g : Source → Source) (m : Nat) : (s.modIsrc n g).dsr m = s.dsr m := rfl
@[simp] theorem State.modIsrc_det_at (s : State) (n : Nat) (g : Source → Source) (m : Nat) : (s.modIsrc n g).det m = s.det m := rfl
@[simp] theorem State.modIsrc_stat_at (s : State) (n : Nat) (g : Source → Source) (m : Nat) : (s.modIsrc n g).stat m = s.stat m := rfl
@[simp] theorem State.modIsrc_meld_at (s : State) (n : Nat) (g : Source → Source) (m : Nat) : (s.modIsrc n g).meld m = s.meld m := rfl
@[simp] theorem State.modIsrc_queue_at (s : State) (n : Nat) (g : Source → Source) (m : Nat) : (s.modIsrc n g).queue m = s.queue m := rfl
@[simp] theorem State.modIsrc_poll_at (s : State) (n : Nat) (g : Source → Source) (m : Nat) : (s.modIsrc n g).poll m = s.poll m := rfl

/-! ### setDsr -/

@[simp] theorem State.setDsr_pending (s : State) (n : Nat) (x : Ds) : (s.setDsr n x).pending = s.pending := rfl
@[simp] theorem State.setDsr_regs (s : State) (n : Nat) (x : Ds) : (s.setDsr n x).regs = s.regs := rfl
@[simp] theorem State.setDsr_sram (s : State) (n : Nat) (x : Ds) : (s.setDsr n x).sram = s.sram := rfl
@[simp] theorem State.setDsr_otp (s : State) (n : Nat) (x : Ds) : (s.setDsr n x).otp = s.otp := rfl
@[simp] theorem State.setDsr_coef (s : State) (n : Nat) (x : Ds) : (s.setDsr n x).coef = s.coef := rfl
@[simp] theorem State.setDsr_proto (s : State) (n : Nat) (x : Ds) : (s.setDsr n x).proto = s.proto := rfl
@[simp] theorem State.setDsr_clk (s : State) (n : Nat) (x : Ds) : (s.setDsr n x).clk = s.clk := rfl
@[simp] theorem State.setDsr_eng (s : State) (n : Nat) (x : Ds) : (s.setDsr n x).eng = s.eng := rfl
@[simp] theorem State.setDsr_chains (s : State) (n : Nat) (x : Ds) : (s.setDsr n x).chains = s.chains := rfl
@[simp] theorem State.setDsr_past (s : State) (n : Nat) (x : Ds) : (s.setDsr n x).past = s.past := rfl
@[simp] theorem State.setDsr_drivers (s : State) (n : Nat) (x : Ds) : (s.setDsr n x).drivers = s.drivers := rfl
@[simp] theorem State.setDsr_sources (s : State) (n : Nat) (x : Ds) : (s.setDsr n x).sources = s.sources := rfl
@[simp] theorem State.setDsr_mon (s : State) (n : Nat) (x : Ds) : (s.setDsr n x).mon = s.mon := rfl
@[simp] theorem State.setDsr_dsStage (s : State) (n : Nat) (x : Ds) : (s.setDsr n x).dsStage = s.dsStage := rfl
@[simp] theorem State.setDsr_dets (s : State) (n : Nat) (x : Ds) : (s.setDsr n x).dets = s.dets := rfl
@[simp] theorem State.setDsr_stats (s : State) (n : Nat) (x : Ds) : (s.setDsr n x).stats = s.stats := rfl
@[simp] theorem State.setDsr_melds (s : State) (n : Nat) (x : Ds) : (s.setDsr n x).melds = s.melds := rfl
@[simp] theorem State.setDsr_route (s : State) (n : Nat) (x : Ds) : (s.setDsr n x).route = s.route := rfl
@[simp] theorem State.setDsr_irq (s : State) (n : Nat) (x : Ds) : (s.setDsr n x).irq = s.irq := rfl
@[simp] theorem State.setDsr_queues (s : State) (n : Nat) (x : Ds) : (s.setDsr n x).queues = s.queues := rfl
@[simp] theorem State.setDsr_weir (s : State) (n : Nat) (x : Ds) : (s.setDsr n x).weir = s.weir := rfl
@[simp] theorem State.setDsr_syncs (s : State) (n : Nat) (x : Ds) : (s.setDsr n x).syncs = s.syncs := rfl
@[simp] theorem State.setDsr_syncLast (s : State) (n : Nat) (x : Ds) : (s.setDsr n x).syncLast = s.syncLast := rfl
@[simp] theorem State.setDsr_syncPin (s : State) (n : Nat) (x : Ds) : (s.setDsr n x).syncPin = s.syncPin := rfl
@[simp] theorem State.setDsr_tim (s : State) (n : Nat) (x : Ds) : (s.setDsr n x).tim = s.tim := rfl
@[simp] theorem State.setDsr_caps (s : State) (n : Nat) (x : Ds) : (s.setDsr n x).caps = s.caps := rfl
@[simp] theorem State.setDsr_hostIf (s : State) (n : Nat) (x : Ds) : (s.setDsr n x).hostIf = s.hostIf := rfl
@[simp] theorem State.setDsr_polls (s : State) (n : Nat) (x : Ds) : (s.setDsr n x).polls = s.polls := rfl
@[simp] theorem State.setDsr_sbusTicks (s : State) (n : Nat) (x : Ds) : (s.setDsr n x).sbusTicks = s.sbusTicks := rfl
@[simp] theorem State.setDsr_link (s : State) (n : Nat) (x : Ds) : (s.setDsr n x).link = s.link := rfl
@[simp] theorem State.setDsr_servo (s : State) (n : Nat) (x : Ds) : (s.setDsr n x).servo = s.servo := rfl
@[simp] theorem State.setDsr_pwr (s : State) (n : Nat) (x : Ds) : (s.setDsr n x).pwr = s.pwr := rfl
@[simp] theorem State.setDsr_ebb (s : State) (n : Nat) (x : Ds) : (s.setDsr n x).ebb = s.ebb := rfl
@[simp] theorem State.setDsr_sl (s : State) (n : Nat) (x : Ds) : (s.setDsr n x).sl = s.sl := rfl
@[simp] theorem State.setDsr_beo0 (s : State) (n : Nat) (x : Ds) : (s.setDsr n x).beo0 = s.beo0 := rfl
@[simp] theorem State.setDsr_beo1 (s : State) (n : Nat) (x : Ds) : (s.setDsr n x).beo1 = s.beo1 := rfl
@[simp] theorem State.setDsr_loop (s : State) (n : Nat) (x : Ds) : (s.setDsr n x).loop = s.loop := rfl
@[simp] theorem State.setDsr_freeCtr (s : State) (n : Nat) (x : Ds) : (s.setDsr n x).freeCtr = s.freeCtr := rfl
@[simp] theorem State.setDsr_reg (s : State) (n : Nat) (x : Ds) (q : Reg) : (s.setDsr n x).reg q = s.reg q := rfl
@[simp] theorem State.setDsr_fld (s : State) (n : Nat) (x : Ds) (q : Reg) (j k : Nat) : (s.setDsr n x).fld q j k = s.fld q j k := rfl
@[simp] theorem State.setDsr_bit (s : State) (n : Nat) (x : Ds) (q : Reg) (j : Nat) : (s.setDsr n x).bit q j = s.bit q j := rfl
@[simp] theorem State.setDsr_ch_at (s : State) (n : Nat) (x : Ds) (m : Nat) : (s.setDsr n x).ch m = s.ch m := rfl
@[simp] theorem State.setDsr_drv_at (s : State) (n : Nat) (x : Ds) (m : Nat) : (s.setDsr n x).drv m = s.drv m := rfl
@[simp] theorem State.setDsr_isrc_at (s : State) (n : Nat) (x : Ds) (m : Nat) : (s.setDsr n x).isrc m = s.isrc m := rfl
@[simp] theorem State.setDsr_det_at (s : State) (n : Nat) (x : Ds) (m : Nat) : (s.setDsr n x).det m = s.det m := rfl
@[simp] theorem State.setDsr_stat_at (s : State) (n : Nat) (x : Ds) (m : Nat) : (s.setDsr n x).stat m = s.stat m := rfl
@[simp] theorem State.setDsr_meld_at (s : State) (n : Nat) (x : Ds) (m : Nat) : (s.setDsr n x).meld m = s.meld m := rfl
@[simp] theorem State.setDsr_queue_at (s : State) (n : Nat) (x : Ds) (m : Nat) : (s.setDsr n x).queue m = s.queue m := rfl
@[simp] theorem State.setDsr_poll_at (s : State) (n : Nat) (x : Ds) (m : Nat) : (s.setDsr n x).poll m = s.poll m := rfl

/-! ### modDsr -/

@[simp] theorem State.modDsr_pending (s : State) (n : Nat) (g : Ds → Ds) : (s.modDsr n g).pending = s.pending := rfl
@[simp] theorem State.modDsr_regs (s : State) (n : Nat) (g : Ds → Ds) : (s.modDsr n g).regs = s.regs := rfl
@[simp] theorem State.modDsr_sram (s : State) (n : Nat) (g : Ds → Ds) : (s.modDsr n g).sram = s.sram := rfl
@[simp] theorem State.modDsr_otp (s : State) (n : Nat) (g : Ds → Ds) : (s.modDsr n g).otp = s.otp := rfl
@[simp] theorem State.modDsr_coef (s : State) (n : Nat) (g : Ds → Ds) : (s.modDsr n g).coef = s.coef := rfl
@[simp] theorem State.modDsr_proto (s : State) (n : Nat) (g : Ds → Ds) : (s.modDsr n g).proto = s.proto := rfl
@[simp] theorem State.modDsr_clk (s : State) (n : Nat) (g : Ds → Ds) : (s.modDsr n g).clk = s.clk := rfl
@[simp] theorem State.modDsr_eng (s : State) (n : Nat) (g : Ds → Ds) : (s.modDsr n g).eng = s.eng := rfl
@[simp] theorem State.modDsr_chains (s : State) (n : Nat) (g : Ds → Ds) : (s.modDsr n g).chains = s.chains := rfl
@[simp] theorem State.modDsr_past (s : State) (n : Nat) (g : Ds → Ds) : (s.modDsr n g).past = s.past := rfl
@[simp] theorem State.modDsr_drivers (s : State) (n : Nat) (g : Ds → Ds) : (s.modDsr n g).drivers = s.drivers := rfl
@[simp] theorem State.modDsr_sources (s : State) (n : Nat) (g : Ds → Ds) : (s.modDsr n g).sources = s.sources := rfl
@[simp] theorem State.modDsr_mon (s : State) (n : Nat) (g : Ds → Ds) : (s.modDsr n g).mon = s.mon := rfl
@[simp] theorem State.modDsr_dsStage (s : State) (n : Nat) (g : Ds → Ds) : (s.modDsr n g).dsStage = s.dsStage := rfl
@[simp] theorem State.modDsr_dets (s : State) (n : Nat) (g : Ds → Ds) : (s.modDsr n g).dets = s.dets := rfl
@[simp] theorem State.modDsr_stats (s : State) (n : Nat) (g : Ds → Ds) : (s.modDsr n g).stats = s.stats := rfl
@[simp] theorem State.modDsr_melds (s : State) (n : Nat) (g : Ds → Ds) : (s.modDsr n g).melds = s.melds := rfl
@[simp] theorem State.modDsr_route (s : State) (n : Nat) (g : Ds → Ds) : (s.modDsr n g).route = s.route := rfl
@[simp] theorem State.modDsr_irq (s : State) (n : Nat) (g : Ds → Ds) : (s.modDsr n g).irq = s.irq := rfl
@[simp] theorem State.modDsr_queues (s : State) (n : Nat) (g : Ds → Ds) : (s.modDsr n g).queues = s.queues := rfl
@[simp] theorem State.modDsr_weir (s : State) (n : Nat) (g : Ds → Ds) : (s.modDsr n g).weir = s.weir := rfl
@[simp] theorem State.modDsr_syncs (s : State) (n : Nat) (g : Ds → Ds) : (s.modDsr n g).syncs = s.syncs := rfl
@[simp] theorem State.modDsr_syncLast (s : State) (n : Nat) (g : Ds → Ds) : (s.modDsr n g).syncLast = s.syncLast := rfl
@[simp] theorem State.modDsr_syncPin (s : State) (n : Nat) (g : Ds → Ds) : (s.modDsr n g).syncPin = s.syncPin := rfl
@[simp] theorem State.modDsr_tim (s : State) (n : Nat) (g : Ds → Ds) : (s.modDsr n g).tim = s.tim := rfl
@[simp] theorem State.modDsr_caps (s : State) (n : Nat) (g : Ds → Ds) : (s.modDsr n g).caps = s.caps := rfl
@[simp] theorem State.modDsr_hostIf (s : State) (n : Nat) (g : Ds → Ds) : (s.modDsr n g).hostIf = s.hostIf := rfl
@[simp] theorem State.modDsr_polls (s : State) (n : Nat) (g : Ds → Ds) : (s.modDsr n g).polls = s.polls := rfl
@[simp] theorem State.modDsr_sbusTicks (s : State) (n : Nat) (g : Ds → Ds) : (s.modDsr n g).sbusTicks = s.sbusTicks := rfl
@[simp] theorem State.modDsr_link (s : State) (n : Nat) (g : Ds → Ds) : (s.modDsr n g).link = s.link := rfl
@[simp] theorem State.modDsr_servo (s : State) (n : Nat) (g : Ds → Ds) : (s.modDsr n g).servo = s.servo := rfl
@[simp] theorem State.modDsr_pwr (s : State) (n : Nat) (g : Ds → Ds) : (s.modDsr n g).pwr = s.pwr := rfl
@[simp] theorem State.modDsr_ebb (s : State) (n : Nat) (g : Ds → Ds) : (s.modDsr n g).ebb = s.ebb := rfl
@[simp] theorem State.modDsr_sl (s : State) (n : Nat) (g : Ds → Ds) : (s.modDsr n g).sl = s.sl := rfl
@[simp] theorem State.modDsr_beo0 (s : State) (n : Nat) (g : Ds → Ds) : (s.modDsr n g).beo0 = s.beo0 := rfl
@[simp] theorem State.modDsr_beo1 (s : State) (n : Nat) (g : Ds → Ds) : (s.modDsr n g).beo1 = s.beo1 := rfl
@[simp] theorem State.modDsr_loop (s : State) (n : Nat) (g : Ds → Ds) : (s.modDsr n g).loop = s.loop := rfl
@[simp] theorem State.modDsr_freeCtr (s : State) (n : Nat) (g : Ds → Ds) : (s.modDsr n g).freeCtr = s.freeCtr := rfl
@[simp] theorem State.modDsr_reg (s : State) (n : Nat) (g : Ds → Ds) (q : Reg) : (s.modDsr n g).reg q = s.reg q := rfl
@[simp] theorem State.modDsr_fld (s : State) (n : Nat) (g : Ds → Ds) (q : Reg) (j k : Nat) : (s.modDsr n g).fld q j k = s.fld q j k := rfl
@[simp] theorem State.modDsr_bit (s : State) (n : Nat) (g : Ds → Ds) (q : Reg) (j : Nat) : (s.modDsr n g).bit q j = s.bit q j := rfl
@[simp] theorem State.modDsr_ch_at (s : State) (n : Nat) (g : Ds → Ds) (m : Nat) : (s.modDsr n g).ch m = s.ch m := rfl
@[simp] theorem State.modDsr_drv_at (s : State) (n : Nat) (g : Ds → Ds) (m : Nat) : (s.modDsr n g).drv m = s.drv m := rfl
@[simp] theorem State.modDsr_isrc_at (s : State) (n : Nat) (g : Ds → Ds) (m : Nat) : (s.modDsr n g).isrc m = s.isrc m := rfl
@[simp] theorem State.modDsr_det_at (s : State) (n : Nat) (g : Ds → Ds) (m : Nat) : (s.modDsr n g).det m = s.det m := rfl
@[simp] theorem State.modDsr_stat_at (s : State) (n : Nat) (g : Ds → Ds) (m : Nat) : (s.modDsr n g).stat m = s.stat m := rfl
@[simp] theorem State.modDsr_meld_at (s : State) (n : Nat) (g : Ds → Ds) (m : Nat) : (s.modDsr n g).meld m = s.meld m := rfl
@[simp] theorem State.modDsr_queue_at (s : State) (n : Nat) (g : Ds → Ds) (m : Nat) : (s.modDsr n g).queue m = s.queue m := rfl
@[simp] theorem State.modDsr_poll_at (s : State) (n : Nat) (g : Ds → Ds) (m : Nat) : (s.modDsr n g).poll m = s.poll m := rfl

/-! ### setDet -/

@[simp] theorem State.setDet_pending (s : State) (n : Nat) (x : Det) : (s.setDet n x).pending = s.pending := rfl
@[simp] theorem State.setDet_regs (s : State) (n : Nat) (x : Det) : (s.setDet n x).regs = s.regs := rfl
@[simp] theorem State.setDet_sram (s : State) (n : Nat) (x : Det) : (s.setDet n x).sram = s.sram := rfl
@[simp] theorem State.setDet_otp (s : State) (n : Nat) (x : Det) : (s.setDet n x).otp = s.otp := rfl
@[simp] theorem State.setDet_coef (s : State) (n : Nat) (x : Det) : (s.setDet n x).coef = s.coef := rfl
@[simp] theorem State.setDet_proto (s : State) (n : Nat) (x : Det) : (s.setDet n x).proto = s.proto := rfl
@[simp] theorem State.setDet_clk (s : State) (n : Nat) (x : Det) : (s.setDet n x).clk = s.clk := rfl
@[simp] theorem State.setDet_eng (s : State) (n : Nat) (x : Det) : (s.setDet n x).eng = s.eng := rfl
@[simp] theorem State.setDet_chains (s : State) (n : Nat) (x : Det) : (s.setDet n x).chains = s.chains := rfl
@[simp] theorem State.setDet_past (s : State) (n : Nat) (x : Det) : (s.setDet n x).past = s.past := rfl
@[simp] theorem State.setDet_drivers (s : State) (n : Nat) (x : Det) : (s.setDet n x).drivers = s.drivers := rfl
@[simp] theorem State.setDet_sources (s : State) (n : Nat) (x : Det) : (s.setDet n x).sources = s.sources := rfl
@[simp] theorem State.setDet_mon (s : State) (n : Nat) (x : Det) : (s.setDet n x).mon = s.mon := rfl
@[simp] theorem State.setDet_ds (s : State) (n : Nat) (x : Det) : (s.setDet n x).ds = s.ds := rfl
@[simp] theorem State.setDet_dsStage (s : State) (n : Nat) (x : Det) : (s.setDet n x).dsStage = s.dsStage := rfl
@[simp] theorem State.setDet_stats (s : State) (n : Nat) (x : Det) : (s.setDet n x).stats = s.stats := rfl
@[simp] theorem State.setDet_melds (s : State) (n : Nat) (x : Det) : (s.setDet n x).melds = s.melds := rfl
@[simp] theorem State.setDet_route (s : State) (n : Nat) (x : Det) : (s.setDet n x).route = s.route := rfl
@[simp] theorem State.setDet_irq (s : State) (n : Nat) (x : Det) : (s.setDet n x).irq = s.irq := rfl
@[simp] theorem State.setDet_queues (s : State) (n : Nat) (x : Det) : (s.setDet n x).queues = s.queues := rfl
@[simp] theorem State.setDet_weir (s : State) (n : Nat) (x : Det) : (s.setDet n x).weir = s.weir := rfl
@[simp] theorem State.setDet_syncs (s : State) (n : Nat) (x : Det) : (s.setDet n x).syncs = s.syncs := rfl
@[simp] theorem State.setDet_syncLast (s : State) (n : Nat) (x : Det) : (s.setDet n x).syncLast = s.syncLast := rfl
@[simp] theorem State.setDet_syncPin (s : State) (n : Nat) (x : Det) : (s.setDet n x).syncPin = s.syncPin := rfl
@[simp] theorem State.setDet_tim (s : State) (n : Nat) (x : Det) : (s.setDet n x).tim = s.tim := rfl
@[simp] theorem State.setDet_caps (s : State) (n : Nat) (x : Det) : (s.setDet n x).caps = s.caps := rfl
@[simp] theorem State.setDet_hostIf (s : State) (n : Nat) (x : Det) : (s.setDet n x).hostIf = s.hostIf := rfl
@[simp] theorem State.setDet_polls (s : State) (n : Nat) (x : Det) : (s.setDet n x).polls = s.polls := rfl
@[simp] theorem State.setDet_sbusTicks (s : State) (n : Nat) (x : Det) : (s.setDet n x).sbusTicks = s.sbusTicks := rfl
@[simp] theorem State.setDet_link (s : State) (n : Nat) (x : Det) : (s.setDet n x).link = s.link := rfl
@[simp] theorem State.setDet_servo (s : State) (n : Nat) (x : Det) : (s.setDet n x).servo = s.servo := rfl
@[simp] theorem State.setDet_pwr (s : State) (n : Nat) (x : Det) : (s.setDet n x).pwr = s.pwr := rfl
@[simp] theorem State.setDet_ebb (s : State) (n : Nat) (x : Det) : (s.setDet n x).ebb = s.ebb := rfl
@[simp] theorem State.setDet_sl (s : State) (n : Nat) (x : Det) : (s.setDet n x).sl = s.sl := rfl
@[simp] theorem State.setDet_beo0 (s : State) (n : Nat) (x : Det) : (s.setDet n x).beo0 = s.beo0 := rfl
@[simp] theorem State.setDet_beo1 (s : State) (n : Nat) (x : Det) : (s.setDet n x).beo1 = s.beo1 := rfl
@[simp] theorem State.setDet_loop (s : State) (n : Nat) (x : Det) : (s.setDet n x).loop = s.loop := rfl
@[simp] theorem State.setDet_freeCtr (s : State) (n : Nat) (x : Det) : (s.setDet n x).freeCtr = s.freeCtr := rfl
@[simp] theorem State.setDet_reg (s : State) (n : Nat) (x : Det) (q : Reg) : (s.setDet n x).reg q = s.reg q := rfl
@[simp] theorem State.setDet_fld (s : State) (n : Nat) (x : Det) (q : Reg) (j k : Nat) : (s.setDet n x).fld q j k = s.fld q j k := rfl
@[simp] theorem State.setDet_bit (s : State) (n : Nat) (x : Det) (q : Reg) (j : Nat) : (s.setDet n x).bit q j = s.bit q j := rfl
@[simp] theorem State.setDet_ch_at (s : State) (n : Nat) (x : Det) (m : Nat) : (s.setDet n x).ch m = s.ch m := rfl
@[simp] theorem State.setDet_drv_at (s : State) (n : Nat) (x : Det) (m : Nat) : (s.setDet n x).drv m = s.drv m := rfl
@[simp] theorem State.setDet_isrc_at (s : State) (n : Nat) (x : Det) (m : Nat) : (s.setDet n x).isrc m = s.isrc m := rfl
@[simp] theorem State.setDet_dsr_at (s : State) (n : Nat) (x : Det) (m : Nat) : (s.setDet n x).dsr m = s.dsr m := rfl
@[simp] theorem State.setDet_stat_at (s : State) (n : Nat) (x : Det) (m : Nat) : (s.setDet n x).stat m = s.stat m := rfl
@[simp] theorem State.setDet_meld_at (s : State) (n : Nat) (x : Det) (m : Nat) : (s.setDet n x).meld m = s.meld m := rfl
@[simp] theorem State.setDet_queue_at (s : State) (n : Nat) (x : Det) (m : Nat) : (s.setDet n x).queue m = s.queue m := rfl
@[simp] theorem State.setDet_poll_at (s : State) (n : Nat) (x : Det) (m : Nat) : (s.setDet n x).poll m = s.poll m := rfl

/-! ### modDet -/

@[simp] theorem State.modDet_pending (s : State) (n : Nat) (g : Det → Det) : (s.modDet n g).pending = s.pending := rfl
@[simp] theorem State.modDet_regs (s : State) (n : Nat) (g : Det → Det) : (s.modDet n g).regs = s.regs := rfl
@[simp] theorem State.modDet_sram (s : State) (n : Nat) (g : Det → Det) : (s.modDet n g).sram = s.sram := rfl
@[simp] theorem State.modDet_otp (s : State) (n : Nat) (g : Det → Det) : (s.modDet n g).otp = s.otp := rfl
@[simp] theorem State.modDet_coef (s : State) (n : Nat) (g : Det → Det) : (s.modDet n g).coef = s.coef := rfl
@[simp] theorem State.modDet_proto (s : State) (n : Nat) (g : Det → Det) : (s.modDet n g).proto = s.proto := rfl
@[simp] theorem State.modDet_clk (s : State) (n : Nat) (g : Det → Det) : (s.modDet n g).clk = s.clk := rfl
@[simp] theorem State.modDet_eng (s : State) (n : Nat) (g : Det → Det) : (s.modDet n g).eng = s.eng := rfl
@[simp] theorem State.modDet_chains (s : State) (n : Nat) (g : Det → Det) : (s.modDet n g).chains = s.chains := rfl
@[simp] theorem State.modDet_past (s : State) (n : Nat) (g : Det → Det) : (s.modDet n g).past = s.past := rfl
@[simp] theorem State.modDet_drivers (s : State) (n : Nat) (g : Det → Det) : (s.modDet n g).drivers = s.drivers := rfl
@[simp] theorem State.modDet_sources (s : State) (n : Nat) (g : Det → Det) : (s.modDet n g).sources = s.sources := rfl
@[simp] theorem State.modDet_mon (s : State) (n : Nat) (g : Det → Det) : (s.modDet n g).mon = s.mon := rfl
@[simp] theorem State.modDet_ds (s : State) (n : Nat) (g : Det → Det) : (s.modDet n g).ds = s.ds := rfl
@[simp] theorem State.modDet_dsStage (s : State) (n : Nat) (g : Det → Det) : (s.modDet n g).dsStage = s.dsStage := rfl
@[simp] theorem State.modDet_stats (s : State) (n : Nat) (g : Det → Det) : (s.modDet n g).stats = s.stats := rfl
@[simp] theorem State.modDet_melds (s : State) (n : Nat) (g : Det → Det) : (s.modDet n g).melds = s.melds := rfl
@[simp] theorem State.modDet_route (s : State) (n : Nat) (g : Det → Det) : (s.modDet n g).route = s.route := rfl
@[simp] theorem State.modDet_irq (s : State) (n : Nat) (g : Det → Det) : (s.modDet n g).irq = s.irq := rfl
@[simp] theorem State.modDet_queues (s : State) (n : Nat) (g : Det → Det) : (s.modDet n g).queues = s.queues := rfl
@[simp] theorem State.modDet_weir (s : State) (n : Nat) (g : Det → Det) : (s.modDet n g).weir = s.weir := rfl
@[simp] theorem State.modDet_syncs (s : State) (n : Nat) (g : Det → Det) : (s.modDet n g).syncs = s.syncs := rfl
@[simp] theorem State.modDet_syncLast (s : State) (n : Nat) (g : Det → Det) : (s.modDet n g).syncLast = s.syncLast := rfl
@[simp] theorem State.modDet_syncPin (s : State) (n : Nat) (g : Det → Det) : (s.modDet n g).syncPin = s.syncPin := rfl
@[simp] theorem State.modDet_tim (s : State) (n : Nat) (g : Det → Det) : (s.modDet n g).tim = s.tim := rfl
@[simp] theorem State.modDet_caps (s : State) (n : Nat) (g : Det → Det) : (s.modDet n g).caps = s.caps := rfl
@[simp] theorem State.modDet_hostIf (s : State) (n : Nat) (g : Det → Det) : (s.modDet n g).hostIf = s.hostIf := rfl
@[simp] theorem State.modDet_polls (s : State) (n : Nat) (g : Det → Det) : (s.modDet n g).polls = s.polls := rfl
@[simp] theorem State.modDet_sbusTicks (s : State) (n : Nat) (g : Det → Det) : (s.modDet n g).sbusTicks = s.sbusTicks := rfl
@[simp] theorem State.modDet_link (s : State) (n : Nat) (g : Det → Det) : (s.modDet n g).link = s.link := rfl
@[simp] theorem State.modDet_servo (s : State) (n : Nat) (g : Det → Det) : (s.modDet n g).servo = s.servo := rfl
@[simp] theorem State.modDet_pwr (s : State) (n : Nat) (g : Det → Det) : (s.modDet n g).pwr = s.pwr := rfl
@[simp] theorem State.modDet_ebb (s : State) (n : Nat) (g : Det → Det) : (s.modDet n g).ebb = s.ebb := rfl
@[simp] theorem State.modDet_sl (s : State) (n : Nat) (g : Det → Det) : (s.modDet n g).sl = s.sl := rfl
@[simp] theorem State.modDet_beo0 (s : State) (n : Nat) (g : Det → Det) : (s.modDet n g).beo0 = s.beo0 := rfl
@[simp] theorem State.modDet_beo1 (s : State) (n : Nat) (g : Det → Det) : (s.modDet n g).beo1 = s.beo1 := rfl
@[simp] theorem State.modDet_loop (s : State) (n : Nat) (g : Det → Det) : (s.modDet n g).loop = s.loop := rfl
@[simp] theorem State.modDet_freeCtr (s : State) (n : Nat) (g : Det → Det) : (s.modDet n g).freeCtr = s.freeCtr := rfl
@[simp] theorem State.modDet_reg (s : State) (n : Nat) (g : Det → Det) (q : Reg) : (s.modDet n g).reg q = s.reg q := rfl
@[simp] theorem State.modDet_fld (s : State) (n : Nat) (g : Det → Det) (q : Reg) (j k : Nat) : (s.modDet n g).fld q j k = s.fld q j k := rfl
@[simp] theorem State.modDet_bit (s : State) (n : Nat) (g : Det → Det) (q : Reg) (j : Nat) : (s.modDet n g).bit q j = s.bit q j := rfl
@[simp] theorem State.modDet_ch_at (s : State) (n : Nat) (g : Det → Det) (m : Nat) : (s.modDet n g).ch m = s.ch m := rfl
@[simp] theorem State.modDet_drv_at (s : State) (n : Nat) (g : Det → Det) (m : Nat) : (s.modDet n g).drv m = s.drv m := rfl
@[simp] theorem State.modDet_isrc_at (s : State) (n : Nat) (g : Det → Det) (m : Nat) : (s.modDet n g).isrc m = s.isrc m := rfl
@[simp] theorem State.modDet_dsr_at (s : State) (n : Nat) (g : Det → Det) (m : Nat) : (s.modDet n g).dsr m = s.dsr m := rfl
@[simp] theorem State.modDet_stat_at (s : State) (n : Nat) (g : Det → Det) (m : Nat) : (s.modDet n g).stat m = s.stat m := rfl
@[simp] theorem State.modDet_meld_at (s : State) (n : Nat) (g : Det → Det) (m : Nat) : (s.modDet n g).meld m = s.meld m := rfl
@[simp] theorem State.modDet_queue_at (s : State) (n : Nat) (g : Det → Det) (m : Nat) : (s.modDet n g).queue m = s.queue m := rfl
@[simp] theorem State.modDet_poll_at (s : State) (n : Nat) (g : Det → Det) (m : Nat) : (s.modDet n g).poll m = s.poll m := rfl

/-! ### setStat -/

@[simp] theorem State.setStat_pending (s : State) (n : Nat) (x : Stat) : (s.setStat n x).pending = s.pending := rfl
@[simp] theorem State.setStat_regs (s : State) (n : Nat) (x : Stat) : (s.setStat n x).regs = s.regs := rfl
@[simp] theorem State.setStat_sram (s : State) (n : Nat) (x : Stat) : (s.setStat n x).sram = s.sram := rfl
@[simp] theorem State.setStat_otp (s : State) (n : Nat) (x : Stat) : (s.setStat n x).otp = s.otp := rfl
@[simp] theorem State.setStat_coef (s : State) (n : Nat) (x : Stat) : (s.setStat n x).coef = s.coef := rfl
@[simp] theorem State.setStat_proto (s : State) (n : Nat) (x : Stat) : (s.setStat n x).proto = s.proto := rfl
@[simp] theorem State.setStat_clk (s : State) (n : Nat) (x : Stat) : (s.setStat n x).clk = s.clk := rfl
@[simp] theorem State.setStat_eng (s : State) (n : Nat) (x : Stat) : (s.setStat n x).eng = s.eng := rfl
@[simp] theorem State.setStat_chains (s : State) (n : Nat) (x : Stat) : (s.setStat n x).chains = s.chains := rfl
@[simp] theorem State.setStat_past (s : State) (n : Nat) (x : Stat) : (s.setStat n x).past = s.past := rfl
@[simp] theorem State.setStat_drivers (s : State) (n : Nat) (x : Stat) : (s.setStat n x).drivers = s.drivers := rfl
@[simp] theorem State.setStat_sources (s : State) (n : Nat) (x : Stat) : (s.setStat n x).sources = s.sources := rfl
@[simp] theorem State.setStat_mon (s : State) (n : Nat) (x : Stat) : (s.setStat n x).mon = s.mon := rfl
@[simp] theorem State.setStat_ds (s : State) (n : Nat) (x : Stat) : (s.setStat n x).ds = s.ds := rfl
@[simp] theorem State.setStat_dsStage (s : State) (n : Nat) (x : Stat) : (s.setStat n x).dsStage = s.dsStage := rfl
@[simp] theorem State.setStat_dets (s : State) (n : Nat) (x : Stat) : (s.setStat n x).dets = s.dets := rfl
@[simp] theorem State.setStat_melds (s : State) (n : Nat) (x : Stat) : (s.setStat n x).melds = s.melds := rfl
@[simp] theorem State.setStat_route (s : State) (n : Nat) (x : Stat) : (s.setStat n x).route = s.route := rfl
@[simp] theorem State.setStat_irq (s : State) (n : Nat) (x : Stat) : (s.setStat n x).irq = s.irq := rfl
@[simp] theorem State.setStat_queues (s : State) (n : Nat) (x : Stat) : (s.setStat n x).queues = s.queues := rfl
@[simp] theorem State.setStat_weir (s : State) (n : Nat) (x : Stat) : (s.setStat n x).weir = s.weir := rfl
@[simp] theorem State.setStat_syncs (s : State) (n : Nat) (x : Stat) : (s.setStat n x).syncs = s.syncs := rfl
@[simp] theorem State.setStat_syncLast (s : State) (n : Nat) (x : Stat) : (s.setStat n x).syncLast = s.syncLast := rfl
@[simp] theorem State.setStat_syncPin (s : State) (n : Nat) (x : Stat) : (s.setStat n x).syncPin = s.syncPin := rfl
@[simp] theorem State.setStat_tim (s : State) (n : Nat) (x : Stat) : (s.setStat n x).tim = s.tim := rfl
@[simp] theorem State.setStat_caps (s : State) (n : Nat) (x : Stat) : (s.setStat n x).caps = s.caps := rfl
@[simp] theorem State.setStat_hostIf (s : State) (n : Nat) (x : Stat) : (s.setStat n x).hostIf = s.hostIf := rfl
@[simp] theorem State.setStat_polls (s : State) (n : Nat) (x : Stat) : (s.setStat n x).polls = s.polls := rfl
@[simp] theorem State.setStat_sbusTicks (s : State) (n : Nat) (x : Stat) : (s.setStat n x).sbusTicks = s.sbusTicks := rfl
@[simp] theorem State.setStat_link (s : State) (n : Nat) (x : Stat) : (s.setStat n x).link = s.link := rfl
@[simp] theorem State.setStat_servo (s : State) (n : Nat) (x : Stat) : (s.setStat n x).servo = s.servo := rfl
@[simp] theorem State.setStat_pwr (s : State) (n : Nat) (x : Stat) : (s.setStat n x).pwr = s.pwr := rfl
@[simp] theorem State.setStat_ebb (s : State) (n : Nat) (x : Stat) : (s.setStat n x).ebb = s.ebb := rfl
@[simp] theorem State.setStat_sl (s : State) (n : Nat) (x : Stat) : (s.setStat n x).sl = s.sl := rfl
@[simp] theorem State.setStat_beo0 (s : State) (n : Nat) (x : Stat) : (s.setStat n x).beo0 = s.beo0 := rfl
@[simp] theorem State.setStat_beo1 (s : State) (n : Nat) (x : Stat) : (s.setStat n x).beo1 = s.beo1 := rfl
@[simp] theorem State.setStat_loop (s : State) (n : Nat) (x : Stat) : (s.setStat n x).loop = s.loop := rfl
@[simp] theorem State.setStat_freeCtr (s : State) (n : Nat) (x : Stat) : (s.setStat n x).freeCtr = s.freeCtr := rfl
@[simp] theorem State.setStat_reg (s : State) (n : Nat) (x : Stat) (q : Reg) : (s.setStat n x).reg q = s.reg q := rfl
@[simp] theorem State.setStat_fld (s : State) (n : Nat) (x : Stat) (q : Reg) (j k : Nat) : (s.setStat n x).fld q j k = s.fld q j k := rfl
@[simp] theorem State.setStat_bit (s : State) (n : Nat) (x : Stat) (q : Reg) (j : Nat) : (s.setStat n x).bit q j = s.bit q j := rfl
@[simp] theorem State.setStat_ch_at (s : State) (n : Nat) (x : Stat) (m : Nat) : (s.setStat n x).ch m = s.ch m := rfl
@[simp] theorem State.setStat_drv_at (s : State) (n : Nat) (x : Stat) (m : Nat) : (s.setStat n x).drv m = s.drv m := rfl
@[simp] theorem State.setStat_isrc_at (s : State) (n : Nat) (x : Stat) (m : Nat) : (s.setStat n x).isrc m = s.isrc m := rfl
@[simp] theorem State.setStat_dsr_at (s : State) (n : Nat) (x : Stat) (m : Nat) : (s.setStat n x).dsr m = s.dsr m := rfl
@[simp] theorem State.setStat_det_at (s : State) (n : Nat) (x : Stat) (m : Nat) : (s.setStat n x).det m = s.det m := rfl
@[simp] theorem State.setStat_meld_at (s : State) (n : Nat) (x : Stat) (m : Nat) : (s.setStat n x).meld m = s.meld m := rfl
@[simp] theorem State.setStat_queue_at (s : State) (n : Nat) (x : Stat) (m : Nat) : (s.setStat n x).queue m = s.queue m := rfl
@[simp] theorem State.setStat_poll_at (s : State) (n : Nat) (x : Stat) (m : Nat) : (s.setStat n x).poll m = s.poll m := rfl

/-! ### modStat -/

@[simp] theorem State.modStat_pending (s : State) (n : Nat) (g : Stat → Stat) : (s.modStat n g).pending = s.pending := rfl
@[simp] theorem State.modStat_regs (s : State) (n : Nat) (g : Stat → Stat) : (s.modStat n g).regs = s.regs := rfl
@[simp] theorem State.modStat_sram (s : State) (n : Nat) (g : Stat → Stat) : (s.modStat n g).sram = s.sram := rfl
@[simp] theorem State.modStat_otp (s : State) (n : Nat) (g : Stat → Stat) : (s.modStat n g).otp = s.otp := rfl
@[simp] theorem State.modStat_coef (s : State) (n : Nat) (g : Stat → Stat) : (s.modStat n g).coef = s.coef := rfl
@[simp] theorem State.modStat_proto (s : State) (n : Nat) (g : Stat → Stat) : (s.modStat n g).proto = s.proto := rfl
@[simp] theorem State.modStat_clk (s : State) (n : Nat) (g : Stat → Stat) : (s.modStat n g).clk = s.clk := rfl
@[simp] theorem State.modStat_eng (s : State) (n : Nat) (g : Stat → Stat) : (s.modStat n g).eng = s.eng := rfl
@[simp] theorem State.modStat_chains (s : State) (n : Nat) (g : Stat → Stat) : (s.modStat n g).chains = s.chains := rfl
@[simp] theorem State.modStat_past (s : State) (n : Nat) (g : Stat → Stat) : (s.modStat n g).past = s.past := rfl
@[simp] theorem State.modStat_drivers (s : State) (n : Nat) (g : Stat → Stat) : (s.modStat n g).drivers = s.drivers := rfl
@[simp] theorem State.modStat_sources (s : State) (n : Nat) (g : Stat → Stat) : (s.modStat n g).sources = s.sources := rfl
@[simp] theorem State.modStat_mon (s : State) (n : Nat) (g : Stat → Stat) : (s.modStat n g).mon = s.mon := rfl
@[simp] theorem State.modStat_ds (s : State) (n : Nat) (g : Stat → Stat) : (s.modStat n g).ds = s.ds := rfl
@[simp] theorem State.modStat_dsStage (s : State) (n : Nat) (g : Stat → Stat) : (s.modStat n g).dsStage = s.dsStage := rfl
@[simp] theorem State.modStat_dets (s : State) (n : Nat) (g : Stat → Stat) : (s.modStat n g).dets = s.dets := rfl
@[simp] theorem State.modStat_melds (s : State) (n : Nat) (g : Stat → Stat) : (s.modStat n g).melds = s.melds := rfl
@[simp] theorem State.modStat_route (s : State) (n : Nat) (g : Stat → Stat) : (s.modStat n g).route = s.route := rfl
@[simp] theorem State.modStat_irq (s : State) (n : Nat) (g : Stat → Stat) : (s.modStat n g).irq = s.irq := rfl
@[simp] theorem State.modStat_queues (s : State) (n : Nat) (g : Stat → Stat) : (s.modStat n g).queues = s.queues := rfl
@[simp] theorem State.modStat_weir (s : State) (n : Nat) (g : Stat → Stat) : (s.modStat n g).weir = s.weir := rfl
@[simp] theorem State.modStat_syncs (s : State) (n : Nat) (g : Stat → Stat) : (s.modStat n g).syncs = s.syncs := rfl
@[simp] theorem State.modStat_syncLast (s : State) (n : Nat) (g : Stat → Stat) : (s.modStat n g).syncLast = s.syncLast := rfl
@[simp] theorem State.modStat_syncPin (s : State) (n : Nat) (g : Stat → Stat) : (s.modStat n g).syncPin = s.syncPin := rfl
@[simp] theorem State.modStat_tim (s : State) (n : Nat) (g : Stat → Stat) : (s.modStat n g).tim = s.tim := rfl
@[simp] theorem State.modStat_caps (s : State) (n : Nat) (g : Stat → Stat) : (s.modStat n g).caps = s.caps := rfl
@[simp] theorem State.modStat_hostIf (s : State) (n : Nat) (g : Stat → Stat) : (s.modStat n g).hostIf = s.hostIf := rfl
@[simp] theorem State.modStat_polls (s : State) (n : Nat) (g : Stat → Stat) : (s.modStat n g).polls = s.polls := rfl
@[simp] theorem State.modStat_sbusTicks (s : State) (n : Nat) (g : Stat → Stat) : (s.modStat n g).sbusTicks = s.sbusTicks := rfl
@[simp] theorem State.modStat_link (s : State) (n : Nat) (g : Stat → Stat) : (s.modStat n g).link = s.link := rfl
@[simp] theorem State.modStat_servo (s : State) (n : Nat) (g : Stat → Stat) : (s.modStat n g).servo = s.servo := rfl
@[simp] theorem State.modStat_pwr (s : State) (n : Nat) (g : Stat → Stat) : (s.modStat n g).pwr = s.pwr := rfl
@[simp] theorem State.modStat_ebb (s : State) (n : Nat) (g : Stat → Stat) : (s.modStat n g).ebb = s.ebb := rfl
@[simp] theorem State.modStat_sl (s : State) (n : Nat) (g : Stat → Stat) : (s.modStat n g).sl = s.sl := rfl
@[simp] theorem State.modStat_beo0 (s : State) (n : Nat) (g : Stat → Stat) : (s.modStat n g).beo0 = s.beo0 := rfl
@[simp] theorem State.modStat_beo1 (s : State) (n : Nat) (g : Stat → Stat) : (s.modStat n g).beo1 = s.beo1 := rfl
@[simp] theorem State.modStat_loop (s : State) (n : Nat) (g : Stat → Stat) : (s.modStat n g).loop = s.loop := rfl
@[simp] theorem State.modStat_freeCtr (s : State) (n : Nat) (g : Stat → Stat) : (s.modStat n g).freeCtr = s.freeCtr := rfl
@[simp] theorem State.modStat_reg (s : State) (n : Nat) (g : Stat → Stat) (q : Reg) : (s.modStat n g).reg q = s.reg q := rfl
@[simp] theorem State.modStat_fld (s : State) (n : Nat) (g : Stat → Stat) (q : Reg) (j k : Nat) : (s.modStat n g).fld q j k = s.fld q j k := rfl
@[simp] theorem State.modStat_bit (s : State) (n : Nat) (g : Stat → Stat) (q : Reg) (j : Nat) : (s.modStat n g).bit q j = s.bit q j := rfl
@[simp] theorem State.modStat_ch_at (s : State) (n : Nat) (g : Stat → Stat) (m : Nat) : (s.modStat n g).ch m = s.ch m := rfl
@[simp] theorem State.modStat_drv_at (s : State) (n : Nat) (g : Stat → Stat) (m : Nat) : (s.modStat n g).drv m = s.drv m := rfl
@[simp] theorem State.modStat_isrc_at (s : State) (n : Nat) (g : Stat → Stat) (m : Nat) : (s.modStat n g).isrc m = s.isrc m := rfl
@[simp] theorem State.modStat_dsr_at (s : State) (n : Nat) (g : Stat → Stat) (m : Nat) : (s.modStat n g).dsr m = s.dsr m := rfl
@[simp] theorem State.modStat_det_at (s : State) (n : Nat) (g : Stat → Stat) (m : Nat) : (s.modStat n g).det m = s.det m := rfl
@[simp] theorem State.modStat_meld_at (s : State) (n : Nat) (g : Stat → Stat) (m : Nat) : (s.modStat n g).meld m = s.meld m := rfl
@[simp] theorem State.modStat_queue_at (s : State) (n : Nat) (g : Stat → Stat) (m : Nat) : (s.modStat n g).queue m = s.queue m := rfl
@[simp] theorem State.modStat_poll_at (s : State) (n : Nat) (g : Stat → Stat) (m : Nat) : (s.modStat n g).poll m = s.poll m := rfl

/-! ### setMeld -/

@[simp] theorem State.setMeld_pending (s : State) (n : Nat) (x : Meld) : (s.setMeld n x).pending = s.pending := rfl
@[simp] theorem State.setMeld_regs (s : State) (n : Nat) (x : Meld) : (s.setMeld n x).regs = s.regs := rfl
@[simp] theorem State.setMeld_sram (s : State) (n : Nat) (x : Meld) : (s.setMeld n x).sram = s.sram := rfl
@[simp] theorem State.setMeld_otp (s : State) (n : Nat) (x : Meld) : (s.setMeld n x).otp = s.otp := rfl
@[simp] theorem State.setMeld_coef (s : State) (n : Nat) (x : Meld) : (s.setMeld n x).coef = s.coef := rfl
@[simp] theorem State.setMeld_proto (s : State) (n : Nat) (x : Meld) : (s.setMeld n x).proto = s.proto := rfl
@[simp] theorem State.setMeld_clk (s : State) (n : Nat) (x : Meld) : (s.setMeld n x).clk = s.clk := rfl
@[simp] theorem State.setMeld_eng (s : State) (n : Nat) (x : Meld) : (s.setMeld n x).eng = s.eng := rfl
@[simp] theorem State.setMeld_chains (s : State) (n : Nat) (x : Meld) : (s.setMeld n x).chains = s.chains := rfl
@[simp] theorem State.setMeld_past (s : State) (n : Nat) (x : Meld) : (s.setMeld n x).past = s.past := rfl
@[simp] theorem State.setMeld_drivers (s : State) (n : Nat) (x : Meld) : (s.setMeld n x).drivers = s.drivers := rfl
@[simp] theorem State.setMeld_sources (s : State) (n : Nat) (x : Meld) : (s.setMeld n x).sources = s.sources := rfl
@[simp] theorem State.setMeld_mon (s : State) (n : Nat) (x : Meld) : (s.setMeld n x).mon = s.mon := rfl
@[simp] theorem State.setMeld_ds (s : State) (n : Nat) (x : Meld) : (s.setMeld n x).ds = s.ds := rfl
@[simp] theorem State.setMeld_dsStage (s : State) (n : Nat) (x : Meld) : (s.setMeld n x).dsStage = s.dsStage := rfl
@[simp] theorem State.setMeld_dets (s : State) (n : Nat) (x : Meld) : (s.setMeld n x).dets = s.dets := rfl
@[simp] theorem State.setMeld_stats (s : State) (n : Nat) (x : Meld) : (s.setMeld n x).stats = s.stats := rfl
@[simp] theorem State.setMeld_route (s : State) (n : Nat) (x : Meld) : (s.setMeld n x).route = s.route := rfl
@[simp] theorem State.setMeld_irq (s : State) (n : Nat) (x : Meld) : (s.setMeld n x).irq = s.irq := rfl
@[simp] theorem State.setMeld_queues (s : State) (n : Nat) (x : Meld) : (s.setMeld n x).queues = s.queues := rfl
@[simp] theorem State.setMeld_weir (s : State) (n : Nat) (x : Meld) : (s.setMeld n x).weir = s.weir := rfl
@[simp] theorem State.setMeld_syncs (s : State) (n : Nat) (x : Meld) : (s.setMeld n x).syncs = s.syncs := rfl
@[simp] theorem State.setMeld_syncLast (s : State) (n : Nat) (x : Meld) : (s.setMeld n x).syncLast = s.syncLast := rfl
@[simp] theorem State.setMeld_syncPin (s : State) (n : Nat) (x : Meld) : (s.setMeld n x).syncPin = s.syncPin := rfl
@[simp] theorem State.setMeld_tim (s : State) (n : Nat) (x : Meld) : (s.setMeld n x).tim = s.tim := rfl
@[simp] theorem State.setMeld_caps (s : State) (n : Nat) (x : Meld) : (s.setMeld n x).caps = s.caps := rfl
@[simp] theorem State.setMeld_hostIf (s : State) (n : Nat) (x : Meld) : (s.setMeld n x).hostIf = s.hostIf := rfl
@[simp] theorem State.setMeld_polls (s : State) (n : Nat) (x : Meld) : (s.setMeld n x).polls = s.polls := rfl
@[simp] theorem State.setMeld_sbusTicks (s : State) (n : Nat) (x : Meld) : (s.setMeld n x).sbusTicks = s.sbusTicks := rfl
@[simp] theorem State.setMeld_link (s : State) (n : Nat) (x : Meld) : (s.setMeld n x).link = s.link := rfl
@[simp] theorem State.setMeld_servo (s : State) (n : Nat) (x : Meld) : (s.setMeld n x).servo = s.servo := rfl
@[simp] theorem State.setMeld_pwr (s : State) (n : Nat) (x : Meld) : (s.setMeld n x).pwr = s.pwr := rfl
@[simp] theorem State.setMeld_ebb (s : State) (n : Nat) (x : Meld) : (s.setMeld n x).ebb = s.ebb := rfl
@[simp] theorem State.setMeld_sl (s : State) (n : Nat) (x : Meld) : (s.setMeld n x).sl = s.sl := rfl
@[simp] theorem State.setMeld_beo0 (s : State) (n : Nat) (x : Meld) : (s.setMeld n x).beo0 = s.beo0 := rfl
@[simp] theorem State.setMeld_beo1 (s : State) (n : Nat) (x : Meld) : (s.setMeld n x).beo1 = s.beo1 := rfl
@[simp] theorem State.setMeld_loop (s : State) (n : Nat) (x : Meld) : (s.setMeld n x).loop = s.loop := rfl
@[simp] theorem State.setMeld_freeCtr (s : State) (n : Nat) (x : Meld) : (s.setMeld n x).freeCtr = s.freeCtr := rfl
@[simp] theorem State.setMeld_reg (s : State) (n : Nat) (x : Meld) (q : Reg) : (s.setMeld n x).reg q = s.reg q := rfl
@[simp] theorem State.setMeld_fld (s : State) (n : Nat) (x : Meld) (q : Reg) (j k : Nat) : (s.setMeld n x).fld q j k = s.fld q j k := rfl
@[simp] theorem State.setMeld_bit (s : State) (n : Nat) (x : Meld) (q : Reg) (j : Nat) : (s.setMeld n x).bit q j = s.bit q j := rfl
@[simp] theorem State.setMeld_ch_at (s : State) (n : Nat) (x : Meld) (m : Nat) : (s.setMeld n x).ch m = s.ch m := rfl
@[simp] theorem State.setMeld_drv_at (s : State) (n : Nat) (x : Meld) (m : Nat) : (s.setMeld n x).drv m = s.drv m := rfl
@[simp] theorem State.setMeld_isrc_at (s : State) (n : Nat) (x : Meld) (m : Nat) : (s.setMeld n x).isrc m = s.isrc m := rfl
@[simp] theorem State.setMeld_dsr_at (s : State) (n : Nat) (x : Meld) (m : Nat) : (s.setMeld n x).dsr m = s.dsr m := rfl
@[simp] theorem State.setMeld_det_at (s : State) (n : Nat) (x : Meld) (m : Nat) : (s.setMeld n x).det m = s.det m := rfl
@[simp] theorem State.setMeld_stat_at (s : State) (n : Nat) (x : Meld) (m : Nat) : (s.setMeld n x).stat m = s.stat m := rfl
@[simp] theorem State.setMeld_queue_at (s : State) (n : Nat) (x : Meld) (m : Nat) : (s.setMeld n x).queue m = s.queue m := rfl
@[simp] theorem State.setMeld_poll_at (s : State) (n : Nat) (x : Meld) (m : Nat) : (s.setMeld n x).poll m = s.poll m := rfl

/-! ### modMeld -/

@[simp] theorem State.modMeld_pending (s : State) (n : Nat) (g : Meld → Meld) : (s.modMeld n g).pending = s.pending := rfl
@[simp] theorem State.modMeld_regs (s : State) (n : Nat) (g : Meld → Meld) : (s.modMeld n g).regs = s.regs := rfl
@[simp] theorem State.modMeld_sram (s : State) (n : Nat) (g : Meld → Meld) : (s.modMeld n g).sram = s.sram := rfl
@[simp] theorem State.modMeld_otp (s : State) (n : Nat) (g : Meld → Meld) : (s.modMeld n g).otp = s.otp := rfl
@[simp] theorem State.modMeld_coef (s : State) (n : Nat) (g : Meld → Meld) : (s.modMeld n g).coef = s.coef := rfl
@[simp] theorem State.modMeld_proto (s : State) (n : Nat) (g : Meld → Meld) : (s.modMeld n g).proto = s.proto := rfl
@[simp] theorem State.modMeld_clk (s : State) (n : Nat) (g : Meld → Meld) : (s.modMeld n g).clk = s.clk := rfl
@[simp] theorem State.modMeld_eng (s : State) (n : Nat) (g : Meld → Meld) : (s.modMeld n g).eng = s.eng := rfl
@[simp] theorem State.modMeld_chains (s : State) (n : Nat) (g : Meld → Meld) : (s.modMeld n g).chains = s.chains := rfl
@[simp] theorem State.modMeld_past (s : State) (n : Nat) (g : Meld → Meld) : (s.modMeld n g).past = s.past := rfl
@[simp] theorem State.modMeld_drivers (s : State) (n : Nat) (g : Meld → Meld) : (s.modMeld n g).drivers = s.drivers := rfl
@[simp] theorem State.modMeld_sources (s : State) (n : Nat) (g : Meld → Meld) : (s.modMeld n g).sources = s.sources := rfl
@[simp] theorem State.modMeld_mon (s : State) (n : Nat) (g : Meld → Meld) : (s.modMeld n g).mon = s.mon := rfl
@[simp] theorem State.modMeld_ds (s : State) (n : Nat) (g : Meld → Meld) : (s.modMeld n g).ds = s.ds := rfl
@[simp] theorem State.modMeld_dsStage (s : State) (n : Nat) (g : Meld → Meld) : (s.modMeld n g).dsStage = s.dsStage := rfl
@[simp] theorem State.modMeld_dets (s : State) (n : Nat) (g : Meld → Meld) : (s.modMeld n g).dets = s.dets := rfl
@[simp] theorem State.modMeld_stats (s : State) (n : Nat) (g : Meld → Meld) : (s.modMeld n g).stats = s.stats := rfl
@[simp] theorem State.modMeld_route (s : State) (n : Nat) (g : Meld → Meld) : (s.modMeld n g).route = s.route := rfl
@[simp] theorem State.modMeld_irq (s : State) (n : Nat) (g : Meld → Meld) : (s.modMeld n g).irq = s.irq := rfl
@[simp] theorem State.modMeld_queues (s : State) (n : Nat) (g : Meld → Meld) : (s.modMeld n g).queues = s.queues := rfl
@[simp] theorem State.modMeld_weir (s : State) (n : Nat) (g : Meld → Meld) : (s.modMeld n g).weir = s.weir := rfl
@[simp] theorem State.modMeld_syncs (s : State) (n : Nat) (g : Meld → Meld) : (s.modMeld n g).syncs = s.syncs := rfl
@[simp] theorem State.modMeld_syncLast (s : State) (n : Nat) (g : Meld → Meld) : (s.modMeld n g).syncLast = s.syncLast := rfl
@[simp] theorem State.modMeld_syncPin (s : State) (n : Nat) (g : Meld → Meld) : (s.modMeld n g).syncPin = s.syncPin := rfl
@[simp] theorem State.modMeld_tim (s : State) (n : Nat) (g : Meld → Meld) : (s.modMeld n g).tim = s.tim := rfl
@[simp] theorem State.modMeld_caps (s : State) (n : Nat) (g : Meld → Meld) : (s.modMeld n g).caps = s.caps := rfl
@[simp] theorem State.modMeld_hostIf (s : State) (n : Nat) (g : Meld → Meld) : (s.modMeld n g).hostIf = s.hostIf := rfl
@[simp] theorem State.modMeld_polls (s : State) (n : Nat) (g : Meld → Meld) : (s.modMeld n g).polls = s.polls := rfl
@[simp] theorem State.modMeld_sbusTicks (s : State) (n : Nat) (g : Meld → Meld) : (s.modMeld n g).sbusTicks = s.sbusTicks := rfl
@[simp] theorem State.modMeld_link (s : State) (n : Nat) (g : Meld → Meld) : (s.modMeld n g).link = s.link := rfl
@[simp] theorem State.modMeld_servo (s : State) (n : Nat) (g : Meld → Meld) : (s.modMeld n g).servo = s.servo := rfl
@[simp] theorem State.modMeld_pwr (s : State) (n : Nat) (g : Meld → Meld) : (s.modMeld n g).pwr = s.pwr := rfl
@[simp] theorem State.modMeld_ebb (s : State) (n : Nat) (g : Meld → Meld) : (s.modMeld n g).ebb = s.ebb := rfl
@[simp] theorem State.modMeld_sl (s : State) (n : Nat) (g : Meld → Meld) : (s.modMeld n g).sl = s.sl := rfl
@[simp] theorem State.modMeld_beo0 (s : State) (n : Nat) (g : Meld → Meld) : (s.modMeld n g).beo0 = s.beo0 := rfl
@[simp] theorem State.modMeld_beo1 (s : State) (n : Nat) (g : Meld → Meld) : (s.modMeld n g).beo1 = s.beo1 := rfl
@[simp] theorem State.modMeld_loop (s : State) (n : Nat) (g : Meld → Meld) : (s.modMeld n g).loop = s.loop := rfl
@[simp] theorem State.modMeld_freeCtr (s : State) (n : Nat) (g : Meld → Meld) : (s.modMeld n g).freeCtr = s.freeCtr := rfl
@[simp] theorem State.modMeld_reg (s : State) (n : Nat) (g : Meld → Meld) (q : Reg) : (s.modMeld n g).reg q = s.reg q := rfl
@[simp] theorem State.modMeld_fld (s : State) (n : Nat) (g : Meld → Meld) (q : Reg) (j k : Nat) : (s.modMeld n g).fld q j k = s.fld q j k := rfl
@[simp] theorem State.modMeld_bit (s : State) (n : Nat) (g : Meld → Meld) (q : Reg) (j : Nat) : (s.modMeld n g).bit q j = s.bit q j := rfl
@[simp] theorem State.modMeld_ch_at (s : State) (n : Nat) (g : Meld → Meld) (m : Nat) : (s.modMeld n g).ch m = s.ch m := rfl
@[simp] theorem State.modMeld_drv_at (s : State) (n : Nat) (g : Meld → Meld) (m : Nat) : (s.modMeld n g).drv m = s.drv m := rfl
@[simp] theorem State.modMeld_isrc_at (s : State) (n : Nat) (g : Meld → Meld) (m : Nat) : (s.modMeld n g).isrc m = s.isrc m := rfl
@[simp] theorem State.modMeld_dsr_at (s : State) (n : Nat) (g : Meld → Meld) (m : Nat) : (s.modMeld n g).dsr m = s.dsr m := rfl
@[simp] theorem State.modMeld_det_at (s : State) (n : Nat) (g : Meld → Meld) (m : Nat) : (s.modMeld n g).det m = s.det m := rfl
@[simp] theorem State.modMeld_stat_at (s : State) (n : Nat) (g : Meld → Meld) (m : Nat) : (s.modMeld n g).stat m = s.stat m := rfl
@[simp] theorem State.modMeld_queue_at (s : State) (n : Nat) (g : Meld → Meld) (m : Nat) : (s.modMeld n g).queue m = s.queue m := rfl
@[simp] theorem State.modMeld_poll_at (s : State) (n : Nat) (g : Meld → Meld) (m : Nat) : (s.modMeld n g).poll m = s.poll m := rfl

/-! ### setQueue -/

@[simp] theorem State.setQueue_pending (s : State) (n : Nat) (x : Queue) : (s.setQueue n x).pending = s.pending := rfl
@[simp] theorem State.setQueue_regs (s : State) (n : Nat) (x : Queue) : (s.setQueue n x).regs = s.regs := rfl
@[simp] theorem State.setQueue_sram (s : State) (n : Nat) (x : Queue) : (s.setQueue n x).sram = s.sram := rfl
@[simp] theorem State.setQueue_otp (s : State) (n : Nat) (x : Queue) : (s.setQueue n x).otp = s.otp := rfl
@[simp] theorem State.setQueue_coef (s : State) (n : Nat) (x : Queue) : (s.setQueue n x).coef = s.coef := rfl
@[simp] theorem State.setQueue_proto (s : State) (n : Nat) (x : Queue) : (s.setQueue n x).proto = s.proto := rfl
@[simp] theorem State.setQueue_clk (s : State) (n : Nat) (x : Queue) : (s.setQueue n x).clk = s.clk := rfl
@[simp] theorem State.setQueue_eng (s : State) (n : Nat) (x : Queue) : (s.setQueue n x).eng = s.eng := rfl
@[simp] theorem State.setQueue_chains (s : State) (n : Nat) (x : Queue) : (s.setQueue n x).chains = s.chains := rfl
@[simp] theorem State.setQueue_past (s : State) (n : Nat) (x : Queue) : (s.setQueue n x).past = s.past := rfl
@[simp] theorem State.setQueue_drivers (s : State) (n : Nat) (x : Queue) : (s.setQueue n x).drivers = s.drivers := rfl
@[simp] theorem State.setQueue_sources (s : State) (n : Nat) (x : Queue) : (s.setQueue n x).sources = s.sources := rfl
@[simp] theorem State.setQueue_mon (s : State) (n : Nat) (x : Queue) : (s.setQueue n x).mon = s.mon := rfl
@[simp] theorem State.setQueue_ds (s : State) (n : Nat) (x : Queue) : (s.setQueue n x).ds = s.ds := rfl
@[simp] theorem State.setQueue_dsStage (s : State) (n : Nat) (x : Queue) : (s.setQueue n x).dsStage = s.dsStage := rfl
@[simp] theorem State.setQueue_dets (s : State) (n : Nat) (x : Queue) : (s.setQueue n x).dets = s.dets := rfl
@[simp] theorem State.setQueue_stats (s : State) (n : Nat) (x : Queue) : (s.setQueue n x).stats = s.stats := rfl
@[simp] theorem State.setQueue_melds (s : State) (n : Nat) (x : Queue) : (s.setQueue n x).melds = s.melds := rfl
@[simp] theorem State.setQueue_route (s : State) (n : Nat) (x : Queue) : (s.setQueue n x).route = s.route := rfl
@[simp] theorem State.setQueue_irq (s : State) (n : Nat) (x : Queue) : (s.setQueue n x).irq = s.irq := rfl
@[simp] theorem State.setQueue_weir (s : State) (n : Nat) (x : Queue) : (s.setQueue n x).weir = s.weir := rfl
@[simp] theorem State.setQueue_syncs (s : State) (n : Nat) (x : Queue) : (s.setQueue n x).syncs = s.syncs := rfl
@[simp] theorem State.setQueue_syncLast (s : State) (n : Nat) (x : Queue) : (s.setQueue n x).syncLast = s.syncLast := rfl
@[simp] theorem State.setQueue_syncPin (s : State) (n : Nat) (x : Queue) : (s.setQueue n x).syncPin = s.syncPin := rfl
@[simp] theorem State.setQueue_tim (s : State) (n : Nat) (x : Queue) : (s.setQueue n x).tim = s.tim := rfl
@[simp] theorem State.setQueue_caps (s : State) (n : Nat) (x : Queue) : (s.setQueue n x).caps = s.caps := rfl
@[simp] theorem State.setQueue_hostIf (s : State) (n : Nat) (x : Queue) : (s.setQueue n x).hostIf = s.hostIf := rfl
@[simp] theorem State.setQueue_polls (s : State) (n : Nat) (x : Queue) : (s.setQueue n x).polls = s.polls := rfl
@[simp] theorem State.setQueue_sbusTicks (s : State) (n : Nat) (x : Queue) : (s.setQueue n x).sbusTicks = s.sbusTicks := rfl
@[simp] theorem State.setQueue_link (s : State) (n : Nat) (x : Queue) : (s.setQueue n x).link = s.link := rfl
@[simp] theorem State.setQueue_servo (s : State) (n : Nat) (x : Queue) : (s.setQueue n x).servo = s.servo := rfl
@[simp] theorem State.setQueue_pwr (s : State) (n : Nat) (x : Queue) : (s.setQueue n x).pwr = s.pwr := rfl
@[simp] theorem State.setQueue_ebb (s : State) (n : Nat) (x : Queue) : (s.setQueue n x).ebb = s.ebb := rfl
@[simp] theorem State.setQueue_sl (s : State) (n : Nat) (x : Queue) : (s.setQueue n x).sl = s.sl := rfl
@[simp] theorem State.setQueue_beo0 (s : State) (n : Nat) (x : Queue) : (s.setQueue n x).beo0 = s.beo0 := rfl
@[simp] theorem State.setQueue_beo1 (s : State) (n : Nat) (x : Queue) : (s.setQueue n x).beo1 = s.beo1 := rfl
@[simp] theorem State.setQueue_loop (s : State) (n : Nat) (x : Queue) : (s.setQueue n x).loop = s.loop := rfl
@[simp] theorem State.setQueue_freeCtr (s : State) (n : Nat) (x : Queue) : (s.setQueue n x).freeCtr = s.freeCtr := rfl
@[simp] theorem State.setQueue_reg (s : State) (n : Nat) (x : Queue) (q : Reg) : (s.setQueue n x).reg q = s.reg q := rfl
@[simp] theorem State.setQueue_fld (s : State) (n : Nat) (x : Queue) (q : Reg) (j k : Nat) : (s.setQueue n x).fld q j k = s.fld q j k := rfl
@[simp] theorem State.setQueue_bit (s : State) (n : Nat) (x : Queue) (q : Reg) (j : Nat) : (s.setQueue n x).bit q j = s.bit q j := rfl
@[simp] theorem State.setQueue_ch_at (s : State) (n : Nat) (x : Queue) (m : Nat) : (s.setQueue n x).ch m = s.ch m := rfl
@[simp] theorem State.setQueue_drv_at (s : State) (n : Nat) (x : Queue) (m : Nat) : (s.setQueue n x).drv m = s.drv m := rfl
@[simp] theorem State.setQueue_isrc_at (s : State) (n : Nat) (x : Queue) (m : Nat) : (s.setQueue n x).isrc m = s.isrc m := rfl
@[simp] theorem State.setQueue_dsr_at (s : State) (n : Nat) (x : Queue) (m : Nat) : (s.setQueue n x).dsr m = s.dsr m := rfl
@[simp] theorem State.setQueue_det_at (s : State) (n : Nat) (x : Queue) (m : Nat) : (s.setQueue n x).det m = s.det m := rfl
@[simp] theorem State.setQueue_stat_at (s : State) (n : Nat) (x : Queue) (m : Nat) : (s.setQueue n x).stat m = s.stat m := rfl
@[simp] theorem State.setQueue_meld_at (s : State) (n : Nat) (x : Queue) (m : Nat) : (s.setQueue n x).meld m = s.meld m := rfl
@[simp] theorem State.setQueue_poll_at (s : State) (n : Nat) (x : Queue) (m : Nat) : (s.setQueue n x).poll m = s.poll m := rfl

/-! ### modQueue -/

@[simp] theorem State.modQueue_pending (s : State) (n : Nat) (g : Queue → Queue) : (s.modQueue n g).pending = s.pending := rfl
@[simp] theorem State.modQueue_regs (s : State) (n : Nat) (g : Queue → Queue) : (s.modQueue n g).regs = s.regs := rfl
@[simp] theorem State.modQueue_sram (s : State) (n : Nat) (g : Queue → Queue) : (s.modQueue n g).sram = s.sram := rfl
@[simp] theorem State.modQueue_otp (s : State) (n : Nat) (g : Queue → Queue) : (s.modQueue n g).otp = s.otp := rfl
@[simp] theorem State.modQueue_coef (s : State) (n : Nat) (g : Queue → Queue) : (s.modQueue n g).coef = s.coef := rfl
@[simp] theorem State.modQueue_proto (s : State) (n : Nat) (g : Queue → Queue) : (s.modQueue n g).proto = s.proto := rfl
@[simp] theorem State.modQueue_clk (s : State) (n : Nat) (g : Queue → Queue) : (s.modQueue n g).clk = s.clk := rfl
@[simp] theorem State.modQueue_eng (s : State) (n : Nat) (g : Queue → Queue) : (s.modQueue n g).eng = s.eng := rfl
@[simp] theorem State.modQueue_chains (s : State) (n : Nat) (g : Queue → Queue) : (s.modQueue n g).chains = s.chains := rfl
@[simp] theorem State.modQueue_past (s : State) (n : Nat) (g : Queue → Queue) : (s.modQueue n g).past = s.past := rfl
@[simp] theorem State.modQueue_drivers (s : State) (n : Nat) (g : Queue → Queue) : (s.modQueue n g).drivers = s.drivers := rfl
@[simp] theorem State.modQueue_sources (s : State) (n : Nat) (g : Queue → Queue) : (s.modQueue n g).sources = s.sources := rfl
@[simp] theorem State.modQueue_mon (s : State) (n : Nat) (g : Queue → Queue) : (s.modQueue n g).mon = s.mon := rfl
@[simp] theorem State.modQueue_ds (s : State) (n : Nat) (g : Queue → Queue) : (s.modQueue n g).ds = s.ds := rfl
@[simp] theorem State.modQueue_dsStage (s : State) (n : Nat) (g : Queue → Queue) : (s.modQueue n g).dsStage = s.dsStage := rfl
@[simp] theorem State.modQueue_dets (s : State) (n : Nat) (g : Queue → Queue) : (s.modQueue n g).dets = s.dets := rfl
@[simp] theorem State.modQueue_stats (s : State) (n : Nat) (g : Queue → Queue) : (s.modQueue n g).stats = s.stats := rfl
@[simp] theorem State.modQueue_melds (s : State) (n : Nat) (g : Queue → Queue) : (s.modQueue n g).melds = s.melds := rfl
@[simp] theorem State.modQueue_route (s : State) (n : Nat) (g : Queue → Queue) : (s.modQueue n g).route = s.route := rfl
@[simp] theorem State.modQueue_irq (s : State) (n : Nat) (g : Queue → Queue) : (s.modQueue n g).irq = s.irq := rfl
@[simp] theorem State.modQueue_weir (s : State) (n : Nat) (g : Queue → Queue) : (s.modQueue n g).weir = s.weir := rfl
@[simp] theorem State.modQueue_syncs (s : State) (n : Nat) (g : Queue → Queue) : (s.modQueue n g).syncs = s.syncs := rfl
@[simp] theorem State.modQueue_syncLast (s : State) (n : Nat) (g : Queue → Queue) : (s.modQueue n g).syncLast = s.syncLast := rfl
@[simp] theorem State.modQueue_syncPin (s : State) (n : Nat) (g : Queue → Queue) : (s.modQueue n g).syncPin = s.syncPin := rfl
@[simp] theorem State.modQueue_tim (s : State) (n : Nat) (g : Queue → Queue) : (s.modQueue n g).tim = s.tim := rfl
@[simp] theorem State.modQueue_caps (s : State) (n : Nat) (g : Queue → Queue) : (s.modQueue n g).caps = s.caps := rfl
@[simp] theorem State.modQueue_hostIf (s : State) (n : Nat) (g : Queue → Queue) : (s.modQueue n g).hostIf = s.hostIf := rfl
@[simp] theorem State.modQueue_polls (s : State) (n : Nat) (g : Queue → Queue) : (s.modQueue n g).polls = s.polls := rfl
@[simp] theorem State.modQueue_sbusTicks (s : State) (n : Nat) (g : Queue → Queue) : (s.modQueue n g).sbusTicks = s.sbusTicks := rfl
@[simp] theorem State.modQueue_link (s : State) (n : Nat) (g : Queue → Queue) : (s.modQueue n g).link = s.link := rfl
@[simp] theorem State.modQueue_servo (s : State) (n : Nat) (g : Queue → Queue) : (s.modQueue n g).servo = s.servo := rfl
@[simp] theorem State.modQueue_pwr (s : State) (n : Nat) (g : Queue → Queue) : (s.modQueue n g).pwr = s.pwr := rfl
@[simp] theorem State.modQueue_ebb (s : State) (n : Nat) (g : Queue → Queue) : (s.modQueue n g).ebb = s.ebb := rfl
@[simp] theorem State.modQueue_sl (s : State) (n : Nat) (g : Queue → Queue) : (s.modQueue n g).sl = s.sl := rfl
@[simp] theorem State.modQueue_beo0 (s : State) (n : Nat) (g : Queue → Queue) : (s.modQueue n g).beo0 = s.beo0 := rfl
@[simp] theorem State.modQueue_beo1 (s : State) (n : Nat) (g : Queue → Queue) : (s.modQueue n g).beo1 = s.beo1 := rfl
@[simp] theorem State.modQueue_loop (s : State) (n : Nat) (g : Queue → Queue) : (s.modQueue n g).loop = s.loop := rfl
@[simp] theorem State.modQueue_freeCtr (s : State) (n : Nat) (g : Queue → Queue) : (s.modQueue n g).freeCtr = s.freeCtr := rfl
@[simp] theorem State.modQueue_reg (s : State) (n : Nat) (g : Queue → Queue) (q : Reg) : (s.modQueue n g).reg q = s.reg q := rfl
@[simp] theorem State.modQueue_fld (s : State) (n : Nat) (g : Queue → Queue) (q : Reg) (j k : Nat) : (s.modQueue n g).fld q j k = s.fld q j k := rfl
@[simp] theorem State.modQueue_bit (s : State) (n : Nat) (g : Queue → Queue) (q : Reg) (j : Nat) : (s.modQueue n g).bit q j = s.bit q j := rfl
@[simp] theorem State.modQueue_ch_at (s : State) (n : Nat) (g : Queue → Queue) (m : Nat) : (s.modQueue n g).ch m = s.ch m := rfl
@[simp] theorem State.modQueue_drv_at (s : State) (n : Nat) (g : Queue → Queue) (m : Nat) : (s.modQueue n g).drv m = s.drv m := rfl
@[simp] theorem State.modQueue_isrc_at (s : State) (n : Nat) (g : Queue → Queue) (m : Nat) : (s.modQueue n g).isrc m = s.isrc m := rfl
@[simp] theorem State.modQueue_dsr_at (s : State) (n : Nat) (g : Queue → Queue) (m : Nat) : (s.modQueue n g).dsr m = s.dsr m := rfl
@[simp] theorem State.modQueue_det_at (s : State) (n : Nat) (g : Queue → Queue) (m : Nat) : (s.modQueue n g).det m = s.det m := rfl
@[simp] theorem State.modQueue_stat_at (s : State) (n : Nat) (g : Queue → Queue) (m : Nat) : (s.modQueue n g).stat m = s.stat m := rfl
@[simp] theorem State.modQueue_meld_at (s : State) (n : Nat) (g : Queue → Queue) (m : Nat) : (s.modQueue n g).meld m = s.meld m := rfl
@[simp] theorem State.modQueue_poll_at (s : State) (n : Nat) (g : Queue → Queue) (m : Nat) : (s.modQueue n g).poll m = s.poll m := rfl

/-! ### setPoll -/

@[simp] theorem State.setPoll_pending (s : State) (n : Nat) (x : Poll) : (s.setPoll n x).pending = s.pending := rfl
@[simp] theorem State.setPoll_regs (s : State) (n : Nat) (x : Poll) : (s.setPoll n x).regs = s.regs := rfl
@[simp] theorem State.setPoll_sram (s : State) (n : Nat) (x : Poll) : (s.setPoll n x).sram = s.sram := rfl
@[simp] theorem State.setPoll_otp (s : State) (n : Nat) (x : Poll) : (s.setPoll n x).otp = s.otp := rfl
@[simp] theorem State.setPoll_coef (s : State) (n : Nat) (x : Poll) : (s.setPoll n x).coef = s.coef := rfl
@[simp] theorem State.setPoll_proto (s : State) (n : Nat) (x : Poll) : (s.setPoll n x).proto = s.proto := rfl
@[simp] theorem State.setPoll_clk (s : State) (n : Nat) (x : Poll) : (s.setPoll n x).clk = s.clk := rfl
@[simp] theorem State.setPoll_eng (s : State) (n : Nat) (x : Poll) : (s.setPoll n x).eng = s.eng := rfl
@[simp] theorem State.setPoll_chains (s : State) (n : Nat) (x : Poll) : (s.setPoll n x).chains = s.chains := rfl
@[simp] theorem State.setPoll_past (s : State) (n : Nat) (x : Poll) : (s.setPoll n x).past = s.past := rfl
@[simp] theorem State.setPoll_drivers (s : State) (n : Nat) (x : Poll) : (s.setPoll n x).drivers = s.drivers := rfl
@[simp] theorem State.setPoll_sources (s : State) (n : Nat) (x : Poll) : (s.setPoll n x).sources = s.sources := rfl
@[simp] theorem State.setPoll_mon (s : State) (n : Nat) (x : Poll) : (s.setPoll n x).mon = s.mon := rfl
@[simp] theorem State.setPoll_ds (s : State) (n : Nat) (x : Poll) : (s.setPoll n x).ds = s.ds := rfl
@[simp] theorem State.setPoll_dsStage (s : State) (n : Nat) (x : Poll) : (s.setPoll n x).dsStage = s.dsStage := rfl
@[simp] theorem State.setPoll_dets (s : State) (n : Nat) (x : Poll) : (s.setPoll n x).dets = s.dets := rfl
@[simp] theorem State.setPoll_stats (s : State) (n : Nat) (x : Poll) : (s.setPoll n x).stats = s.stats := rfl
@[simp] theorem State.setPoll_melds (s : State) (n : Nat) (x : Poll) : (s.setPoll n x).melds = s.melds := rfl
@[simp] theorem State.setPoll_route (s : State) (n : Nat) (x : Poll) : (s.setPoll n x).route = s.route := rfl
@[simp] theorem State.setPoll_irq (s : State) (n : Nat) (x : Poll) : (s.setPoll n x).irq = s.irq := rfl
@[simp] theorem State.setPoll_queues (s : State) (n : Nat) (x : Poll) : (s.setPoll n x).queues = s.queues := rfl
@[simp] theorem State.setPoll_weir (s : State) (n : Nat) (x : Poll) : (s.setPoll n x).weir = s.weir := rfl
@[simp] theorem State.setPoll_syncs (s : State) (n : Nat) (x : Poll) : (s.setPoll n x).syncs = s.syncs := rfl
@[simp] theorem State.setPoll_syncLast (s : State) (n : Nat) (x : Poll) : (s.setPoll n x).syncLast = s.syncLast := rfl
@[simp] theorem State.setPoll_syncPin (s : State) (n : Nat) (x : Poll) : (s.setPoll n x).syncPin = s.syncPin := rfl
@[simp] theorem State.setPoll_tim (s : State) (n : Nat) (x : Poll) : (s.setPoll n x).tim = s.tim := rfl
@[simp] theorem State.setPoll_caps (s : State) (n : Nat) (x : Poll) : (s.setPoll n x).caps = s.caps := rfl
@[simp] theorem State.setPoll_hostIf (s : State) (n : Nat) (x : Poll) : (s.setPoll n x).hostIf = s.hostIf := rfl
@[simp] theorem State.setPoll_sbusTicks (s : State) (n : Nat) (x : Poll) : (s.setPoll n x).sbusTicks = s.sbusTicks := rfl
@[simp] theorem State.setPoll_link (s : State) (n : Nat) (x : Poll) : (s.setPoll n x).link = s.link := rfl
@[simp] theorem State.setPoll_servo (s : State) (n : Nat) (x : Poll) : (s.setPoll n x).servo = s.servo := rfl
@[simp] theorem State.setPoll_pwr (s : State) (n : Nat) (x : Poll) : (s.setPoll n x).pwr = s.pwr := rfl
@[simp] theorem State.setPoll_ebb (s : State) (n : Nat) (x : Poll) : (s.setPoll n x).ebb = s.ebb := rfl
@[simp] theorem State.setPoll_sl (s : State) (n : Nat) (x : Poll) : (s.setPoll n x).sl = s.sl := rfl
@[simp] theorem State.setPoll_beo0 (s : State) (n : Nat) (x : Poll) : (s.setPoll n x).beo0 = s.beo0 := rfl
@[simp] theorem State.setPoll_beo1 (s : State) (n : Nat) (x : Poll) : (s.setPoll n x).beo1 = s.beo1 := rfl
@[simp] theorem State.setPoll_loop (s : State) (n : Nat) (x : Poll) : (s.setPoll n x).loop = s.loop := rfl
@[simp] theorem State.setPoll_freeCtr (s : State) (n : Nat) (x : Poll) : (s.setPoll n x).freeCtr = s.freeCtr := rfl
@[simp] theorem State.setPoll_reg (s : State) (n : Nat) (x : Poll) (q : Reg) : (s.setPoll n x).reg q = s.reg q := rfl
@[simp] theorem State.setPoll_fld (s : State) (n : Nat) (x : Poll) (q : Reg) (j k : Nat) : (s.setPoll n x).fld q j k = s.fld q j k := rfl
@[simp] theorem State.setPoll_bit (s : State) (n : Nat) (x : Poll) (q : Reg) (j : Nat) : (s.setPoll n x).bit q j = s.bit q j := rfl
@[simp] theorem State.setPoll_ch_at (s : State) (n : Nat) (x : Poll) (m : Nat) : (s.setPoll n x).ch m = s.ch m := rfl
@[simp] theorem State.setPoll_drv_at (s : State) (n : Nat) (x : Poll) (m : Nat) : (s.setPoll n x).drv m = s.drv m := rfl
@[simp] theorem State.setPoll_isrc_at (s : State) (n : Nat) (x : Poll) (m : Nat) : (s.setPoll n x).isrc m = s.isrc m := rfl
@[simp] theorem State.setPoll_dsr_at (s : State) (n : Nat) (x : Poll) (m : Nat) : (s.setPoll n x).dsr m = s.dsr m := rfl
@[simp] theorem State.setPoll_det_at (s : State) (n : Nat) (x : Poll) (m : Nat) : (s.setPoll n x).det m = s.det m := rfl
@[simp] theorem State.setPoll_stat_at (s : State) (n : Nat) (x : Poll) (m : Nat) : (s.setPoll n x).stat m = s.stat m := rfl
@[simp] theorem State.setPoll_meld_at (s : State) (n : Nat) (x : Poll) (m : Nat) : (s.setPoll n x).meld m = s.meld m := rfl
@[simp] theorem State.setPoll_queue_at (s : State) (n : Nat) (x : Poll) (m : Nat) : (s.setPoll n x).queue m = s.queue m := rfl

/-! ### modPoll -/

@[simp] theorem State.modPoll_pending (s : State) (n : Nat) (g : Poll → Poll) : (s.modPoll n g).pending = s.pending := rfl
@[simp] theorem State.modPoll_regs (s : State) (n : Nat) (g : Poll → Poll) : (s.modPoll n g).regs = s.regs := rfl
@[simp] theorem State.modPoll_sram (s : State) (n : Nat) (g : Poll → Poll) : (s.modPoll n g).sram = s.sram := rfl
@[simp] theorem State.modPoll_otp (s : State) (n : Nat) (g : Poll → Poll) : (s.modPoll n g).otp = s.otp := rfl
@[simp] theorem State.modPoll_coef (s : State) (n : Nat) (g : Poll → Poll) : (s.modPoll n g).coef = s.coef := rfl
@[simp] theorem State.modPoll_proto (s : State) (n : Nat) (g : Poll → Poll) : (s.modPoll n g).proto = s.proto := rfl
@[simp] theorem State.modPoll_clk (s : State) (n : Nat) (g : Poll → Poll) : (s.modPoll n g).clk = s.clk := rfl
@[simp] theorem State.modPoll_eng (s : State) (n : Nat) (g : Poll → Poll) : (s.modPoll n g).eng = s.eng := rfl
@[simp] theorem State.modPoll_chains (s : State) (n : Nat) (g : Poll → Poll) : (s.modPoll n g).chains = s.chains := rfl
@[simp] theorem State.modPoll_past (s : State) (n : Nat) (g : Poll → Poll) : (s.modPoll n g).past = s.past := rfl
@[simp] theorem State.modPoll_drivers (s : State) (n : Nat) (g : Poll → Poll) : (s.modPoll n g).drivers = s.drivers := rfl
@[simp] theorem State.modPoll_sources (s : State) (n : Nat) (g : Poll → Poll) : (s.modPoll n g).sources = s.sources := rfl
@[simp] theorem State.modPoll_mon (s : State) (n : Nat) (g : Poll → Poll) : (s.modPoll n g).mon = s.mon := rfl
@[simp] theorem State.modPoll_ds (s : State) (n : Nat) (g : Poll → Poll) : (s.modPoll n g).ds = s.ds := rfl
@[simp] theorem State.modPoll_dsStage (s : State) (n : Nat) (g : Poll → Poll) : (s.modPoll n g).dsStage = s.dsStage := rfl
@[simp] theorem State.modPoll_dets (s : State) (n : Nat) (g : Poll → Poll) : (s.modPoll n g).dets = s.dets := rfl
@[simp] theorem State.modPoll_stats (s : State) (n : Nat) (g : Poll → Poll) : (s.modPoll n g).stats = s.stats := rfl
@[simp] theorem State.modPoll_melds (s : State) (n : Nat) (g : Poll → Poll) : (s.modPoll n g).melds = s.melds := rfl
@[simp] theorem State.modPoll_route (s : State) (n : Nat) (g : Poll → Poll) : (s.modPoll n g).route = s.route := rfl
@[simp] theorem State.modPoll_irq (s : State) (n : Nat) (g : Poll → Poll) : (s.modPoll n g).irq = s.irq := rfl
@[simp] theorem State.modPoll_queues (s : State) (n : Nat) (g : Poll → Poll) : (s.modPoll n g).queues = s.queues := rfl
@[simp] theorem State.modPoll_weir (s : State) (n : Nat) (g : Poll → Poll) : (s.modPoll n g).weir = s.weir := rfl
@[simp] theorem State.modPoll_syncs (s : State) (n : Nat) (g : Poll → Poll) : (s.modPoll n g).syncs = s.syncs := rfl
@[simp] theorem State.modPoll_syncLast (s : State) (n : Nat) (g : Poll → Poll) : (s.modPoll n g).syncLast = s.syncLast := rfl
@[simp] theorem State.modPoll_syncPin (s : State) (n : Nat) (g : Poll → Poll) : (s.modPoll n g).syncPin = s.syncPin := rfl
@[simp] theorem State.modPoll_tim (s : State) (n : Nat) (g : Poll → Poll) : (s.modPoll n g).tim = s.tim := rfl
@[simp] theorem State.modPoll_caps (s : State) (n : Nat) (g : Poll → Poll) : (s.modPoll n g).caps = s.caps := rfl
@[simp] theorem State.modPoll_hostIf (s : State) (n : Nat) (g : Poll → Poll) : (s.modPoll n g).hostIf = s.hostIf := rfl
@[simp] theorem State.modPoll_sbusTicks (s : State) (n : Nat) (g : Poll → Poll) : (s.modPoll n g).sbusTicks = s.sbusTicks := rfl
@[simp] theorem State.modPoll_link (s : State) (n : Nat) (g : Poll → Poll) : (s.modPoll n g).link = s.link := rfl
@[simp] theorem State.modPoll_servo (s : State) (n : Nat) (g : Poll → Poll) : (s.modPoll n g).servo = s.servo := rfl
@[simp] theorem State.modPoll_pwr (s : State) (n : Nat) (g : Poll → Poll) : (s.modPoll n g).pwr = s.pwr := rfl
@[simp] theorem State.modPoll_ebb (s : State) (n : Nat) (g : Poll → Poll) : (s.modPoll n g).ebb = s.ebb := rfl
@[simp] theorem State.modPoll_sl (s : State) (n : Nat) (g : Poll → Poll) : (s.modPoll n g).sl = s.sl := rfl
@[simp] theorem State.modPoll_beo0 (s : State) (n : Nat) (g : Poll → Poll) : (s.modPoll n g).beo0 = s.beo0 := rfl
@[simp] theorem State.modPoll_beo1 (s : State) (n : Nat) (g : Poll → Poll) : (s.modPoll n g).beo1 = s.beo1 := rfl
@[simp] theorem State.modPoll_loop (s : State) (n : Nat) (g : Poll → Poll) : (s.modPoll n g).loop = s.loop := rfl
@[simp] theorem State.modPoll_freeCtr (s : State) (n : Nat) (g : Poll → Poll) : (s.modPoll n g).freeCtr = s.freeCtr := rfl
@[simp] theorem State.modPoll_reg (s : State) (n : Nat) (g : Poll → Poll) (q : Reg) : (s.modPoll n g).reg q = s.reg q := rfl
@[simp] theorem State.modPoll_fld (s : State) (n : Nat) (g : Poll → Poll) (q : Reg) (j k : Nat) : (s.modPoll n g).fld q j k = s.fld q j k := rfl
@[simp] theorem State.modPoll_bit (s : State) (n : Nat) (g : Poll → Poll) (q : Reg) (j : Nat) : (s.modPoll n g).bit q j = s.bit q j := rfl
@[simp] theorem State.modPoll_ch_at (s : State) (n : Nat) (g : Poll → Poll) (m : Nat) : (s.modPoll n g).ch m = s.ch m := rfl
@[simp] theorem State.modPoll_drv_at (s : State) (n : Nat) (g : Poll → Poll) (m : Nat) : (s.modPoll n g).drv m = s.drv m := rfl
@[simp] theorem State.modPoll_isrc_at (s : State) (n : Nat) (g : Poll → Poll) (m : Nat) : (s.modPoll n g).isrc m = s.isrc m := rfl
@[simp] theorem State.modPoll_dsr_at (s : State) (n : Nat) (g : Poll → Poll) (m : Nat) : (s.modPoll n g).dsr m = s.dsr m := rfl
@[simp] theorem State.modPoll_det_at (s : State) (n : Nat) (g : Poll → Poll) (m : Nat) : (s.modPoll n g).det m = s.det m := rfl
@[simp] theorem State.modPoll_stat_at (s : State) (n : Nat) (g : Poll → Poll) (m : Nat) : (s.modPoll n g).stat m = s.stat m := rfl
@[simp] theorem State.modPoll_meld_at (s : State) (n : Nat) (g : Poll → Poll) (m : Nat) : (s.modPoll n g).meld m = s.meld m := rfl
@[simp] theorem State.modPoll_queue_at (s : State) (n : Nat) (g : Poll → Poll) (m : Nat) : (s.modPoll n g).queue m = s.queue m := rfl

/-! ### emit -/

@[simp] theorem State.emit_pending (s : State) (u : RUnit) (qs : List Nat) : (s.emit u qs).pending = s.pending := rfl
@[simp] theorem State.emit_regs (s : State) (u : RUnit) (qs : List Nat) : (s.emit u qs).regs = s.regs := rfl
@[simp] theorem State.emit_sram (s : State) (u : RUnit) (qs : List Nat) : (s.emit u qs).sram = s.sram := rfl
@[simp] theorem State.emit_otp (s : State) (u : RUnit) (qs : List Nat) : (s.emit u qs).otp = s.otp := rfl
@[simp] theorem State.emit_coef (s : State) (u : RUnit) (qs : List Nat) : (s.emit u qs).coef = s.coef := rfl
@[simp] theorem State.emit_proto (s : State) (u : RUnit) (qs : List Nat) : (s.emit u qs).proto = s.proto := rfl
@[simp] theorem State.emit_clk (s : State) (u : RUnit) (qs : List Nat) : (s.emit u qs).clk = s.clk := rfl
@[simp] theorem State.emit_eng (s : State) (u : RUnit) (qs : List Nat) : (s.emit u qs).eng = s.eng := rfl
@[simp] theorem State.emit_chains (s : State) (u : RUnit) (qs : List Nat) : (s.emit u qs).chains = s.chains := rfl
@[simp] theorem State.emit_past (s : State) (u : RUnit) (qs : List Nat) : (s.emit u qs).past = s.past := rfl
@[simp] theorem State.emit_drivers (s : State) (u : RUnit) (qs : List Nat) : (s.emit u qs).drivers = s.drivers := rfl
@[simp] theorem State.emit_sources (s : State) (u : RUnit) (qs : List Nat) : (s.emit u qs).sources = s.sources := rfl
@[simp] theorem State.emit_mon (s : State) (u : RUnit) (qs : List Nat) : (s.emit u qs).mon = s.mon := rfl
@[simp] theorem State.emit_ds (s : State) (u : RUnit) (qs : List Nat) : (s.emit u qs).ds = s.ds := rfl
@[simp] theorem State.emit_dsStage (s : State) (u : RUnit) (qs : List Nat) : (s.emit u qs).dsStage = s.dsStage := rfl
@[simp] theorem State.emit_dets (s : State) (u : RUnit) (qs : List Nat) : (s.emit u qs).dets = s.dets := rfl
@[simp] theorem State.emit_stats (s : State) (u : RUnit) (qs : List Nat) : (s.emit u qs).stats = s.stats := rfl
@[simp] theorem State.emit_melds (s : State) (u : RUnit) (qs : List Nat) : (s.emit u qs).melds = s.melds := rfl
@[simp] theorem State.emit_route (s : State) (u : RUnit) (qs : List Nat) : (s.emit u qs).route = s.route := rfl
@[simp] theorem State.emit_irq (s : State) (u : RUnit) (qs : List Nat) : (s.emit u qs).irq = s.irq := rfl
@[simp] theorem State.emit_queues (s : State) (u : RUnit) (qs : List Nat) : (s.emit u qs).queues = s.queues := rfl
@[simp] theorem State.emit_syncs (s : State) (u : RUnit) (qs : List Nat) : (s.emit u qs).syncs = s.syncs := rfl
@[simp] theorem State.emit_syncLast (s : State) (u : RUnit) (qs : List Nat) : (s.emit u qs).syncLast = s.syncLast := rfl
@[simp] theorem State.emit_syncPin (s : State) (u : RUnit) (qs : List Nat) : (s.emit u qs).syncPin = s.syncPin := rfl
@[simp] theorem State.emit_tim (s : State) (u : RUnit) (qs : List Nat) : (s.emit u qs).tim = s.tim := rfl
@[simp] theorem State.emit_caps (s : State) (u : RUnit) (qs : List Nat) : (s.emit u qs).caps = s.caps := rfl
@[simp] theorem State.emit_hostIf (s : State) (u : RUnit) (qs : List Nat) : (s.emit u qs).hostIf = s.hostIf := rfl
@[simp] theorem State.emit_polls (s : State) (u : RUnit) (qs : List Nat) : (s.emit u qs).polls = s.polls := rfl
@[simp] theorem State.emit_sbusTicks (s : State) (u : RUnit) (qs : List Nat) : (s.emit u qs).sbusTicks = s.sbusTicks := rfl
@[simp] theorem State.emit_link (s : State) (u : RUnit) (qs : List Nat) : (s.emit u qs).link = s.link := rfl
@[simp] theorem State.emit_servo (s : State) (u : RUnit) (qs : List Nat) : (s.emit u qs).servo = s.servo := rfl
@[simp] theorem State.emit_pwr (s : State) (u : RUnit) (qs : List Nat) : (s.emit u qs).pwr = s.pwr := rfl
@[simp] theorem State.emit_ebb (s : State) (u : RUnit) (qs : List Nat) : (s.emit u qs).ebb = s.ebb := rfl
@[simp] theorem State.emit_sl (s : State) (u : RUnit) (qs : List Nat) : (s.emit u qs).sl = s.sl := rfl
@[simp] theorem State.emit_beo0 (s : State) (u : RUnit) (qs : List Nat) : (s.emit u qs).beo0 = s.beo0 := rfl
@[simp] theorem State.emit_beo1 (s : State) (u : RUnit) (qs : List Nat) : (s.emit u qs).beo1 = s.beo1 := rfl
@[simp] theorem State.emit_loop (s : State) (u : RUnit) (qs : List Nat) : (s.emit u qs).loop = s.loop := rfl
@[simp] theorem State.emit_freeCtr (s : State) (u : RUnit) (qs : List Nat) : (s.emit u qs).freeCtr = s.freeCtr := rfl
@[simp] theorem State.emit_reg (s : State) (u : RUnit) (qs : List Nat) (q : Reg) : (s.emit u qs).reg q = s.reg q := rfl
@[simp] theorem State.emit_fld (s : State) (u : RUnit) (qs : List Nat) (q : Reg) (j k : Nat) : (s.emit u qs).fld q j k = s.fld q j k := rfl
@[simp] theorem State.emit_bit (s : State) (u : RUnit) (qs : List Nat) (q : Reg) (j : Nat) : (s.emit u qs).bit q j = s.bit q j := rfl
@[simp] theorem State.emit_ch_at (s : State) (u : RUnit) (qs : List Nat) (m : Nat) : (s.emit u qs).ch m = s.ch m := rfl
@[simp] theorem State.emit_drv_at (s : State) (u : RUnit) (qs : List Nat) (m : Nat) : (s.emit u qs).drv m = s.drv m := rfl
@[simp] theorem State.emit_isrc_at (s : State) (u : RUnit) (qs : List Nat) (m : Nat) : (s.emit u qs).isrc m = s.isrc m := rfl
@[simp] theorem State.emit_dsr_at (s : State) (u : RUnit) (qs : List Nat) (m : Nat) : (s.emit u qs).dsr m = s.dsr m := rfl
@[simp] theorem State.emit_det_at (s : State) (u : RUnit) (qs : List Nat) (m : Nat) : (s.emit u qs).det m = s.det m := rfl
@[simp] theorem State.emit_stat_at (s : State) (u : RUnit) (qs : List Nat) (m : Nat) : (s.emit u qs).stat m = s.stat m := rfl
@[simp] theorem State.emit_meld_at (s : State) (u : RUnit) (qs : List Nat) (m : Nat) : (s.emit u qs).meld m = s.meld m := rfl
@[simp] theorem State.emit_queue_at (s : State) (u : RUnit) (qs : List Nat) (m : Nat) : (s.emit u qs).queue m = s.queue m := rfl
@[simp] theorem State.emit_poll_at (s : State) (u : RUnit) (qs : List Nat) (m : Nat) : (s.emit u qs).poll m = s.poll m := rfl

/-! ### event -/

@[simp] theorem State.event_pending (s : State) (c : Nat) (tm : Stamp) (qs : List Nat) : (s.event c tm qs).pending = s.pending := rfl
@[simp] theorem State.event_regs (s : State) (c : Nat) (tm : Stamp) (qs : List Nat) : (s.event c tm qs).regs = s.regs := rfl
@[simp] theorem State.event_sram (s : State) (c : Nat) (tm : Stamp) (qs : List Nat) : (s.event c tm qs).sram = s.sram := rfl
@[simp] theorem State.event_otp (s : State) (c : Nat) (tm : Stamp) (qs : List Nat) : (s.event c tm qs).otp = s.otp := rfl
@[simp] theorem State.event_coef (s : State) (c : Nat) (tm : Stamp) (qs : List Nat) : (s.event c tm qs).coef = s.coef := rfl
@[simp] theorem State.event_proto (s : State) (c : Nat) (tm : Stamp) (qs : List Nat) : (s.event c tm qs).proto = s.proto := rfl
@[simp] theorem State.event_clk (s : State) (c : Nat) (tm : Stamp) (qs : List Nat) : (s.event c tm qs).clk = s.clk := rfl
@[simp] theorem State.event_eng (s : State) (c : Nat) (tm : Stamp) (qs : List Nat) : (s.event c tm qs).eng = s.eng := rfl
@[simp] theorem State.event_chains (s : State) (c : Nat) (tm : Stamp) (qs : List Nat) : (s.event c tm qs).chains = s.chains := rfl
@[simp] theorem State.event_past (s : State) (c : Nat) (tm : Stamp) (qs : List Nat) : (s.event c tm qs).past = s.past := rfl
@[simp] theorem State.event_drivers (s : State) (c : Nat) (tm : Stamp) (qs : List Nat) : (s.event c tm qs).drivers = s.drivers := rfl
@[simp] theorem State.event_sources (s : State) (c : Nat) (tm : Stamp) (qs : List Nat) : (s.event c tm qs).sources = s.sources := rfl
@[simp] theorem State.event_mon (s : State) (c : Nat) (tm : Stamp) (qs : List Nat) : (s.event c tm qs).mon = s.mon := rfl
@[simp] theorem State.event_ds (s : State) (c : Nat) (tm : Stamp) (qs : List Nat) : (s.event c tm qs).ds = s.ds := rfl
@[simp] theorem State.event_dsStage (s : State) (c : Nat) (tm : Stamp) (qs : List Nat) : (s.event c tm qs).dsStage = s.dsStage := rfl
@[simp] theorem State.event_dets (s : State) (c : Nat) (tm : Stamp) (qs : List Nat) : (s.event c tm qs).dets = s.dets := rfl
@[simp] theorem State.event_stats (s : State) (c : Nat) (tm : Stamp) (qs : List Nat) : (s.event c tm qs).stats = s.stats := rfl
@[simp] theorem State.event_melds (s : State) (c : Nat) (tm : Stamp) (qs : List Nat) : (s.event c tm qs).melds = s.melds := rfl
@[simp] theorem State.event_route (s : State) (c : Nat) (tm : Stamp) (qs : List Nat) : (s.event c tm qs).route = s.route := rfl
@[simp] theorem State.event_irq (s : State) (c : Nat) (tm : Stamp) (qs : List Nat) : (s.event c tm qs).irq = s.irq := rfl
@[simp] theorem State.event_queues (s : State) (c : Nat) (tm : Stamp) (qs : List Nat) : (s.event c tm qs).queues = s.queues := rfl
@[simp] theorem State.event_syncs (s : State) (c : Nat) (tm : Stamp) (qs : List Nat) : (s.event c tm qs).syncs = s.syncs := rfl
@[simp] theorem State.event_syncLast (s : State) (c : Nat) (tm : Stamp) (qs : List Nat) : (s.event c tm qs).syncLast = s.syncLast := rfl
@[simp] theorem State.event_syncPin (s : State) (c : Nat) (tm : Stamp) (qs : List Nat) : (s.event c tm qs).syncPin = s.syncPin := rfl
@[simp] theorem State.event_tim (s : State) (c : Nat) (tm : Stamp) (qs : List Nat) : (s.event c tm qs).tim = s.tim := rfl
@[simp] theorem State.event_caps (s : State) (c : Nat) (tm : Stamp) (qs : List Nat) : (s.event c tm qs).caps = s.caps := rfl
@[simp] theorem State.event_hostIf (s : State) (c : Nat) (tm : Stamp) (qs : List Nat) : (s.event c tm qs).hostIf = s.hostIf := rfl
@[simp] theorem State.event_polls (s : State) (c : Nat) (tm : Stamp) (qs : List Nat) : (s.event c tm qs).polls = s.polls := rfl
@[simp] theorem State.event_sbusTicks (s : State) (c : Nat) (tm : Stamp) (qs : List Nat) : (s.event c tm qs).sbusTicks = s.sbusTicks := rfl
@[simp] theorem State.event_link (s : State) (c : Nat) (tm : Stamp) (qs : List Nat) : (s.event c tm qs).link = s.link := rfl
@[simp] theorem State.event_servo (s : State) (c : Nat) (tm : Stamp) (qs : List Nat) : (s.event c tm qs).servo = s.servo := rfl
@[simp] theorem State.event_pwr (s : State) (c : Nat) (tm : Stamp) (qs : List Nat) : (s.event c tm qs).pwr = s.pwr := rfl
@[simp] theorem State.event_ebb (s : State) (c : Nat) (tm : Stamp) (qs : List Nat) : (s.event c tm qs).ebb = s.ebb := rfl
@[simp] theorem State.event_sl (s : State) (c : Nat) (tm : Stamp) (qs : List Nat) : (s.event c tm qs).sl = s.sl := rfl
@[simp] theorem State.event_beo0 (s : State) (c : Nat) (tm : Stamp) (qs : List Nat) : (s.event c tm qs).beo0 = s.beo0 := rfl
@[simp] theorem State.event_beo1 (s : State) (c : Nat) (tm : Stamp) (qs : List Nat) : (s.event c tm qs).beo1 = s.beo1 := rfl
@[simp] theorem State.event_loop (s : State) (c : Nat) (tm : Stamp) (qs : List Nat) : (s.event c tm qs).loop = s.loop := rfl
@[simp] theorem State.event_freeCtr (s : State) (c : Nat) (tm : Stamp) (qs : List Nat) : (s.event c tm qs).freeCtr = s.freeCtr := rfl
@[simp] theorem State.event_reg (s : State) (c : Nat) (tm : Stamp) (qs : List Nat) (q : Reg) : (s.event c tm qs).reg q = s.reg q := rfl
@[simp] theorem State.event_fld (s : State) (c : Nat) (tm : Stamp) (qs : List Nat) (q : Reg) (j k : Nat) : (s.event c tm qs).fld q j k = s.fld q j k := rfl
@[simp] theorem State.event_bit (s : State) (c : Nat) (tm : Stamp) (qs : List Nat) (q : Reg) (j : Nat) : (s.event c tm qs).bit q j = s.bit q j := rfl
@[simp] theorem State.event_ch_at (s : State) (c : Nat) (tm : Stamp) (qs : List Nat) (m : Nat) : (s.event c tm qs).ch m = s.ch m := rfl
@[simp] theorem State.event_drv_at (s : State) (c : Nat) (tm : Stamp) (qs : List Nat) (m : Nat) : (s.event c tm qs).drv m = s.drv m := rfl
@[simp] theorem State.event_isrc_at (s : State) (c : Nat) (tm : Stamp) (qs : List Nat) (m : Nat) : (s.event c tm qs).isrc m = s.isrc m := rfl
@[simp] theorem State.event_dsr_at (s : State) (c : Nat) (tm : Stamp) (qs : List Nat) (m : Nat) : (s.event c tm qs).dsr m = s.dsr m := rfl
@[simp] theorem State.event_det_at (s : State) (c : Nat) (tm : Stamp) (qs : List Nat) (m : Nat) : (s.event c tm qs).det m = s.det m := rfl
@[simp] theorem State.event_stat_at (s : State) (c : Nat) (tm : Stamp) (qs : List Nat) (m : Nat) : (s.event c tm qs).stat m = s.stat m := rfl
@[simp] theorem State.event_meld_at (s : State) (c : Nat) (tm : Stamp) (qs : List Nat) (m : Nat) : (s.event c tm qs).meld m = s.meld m := rfl
@[simp] theorem State.event_queue_at (s : State) (c : Nat) (tm : Stamp) (qs : List Nat) (m : Nat) : (s.event c tm qs).queue m = s.queue m := rfl
@[simp] theorem State.event_poll_at (s : State) (c : Nat) (tm : Stamp) (qs : List Nat) (m : Nat) : (s.event c tm qs).poll m = s.poll m := rfl

/-! ### modIrq -/

@[simp] theorem State.modIrq_pending (s : State) (g : Irq → Irq) : (s.modIrq g).pending = s.pending := rfl
@[simp] theorem State.modIrq_regs (s : State) (g : Irq → Irq) : (s.modIrq g).regs = s.regs := rfl
@[simp] theorem State.modIrq_sram (s : State) (g : Irq → Irq) : (s.modIrq g).sram = s.sram := rfl
@[simp] theorem State.modIrq_otp (s : State) (g : Irq → Irq) : (s.modIrq g).otp = s.otp := rfl
@[simp] theorem State.modIrq_coef (s : State) (g : Irq → Irq) : (s.modIrq g).coef = s.coef := rfl
@[simp] theorem State.modIrq_proto (s : State) (g : Irq → Irq) : (s.modIrq g).proto = s.proto := rfl
@[simp] theorem State.modIrq_clk (s : State) (g : Irq → Irq) : (s.modIrq g).clk = s.clk := rfl
@[simp] theorem State.modIrq_eng (s : State) (g : Irq → Irq) : (s.modIrq g).eng = s.eng := rfl
@[simp] theorem State.modIrq_chains (s : State) (g : Irq → Irq) : (s.modIrq g).chains = s.chains := rfl
@[simp] theorem State.modIrq_past (s : State) (g : Irq → Irq) : (s.modIrq g).past = s.past := rfl
@[simp] theorem State.modIrq_drivers (s : State) (g : Irq → Irq) : (s.modIrq g).drivers = s.drivers := rfl
@[simp] theorem State.modIrq_sources (s : State) (g : Irq → Irq) : (s.modIrq g).sources = s.sources := rfl
@[simp] theorem State.modIrq_mon (s : State) (g : Irq → Irq) : (s.modIrq g).mon = s.mon := rfl
@[simp] theorem State.modIrq_ds (s : State) (g : Irq → Irq) : (s.modIrq g).ds = s.ds := rfl
@[simp] theorem State.modIrq_dsStage (s : State) (g : Irq → Irq) : (s.modIrq g).dsStage = s.dsStage := rfl
@[simp] theorem State.modIrq_dets (s : State) (g : Irq → Irq) : (s.modIrq g).dets = s.dets := rfl
@[simp] theorem State.modIrq_stats (s : State) (g : Irq → Irq) : (s.modIrq g).stats = s.stats := rfl
@[simp] theorem State.modIrq_melds (s : State) (g : Irq → Irq) : (s.modIrq g).melds = s.melds := rfl
@[simp] theorem State.modIrq_route (s : State) (g : Irq → Irq) : (s.modIrq g).route = s.route := rfl
@[simp] theorem State.modIrq_queues (s : State) (g : Irq → Irq) : (s.modIrq g).queues = s.queues := rfl
@[simp] theorem State.modIrq_weir (s : State) (g : Irq → Irq) : (s.modIrq g).weir = s.weir := rfl
@[simp] theorem State.modIrq_syncs (s : State) (g : Irq → Irq) : (s.modIrq g).syncs = s.syncs := rfl
@[simp] theorem State.modIrq_syncLast (s : State) (g : Irq → Irq) : (s.modIrq g).syncLast = s.syncLast := rfl
@[simp] theorem State.modIrq_syncPin (s : State) (g : Irq → Irq) : (s.modIrq g).syncPin = s.syncPin := rfl
@[simp] theorem State.modIrq_tim (s : State) (g : Irq → Irq) : (s.modIrq g).tim = s.tim := rfl
@[simp] theorem State.modIrq_caps (s : State) (g : Irq → Irq) : (s.modIrq g).caps = s.caps := rfl
@[simp] theorem State.modIrq_hostIf (s : State) (g : Irq → Irq) : (s.modIrq g).hostIf = s.hostIf := rfl
@[simp] theorem State.modIrq_polls (s : State) (g : Irq → Irq) : (s.modIrq g).polls = s.polls := rfl
@[simp] theorem State.modIrq_sbusTicks (s : State) (g : Irq → Irq) : (s.modIrq g).sbusTicks = s.sbusTicks := rfl
@[simp] theorem State.modIrq_link (s : State) (g : Irq → Irq) : (s.modIrq g).link = s.link := rfl
@[simp] theorem State.modIrq_servo (s : State) (g : Irq → Irq) : (s.modIrq g).servo = s.servo := rfl
@[simp] theorem State.modIrq_pwr (s : State) (g : Irq → Irq) : (s.modIrq g).pwr = s.pwr := rfl
@[simp] theorem State.modIrq_ebb (s : State) (g : Irq → Irq) : (s.modIrq g).ebb = s.ebb := rfl
@[simp] theorem State.modIrq_sl (s : State) (g : Irq → Irq) : (s.modIrq g).sl = s.sl := rfl
@[simp] theorem State.modIrq_beo0 (s : State) (g : Irq → Irq) : (s.modIrq g).beo0 = s.beo0 := rfl
@[simp] theorem State.modIrq_beo1 (s : State) (g : Irq → Irq) : (s.modIrq g).beo1 = s.beo1 := rfl
@[simp] theorem State.modIrq_loop (s : State) (g : Irq → Irq) : (s.modIrq g).loop = s.loop := rfl
@[simp] theorem State.modIrq_freeCtr (s : State) (g : Irq → Irq) : (s.modIrq g).freeCtr = s.freeCtr := rfl
@[simp] theorem State.modIrq_reg (s : State) (g : Irq → Irq) (q : Reg) : (s.modIrq g).reg q = s.reg q := rfl
@[simp] theorem State.modIrq_fld (s : State) (g : Irq → Irq) (q : Reg) (j k : Nat) : (s.modIrq g).fld q j k = s.fld q j k := rfl
@[simp] theorem State.modIrq_bit (s : State) (g : Irq → Irq) (q : Reg) (j : Nat) : (s.modIrq g).bit q j = s.bit q j := rfl
@[simp] theorem State.modIrq_ch_at (s : State) (g : Irq → Irq) (m : Nat) : (s.modIrq g).ch m = s.ch m := rfl
@[simp] theorem State.modIrq_drv_at (s : State) (g : Irq → Irq) (m : Nat) : (s.modIrq g).drv m = s.drv m := rfl
@[simp] theorem State.modIrq_isrc_at (s : State) (g : Irq → Irq) (m : Nat) : (s.modIrq g).isrc m = s.isrc m := rfl
@[simp] theorem State.modIrq_dsr_at (s : State) (g : Irq → Irq) (m : Nat) : (s.modIrq g).dsr m = s.dsr m := rfl
@[simp] theorem State.modIrq_det_at (s : State) (g : Irq → Irq) (m : Nat) : (s.modIrq g).det m = s.det m := rfl
@[simp] theorem State.modIrq_stat_at (s : State) (g : Irq → Irq) (m : Nat) : (s.modIrq g).stat m = s.stat m := rfl
@[simp] theorem State.modIrq_meld_at (s : State) (g : Irq → Irq) (m : Nat) : (s.modIrq g).meld m = s.meld m := rfl
@[simp] theorem State.modIrq_queue_at (s : State) (g : Irq → Irq) (m : Nat) : (s.modIrq g).queue m = s.queue m := rfl
@[simp] theorem State.modIrq_poll_at (s : State) (g : Irq → Irq) (m : Nat) : (s.modIrq g).poll m = s.poll m := rfl

/-! ### modRoute -/

@[simp] theorem State.modRoute_pending (s : State) (g : Route → Route) : (s.modRoute g).pending = s.pending := rfl
@[simp] theorem State.modRoute_regs (s : State) (g : Route → Route) : (s.modRoute g).regs = s.regs := rfl
@[simp] theorem State.modRoute_sram (s : State) (g : Route → Route) : (s.modRoute g).sram = s.sram := rfl
@[simp] theorem State.modRoute_otp (s : State) (g : Route → Route) : (s.modRoute g).otp = s.otp := rfl
@[simp] theorem State.modRoute_coef (s : State) (g : Route → Route) : (s.modRoute g).coef = s.coef := rfl
@[simp] theorem State.modRoute_proto (s : State) (g : Route → Route) : (s.modRoute g).proto = s.proto := rfl
@[simp] theorem State.modRoute_clk (s : State) (g : Route → Route) : (s.modRoute g).clk = s.clk := rfl
@[simp] theorem State.modRoute_eng (s : State) (g : Route → Route) : (s.modRoute g).eng = s.eng := rfl
@[simp] theorem State.modRoute_chains (s : State) (g : Route → Route) : (s.modRoute g).chains = s.chains := rfl
@[simp] theorem State.modRoute_past (s : State) (g : Route → Route) : (s.modRoute g).past = s.past := rfl
@[simp] theorem State.modRoute_drivers (s : State) (g : Route → Route) : (s.modRoute g).drivers = s.drivers := rfl
@[simp] theorem State.modRoute_sources (s : State) (g : Route → Route) : (s.modRoute g).sources = s.sources := rfl
@[simp] theorem State.modRoute_mon (s : State) (g : Route → Route) : (s.modRoute g).mon = s.mon := rfl
@[simp] theorem State.modRoute_ds (s : State) (g : Route → Route) : (s.modRoute g).ds = s.ds := rfl
@[simp] theorem State.modRoute_dsStage (s : State) (g : Route → Route) : (s.modRoute g).dsStage = s.dsStage := rfl
@[simp] theorem State.modRoute_dets (s : State) (g : Route → Route) : (s.modRoute g).dets = s.dets := rfl
@[simp] theorem State.modRoute_stats (s : State) (g : Route → Route) : (s.modRoute g).stats = s.stats := rfl
@[simp] theorem State.modRoute_melds (s : State) (g : Route → Route) : (s.modRoute g).melds = s.melds := rfl
@[simp] theorem State.modRoute_irq (s : State) (g : Route → Route) : (s.modRoute g).irq = s.irq := rfl
@[simp] theorem State.modRoute_queues (s : State) (g : Route → Route) : (s.modRoute g).queues = s.queues := rfl
@[simp] theorem State.modRoute_weir (s : State) (g : Route → Route) : (s.modRoute g).weir = s.weir := rfl
@[simp] theorem State.modRoute_syncs (s : State) (g : Route → Route) : (s.modRoute g).syncs = s.syncs := rfl
@[simp] theorem State.modRoute_syncLast (s : State) (g : Route → Route) : (s.modRoute g).syncLast = s.syncLast := rfl
@[simp] theorem State.modRoute_syncPin (s : State) (g : Route → Route) : (s.modRoute g).syncPin = s.syncPin := rfl
@[simp] theorem State.modRoute_tim (s : State) (g : Route → Route) : (s.modRoute g).tim = s.tim := rfl
@[simp] theorem State.modRoute_caps (s : State) (g : Route → Route) : (s.modRoute g).caps = s.caps := rfl
@[simp] theorem State.modRoute_hostIf (s : State) (g : Route → Route) : (s.modRoute g).hostIf = s.hostIf := rfl
@[simp] theorem State.modRoute_polls (s : State) (g : Route → Route) : (s.modRoute g).polls = s.polls := rfl
@[simp] theorem State.modRoute_sbusTicks (s : State) (g : Route → Route) : (s.modRoute g).sbusTicks = s.sbusTicks := rfl
@[simp] theorem State.modRoute_link (s : State) (g : Route → Route) : (s.modRoute g).link = s.link := rfl
@[simp] theorem State.modRoute_servo (s : State) (g : Route → Route) : (s.modRoute g).servo = s.servo := rfl
@[simp] theorem State.modRoute_pwr (s : State) (g : Route → Route) : (s.modRoute g).pwr = s.pwr := rfl
@[simp] theorem State.modRoute_ebb (s : State) (g : Route → Route) : (s.modRoute g).ebb = s.ebb := rfl
@[simp] theorem State.modRoute_sl (s : State) (g : Route → Route) : (s.modRoute g).sl = s.sl := rfl
@[simp] theorem State.modRoute_beo0 (s : State) (g : Route → Route) : (s.modRoute g).beo0 = s.beo0 := rfl
@[simp] theorem State.modRoute_beo1 (s : State) (g : Route → Route) : (s.modRoute g).beo1 = s.beo1 := rfl
@[simp] theorem State.modRoute_loop (s : State) (g : Route → Route) : (s.modRoute g).loop = s.loop := rfl
@[simp] theorem State.modRoute_freeCtr (s : State) (g : Route → Route) : (s.modRoute g).freeCtr = s.freeCtr := rfl
@[simp] theorem State.modRoute_reg (s : State) (g : Route → Route) (q : Reg) : (s.modRoute g).reg q = s.reg q := rfl
@[simp] theorem State.modRoute_fld (s : State) (g : Route → Route) (q : Reg) (j k : Nat) : (s.modRoute g).fld q j k = s.fld q j k := rfl
@[simp] theorem State.modRoute_bit (s : State) (g : Route → Route) (q : Reg) (j : Nat) : (s.modRoute g).bit q j = s.bit q j := rfl
@[simp] theorem State.modRoute_ch_at (s : State) (g : Route → Route) (m : Nat) : (s.modRoute g).ch m = s.ch m := rfl
@[simp] theorem State.modRoute_drv_at (s : State) (g : Route → Route) (m : Nat) : (s.modRoute g).drv m = s.drv m := rfl
@[simp] theorem State.modRoute_isrc_at (s : State) (g : Route → Route) (m : Nat) : (s.modRoute g).isrc m = s.isrc m := rfl
@[simp] theorem State.modRoute_dsr_at (s : State) (g : Route → Route) (m : Nat) : (s.modRoute g).dsr m = s.dsr m := rfl
@[simp] theorem State.modRoute_det_at (s : State) (g : Route → Route) (m : Nat) : (s.modRoute g).det m = s.det m := rfl
@[simp] theorem State.modRoute_stat_at (s : State) (g : Route → Route) (m : Nat) : (s.modRoute g).stat m = s.stat m := rfl
@[simp] theorem State.modRoute_meld_at (s : State) (g : Route → Route) (m : Nat) : (s.modRoute g).meld m = s.meld m := rfl
@[simp] theorem State.modRoute_queue_at (s : State) (g : Route → Route) (m : Nat) : (s.modRoute g).queue m = s.queue m := rfl
@[simp] theorem State.modRoute_poll_at (s : State) (g : Route → Route) (m : Nat) : (s.modRoute g).poll m = s.poll m := rfl

end Sys2Proof.Machine
end

