-- ==== Sys2Proof/Laws/Regs.lean ====
section
/-! SUPPORT. Laws of the register file: a read after a write, a write leaves every other existing register alone, what an interrupt
source that fires leaves alone. -/

namespace Sys2Proof.Machine

/-- A register exists: its address decodes to it. -/
def Reg.ok (r : Reg) : Prop := decodeAddr r.addr = some r

theorem Reg.ok_ne {r q : Reg} (hr : r.ok) (hq : q.ok) (h : q ≠ r) : q.addr ≠ r.addr := by
  intro he
  apply h
  have h1 := hq
  unfold Reg.ok at h1 hr
  rw [he, hr] at h1
  exact (Option.some.inj h1).symm

@[simp] theorem State.setReg_reg_self (s : State) (r : Reg) (v : W32) : (s.setReg r v).reg r = v := by
  simp [State.setReg, State.reg]

theorem State.setReg_reg_addr (s : State) (r q : Reg) (v : W32) (h : q.addr ≠ r.addr) : (s.setReg r v).reg q = s.reg q := by
  simp only [State.setReg, State.reg]
  exact cellGet_cellSet_ne _ _ _ h

theorem State.setReg_reg_ne (s : State) {r q : Reg} (v : W32) (hr : r.ok) (hq : q.ok) (h : q ≠ r) :
    (s.setReg r v).reg q = s.reg q := s.setReg_reg_addr r q v (Reg.ok_ne hr hq h)

theorem State.setFld_reg_ne (s : State) {r q : Reg} (hi lo v : Nat) (hr : r.ok) (hq : q.ok) (h : q ≠ r) :
    (s.setFld r hi lo v).reg q = s.reg q := s.setReg_reg_ne _ hr hq h

theorem State.setBit_reg_ne (s : State) {r q : Reg} (i : Nat) (b : Bool) (hr : r.ok) (hq : q.ok) (h : q ≠ r) :
    (s.setBit r i b).reg q = s.reg q := s.setReg_reg_ne _ hr hq h

theorem State.satAdd_reg_ne (s : State) {r q : Reg} (hi lo k : Nat) (hr : r.ok) (hq : q.ok) (h : q ≠ r) :
    (s.satAdd r hi lo k).reg q = s.reg q := s.setReg_reg_ne _ hr hq h

@[simp] theorem State.setFld_reg_self (s : State) (r : Reg) (hi lo v : Nat) :
    (s.setFld r hi lo v).reg r = putBits (s.reg r) hi lo v := by simp [State.setFld]

@[simp] theorem State.setBit_reg_self (s : State) (r : Reg) (i : Nat) (b : Bool) :
    (s.setBit r i b).reg r = putBits (s.reg r) i i b.toNat := by simp [State.setBit]

/-! ### Sources that fire -/

theorem irqLost_ok (t w : Nat) (ht : t < 3) (hw : w < 4) : (Reg.irqLost t w).ok := by
  have h1 : t = 0 ∨ t = 1 ∨ t = 2 := by omega
  have h2 : w = 0 ∨ w = 1 ∨ w = 2 ∨ w = 3 := by omega
  unfold Reg.ok
  rcases h1 with rfl | rfl | rfl <;> rcases h2 with rfl | rfl | rfl | rfl <;> decide

theorem State.tgt_lt (s : State) (n : Nat) : s.tgt n < 4 := by
  unfold State.tgt State.fld bits
  omega

/-- A source that fires leaves every existing register but the lost-event bits alone. -/
theorem State.irqFire_reg (s : State) (n : Nat) (hn : n < 128) (q : Reg) (hq : q.ok) (hl : ∀ t w, q ≠ .irqLost t w) :
    (s.irqFire n).reg q = s.reg q := by
  unfold State.irqFire
  split
  · split
    · rfl
    · rename_i h
      have h1 := s.tgt_lt n
      exact s.setBit_reg_ne _ _ (irqLost_ok (s.tgt n - 1) (n / 32) (by omega) (by omega)) hq (hl _ _)
  · rfl

theorem State.irqFire_eq (s : State) (n : Nat) : ∃ r i, s.irqFire n = { s with regs := r, irq := i } := by
  unfold State.irqFire
  split
  · split
    · exact ⟨s.regs, s.irq, rfl⟩
    · exact ⟨_, s.irq, rfl⟩
  · exact ⟨s.regs, _, rfl⟩

theorem State.ibi_eq (s : State) (p : Port) : ∃ r, s.ibi p = { s with irq := r } := by
  unfold State.ibi
  split
  · exact ⟨_, rfl⟩
  · exact ⟨s.irq, rfl⟩

theorem State.irqSettle_eq (s : State) : ∃ r, s.irqSettle = { s with irq := r } := by
  unfold State.irqSettle State.modIrq
  dsimp only
  split <;> split
  · obtain ⟨a, ha⟩ := s.ibi_eq .a
    rw [ha]
    obtain ⟨b, hb⟩ := ({ s with irq := a } : State).ibi_eq .b
    rw [hb]
    exact ⟨_, rfl⟩
  · obtain ⟨a, ha⟩ := s.ibi_eq .a
    rw [ha]
    exact ⟨_, rfl⟩
  · obtain ⟨b, hb⟩ := s.ibi_eq .b
    rw [hb]
    exact ⟨_, rfl⟩
  · exact ⟨_, rfl⟩

@[simp] theorem State.irqFire_pending (s : State) (n : Nat) : (s.irqFire n).pending = s.pending := by
  obtain ⟨r, i, h⟩ := s.irqFire_eq n; rw [h]
@[simp] theorem State.irqFire_sram (s : State) (n : Nat) : (s.irqFire n).sram = s.sram := by
  obtain ⟨r, i, h⟩ := s.irqFire_eq n; rw [h]
@[simp] theorem State.irqFire_otp (s : State) (n : Nat) : (s.irqFire n).otp = s.otp := by
  obtain ⟨r, i, h⟩ := s.irqFire_eq n; rw [h]
@[simp] theorem State.irqFire_coef (s : State) (n : Nat) : (s.irqFire n).coef = s.coef := by
  obtain ⟨r, i, h⟩ := s.irqFire_eq n; rw [h]
@[simp] theorem State.irqFire_proto (s : State) (n : Nat) : (s.irqFire n).proto = s.proto := by
  obtain ⟨r, i, h⟩ := s.irqFire_eq n; rw [h]
@[simp] theorem State.irqFire_clk (s : State) (n : Nat) : (s.irqFire n).clk = s.clk := by
  obtain ⟨r, i, h⟩ := s.irqFire_eq n; rw [h]
@[simp] theorem State.irqFire_eng (s : State) (n : Nat) : (s.irqFire n).eng = s.eng := by
  obtain ⟨r, i, h⟩ := s.irqFire_eq n; rw [h]
@[simp] theorem State.irqFire_chains (s : State) (n : Nat) : (s.irqFire n).chains = s.chains := by
  obtain ⟨r, i, h⟩ := s.irqFire_eq n; rw [h]
@[simp] theorem State.irqFire_past (s : State) (n : Nat) : (s.irqFire n).past = s.past := by
  obtain ⟨r, i, h⟩ := s.irqFire_eq n; rw [h]
@[simp] theorem State.irqFire_drivers (s : State) (n : Nat) : (s.irqFire n).drivers = s.drivers := by
  obtain ⟨r, i, h⟩ := s.irqFire_eq n; rw [h]
@[simp] theorem State.irqFire_sources (s : State) (n : Nat) : (s.irqFire n).sources = s.sources := by
  obtain ⟨r, i, h⟩ := s.irqFire_eq n; rw [h]
@[simp] theorem State.irqFire_mon (s : State) (n : Nat) : (s.irqFire n).mon = s.mon := by
  obtain ⟨r, i, h⟩ := s.irqFire_eq n; rw [h]
@[simp] theorem State.irqFire_ds (s : State) (n : Nat) : (s.irqFire n).ds = s.ds := by
  obtain ⟨r, i, h⟩ := s.irqFire_eq n; rw [h]
@[simp] theorem State.irqFire_dsStage (s : State) (n : Nat) : (s.irqFire n).dsStage = s.dsStage := by
  obtain ⟨r, i, h⟩ := s.irqFire_eq n; rw [h]
@[simp] theorem State.irqFire_dets (s : State) (n : Nat) : (s.irqFire n).dets = s.dets := by
  obtain ⟨r, i, h⟩ := s.irqFire_eq n; rw [h]
@[simp] theorem State.irqFire_stats (s : State) (n : Nat) : (s.irqFire n).stats = s.stats := by
  obtain ⟨r, i, h⟩ := s.irqFire_eq n; rw [h]
@[simp] theorem State.irqFire_melds (s : State) (n : Nat) : (s.irqFire n).melds = s.melds := by
  obtain ⟨r, i, h⟩ := s.irqFire_eq n; rw [h]
@[simp] theorem State.irqFire_route (s : State) (n : Nat) : (s.irqFire n).route = s.route := by
  obtain ⟨r, i, h⟩ := s.irqFire_eq n; rw [h]
@[simp] theorem State.irqFire_queues (s : State) (n : Nat) : (s.irqFire n).queues = s.queues := by
  obtain ⟨r, i, h⟩ := s.irqFire_eq n; rw [h]
@[simp] theorem State.irqFire_weir (s : State) (n : Nat) : (s.irqFire n).weir = s.weir := by
  obtain ⟨r, i, h⟩ := s.irqFire_eq n; rw [h]
@[simp] theorem State.irqFire_syncs (s : State) (n : Nat) : (s.irqFire n).syncs = s.syncs := by
  obtain ⟨r, i, h⟩ := s.irqFire_eq n; rw [h]
@[simp] theorem State.irqFire_syncLast (s : State) (n : Nat) : (s.irqFire n).syncLast = s.syncLast := by
  obtain ⟨r, i, h⟩ := s.irqFire_eq n; rw [h]
@[simp] theorem State.irqFire_syncPin (s : State) (n : Nat) : (s.irqFire n).syncPin = s.syncPin := by
  obtain ⟨r, i, h⟩ := s.irqFire_eq n; rw [h]
@[simp] theorem State.irqFire_tim (s : State) (n : Nat) : (s.irqFire n).tim = s.tim := by
  obtain ⟨r, i, h⟩ := s.irqFire_eq n; rw [h]
@[simp] theorem State.irqFire_caps (s : State) (n : Nat) : (s.irqFire n).caps = s.caps := by
  obtain ⟨r, i, h⟩ := s.irqFire_eq n; rw [h]
@[simp] theorem State.irqFire_hostIf (s : State) (n : Nat) : (s.irqFire n).hostIf = s.hostIf := by
  obtain ⟨r, i, h⟩ := s.irqFire_eq n; rw [h]
@[simp] theorem State.irqFire_polls (s : State) (n : Nat) : (s.irqFire n).polls = s.polls := by
  obtain ⟨r, i, h⟩ := s.irqFire_eq n; rw [h]
@[simp] theorem State.irqFire_sbusTicks (s : State) (n : Nat) : (s.irqFire n).sbusTicks = s.sbusTicks := by
  obtain ⟨r, i, h⟩ := s.irqFire_eq n; rw [h]
@[simp] theorem State.irqFire_link (s : State) (n : Nat) : (s.irqFire n).link = s.link := by
  obtain ⟨r, i, h⟩ := s.irqFire_eq n; rw [h]
@[simp] theorem State.irqFire_servo (s : State) (n : Nat) : (s.irqFire n).servo = s.servo := by
  obtain ⟨r, i, h⟩ := s.irqFire_eq n; rw [h]
@[simp] theorem State.irqFire_pwr (s : State) (n : Nat) : (s.irqFire n).pwr = s.pwr := by
  obtain ⟨r, i, h⟩ := s.irqFire_eq n; rw [h]
@[simp] theorem State.irqFire_ebb (s : State) (n : Nat) : (s.irqFire n).ebb = s.ebb := by
  obtain ⟨r, i, h⟩ := s.irqFire_eq n; rw [h]
@[simp] theorem State.irqFire_sl (s : State) (n : Nat) : (s.irqFire n).sl = s.sl := by
  obtain ⟨r, i, h⟩ := s.irqFire_eq n; rw [h]
@[simp] theorem State.irqFire_beo0 (s : State) (n : Nat) : (s.irqFire n).beo0 = s.beo0 := by
  obtain ⟨r, i, h⟩ := s.irqFire_eq n; rw [h]
@[simp] theorem State.irqFire_beo1 (s : State) (n : Nat) : (s.irqFire n).beo1 = s.beo1 := by
  obtain ⟨r, i, h⟩ := s.irqFire_eq n; rw [h]
@[simp] theorem State.irqFire_loop (s : State) (n : Nat) : (s.irqFire n).loop = s.loop := by
  obtain ⟨r, i, h⟩ := s.irqFire_eq n; rw [h]
@[simp] theorem State.irqFire_freeCtr (s : State) (n : Nat) : (s.irqFire n).freeCtr = s.freeCtr := by
  obtain ⟨r, i, h⟩ := s.irqFire_eq n; rw [h]
@[simp] theorem State.irqSettle_pending (s : State) : s.irqSettle.pending = s.pending := by
  obtain ⟨r, h⟩ := s.irqSettle_eq; rw [h]
@[simp] theorem State.irqSettle_sram (s : State) : s.irqSettle.sram = s.sram := by
  obtain ⟨r, h⟩ := s.irqSettle_eq; rw [h]
@[simp] theorem State.irqSettle_otp (s : State) : s.irqSettle.otp = s.otp := by
  obtain ⟨r, h⟩ := s.irqSettle_eq; rw [h]
@[simp] theorem State.irqSettle_coef (s : State) : s.irqSettle.coef = s.coef := by
  obtain ⟨r, h⟩ := s.irqSettle_eq; rw [h]
@[simp] theorem State.irqSettle_proto (s : State) : s.irqSettle.proto = s.proto := by
  obtain ⟨r, h⟩ := s.irqSettle_eq; rw [h]
@[simp] theorem State.irqSettle_clk (s : State) : s.irqSettle.clk = s.clk := by
  obtain ⟨r, h⟩ := s.irqSettle_eq; rw [h]
@[simp] theorem State.irqSettle_eng (s : State) : s.irqSettle.eng = s.eng := by
  obtain ⟨r, h⟩ := s.irqSettle_eq; rw [h]
@[simp] theorem State.irqSettle_chains (s : State) : s.irqSettle.chains = s.chains := by
  obtain ⟨r, h⟩ := s.irqSettle_eq; rw [h]
@[simp] theorem State.irqSettle_past (s : State) : s.irqSettle.past = s.past := by
  obtain ⟨r, h⟩ := s.irqSettle_eq; rw [h]
@[simp] theorem State.irqSettle_drivers (s : State) : s.irqSettle.drivers = s.drivers := by
  obtain ⟨r, h⟩ := s.irqSettle_eq; rw [h]
@[simp] theorem State.irqSettle_sources (s : State) : s.irqSettle.sources = s.sources := by
  obtain ⟨r, h⟩ := s.irqSettle_eq; rw [h]
@[simp] theorem State.irqSettle_mon (s : State) : s.irqSettle.mon = s.mon := by
  obtain ⟨r, h⟩ := s.irqSettle_eq; rw [h]
@[simp] theorem State.irqSettle_ds (s : State) : s.irqSettle.ds = s.ds := by
  obtain ⟨r, h⟩ := s.irqSettle_eq; rw [h]
@[simp] theorem State.irqSettle_dsStage (s : State) : s.irqSettle.dsStage = s.dsStage := by
  obtain ⟨r, h⟩ := s.irqSettle_eq; rw [h]
@[simp] theorem State.irqSettle_dets (s : State) : s.irqSettle.dets = s.dets := by
  obtain ⟨r, h⟩ := s.irqSettle_eq; rw [h]
@[simp] theorem State.irqSettle_stats (s : State) : s.irqSettle.stats = s.stats := by
  obtain ⟨r, h⟩ := s.irqSettle_eq; rw [h]
@[simp] theorem State.irqSettle_melds (s : State) : s.irqSettle.melds = s.melds := by
  obtain ⟨r, h⟩ := s.irqSettle_eq; rw [h]
@[simp] theorem State.irqSettle_route (s : State) : s.irqSettle.route = s.route := by
  obtain ⟨r, h⟩ := s.irqSettle_eq; rw [h]
@[simp] theorem State.irqSettle_queues (s : State) : s.irqSettle.queues = s.queues := by
  obtain ⟨r, h⟩ := s.irqSettle_eq; rw [h]
@[simp] theorem State.irqSettle_weir (s : State) : s.irqSettle.weir = s.weir := by
  obtain ⟨r, h⟩ := s.irqSettle_eq; rw [h]
@[simp] theorem State.irqSettle_syncs (s : State) : s.irqSettle.syncs = s.syncs := by
  obtain ⟨r, h⟩ := s.irqSettle_eq; rw [h]
@[simp] theorem State.irqSettle_syncLast (s : State) : s.irqSettle.syncLast = s.syncLast := by
  obtain ⟨r, h⟩ := s.irqSettle_eq; rw [h]
@[simp] theorem State.irqSettle_syncPin (s : State) : s.irqSettle.syncPin = s.syncPin := by
  obtain ⟨r, h⟩ := s.irqSettle_eq; rw [h]
@[simp] theorem State.irqSettle_tim (s : State) : s.irqSettle.tim = s.tim := by
  obtain ⟨r, h⟩ := s.irqSettle_eq; rw [h]
@[simp] theorem State.irqSettle_caps (s : State) : s.irqSettle.caps = s.caps := by
  obtain ⟨r, h⟩ := s.irqSettle_eq; rw [h]
@[simp] theorem State.irqSettle_hostIf (s : State) : s.irqSettle.hostIf = s.hostIf := by
  obtain ⟨r, h⟩ := s.irqSettle_eq; rw [h]
@[simp] theorem State.irqSettle_polls (s : State) : s.irqSettle.polls = s.polls := by
  obtain ⟨r, h⟩ := s.irqSettle_eq; rw [h]
@[simp] theorem State.irqSettle_sbusTicks (s : State) : s.irqSettle.sbusTicks = s.sbusTicks := by
  obtain ⟨r, h⟩ := s.irqSettle_eq; rw [h]
@[simp] theorem State.irqSettle_link (s : State) : s.irqSettle.link = s.link := by
  obtain ⟨r, h⟩ := s.irqSettle_eq; rw [h]
@[simp] theorem State.irqSettle_servo (s : State) : s.irqSettle.servo = s.servo := by
  obtain ⟨r, h⟩ := s.irqSettle_eq; rw [h]
@[simp] theorem State.irqSettle_pwr (s : State) : s.irqSettle.pwr = s.pwr := by
  obtain ⟨r, h⟩ := s.irqSettle_eq; rw [h]
@[simp] theorem State.irqSettle_ebb (s : State) : s.irqSettle.ebb = s.ebb := by
  obtain ⟨r, h⟩ := s.irqSettle_eq; rw [h]
@[simp] theorem State.irqSettle_sl (s : State) : s.irqSettle.sl = s.sl := by
  obtain ⟨r, h⟩ := s.irqSettle_eq; rw [h]
@[simp] theorem State.irqSettle_beo0 (s : State) : s.irqSettle.beo0 = s.beo0 := by
  obtain ⟨r, h⟩ := s.irqSettle_eq; rw [h]
@[simp] theorem State.irqSettle_beo1 (s : State) : s.irqSettle.beo1 = s.beo1 := by
  obtain ⟨r, h⟩ := s.irqSettle_eq; rw [h]
@[simp] theorem State.irqSettle_loop (s : State) : s.irqSettle.loop = s.loop := by
  obtain ⟨r, h⟩ := s.irqSettle_eq; rw [h]
@[simp] theorem State.irqSettle_freeCtr (s : State) : s.irqSettle.freeCtr = s.freeCtr := by
  obtain ⟨r, h⟩ := s.irqSettle_eq; rw [h]
@[simp] theorem State.irqSettle_regs (s : State) : s.irqSettle.regs = s.regs := by
  obtain ⟨r, h⟩ := s.irqSettle_eq; rw [h]

end Sys2Proof.Machine
end

