-- ==== Sys2Proof/Laws/Follow.lean ====
section
/-! SUPPORT. What follows every command, once and for all: `finish` changes the two copies of the save area, the balance loop with its
output and its event, and the interrupt controller; and it runs commands only where some are held. -/

namespace Sys2Proof.Machine

/-! ### Held commands -/

theorem State.replay_nil (s : State) (k : Nat) (h : s.proto.held = []) : s.replay k = s := by
  cases k with
  | zero => rfl
  | succ k => unfold State.replay; split <;> simp_all

theorem State.replay_entering (s : State) (k : Nat) (h : s.pwr.entering = true) : s.replay k = s := by
  cases k with
  | zero => rfl
  | succ k => unfold State.replay; simp [h]

theorem State.finish_nil (old s : State) (h : s.proto.held = []) : State.finish old s = State.settle old s := by
  simp [State.finish, h, State.replay]

/-! ### The save area -/

theorem State.aoSave_eq (s : State) :
    ∃ a b z, s.aoSave = { s with clk := { s.clk with copyA := a, copyB := b, savedAt := z } } := by
  have key : ∀ (c : AoCopy) (x : Bool), ∃ a b z,
      (if x then { s with clk := { s.clk with copyB := some c, savedAt := some s.clk.frc } }
        else { s with clk := { s.clk with copyA := some c, savedAt := some s.clk.frc } } : State)
        = { s with clk := { s.clk with copyA := a, copyB := b, savedAt := z } } := by
    intro c x
    cases x
    · exact ⟨some c, s.clk.copyB, _, rfl⟩
    · exact ⟨s.clk.copyA, some c, _, rfl⟩
  exact key _ _

theorem State.saveIfChanged_eq (old s : State) :
    ∃ a b z, State.saveIfChanged old s = { s with clk := { s.clk with copyA := a, copyB := b, savedAt := z } } := by
  unfold State.saveIfChanged
  split
  · exact ⟨s.clk.copyA, s.clk.copyB, s.clk.savedAt, rfl⟩
  · exact s.aoSave_eq

/-! ### The balance loop -/

/-- What a step of the balance loop's control may touch: its record, the outputs, the interrupt controller with its lost-event bits,
MV0's list. -/
def LoopTouch (s u : State) : Prop :=
  ∃ r i w b0 b1 l, u = { s with regs := r, irq := i, weir := w, beo0 := b0, beo1 := b1, loop := l } ∧
    ∀ q : Reg, q.ok → (∀ t w, q ≠ .irqLost t w) → cellGet r q.addr q.reset = s.reg q

theorem LoopTouch.refl (s : State) : LoopTouch s s := ⟨s.regs, s.irq, s.weir, s.beo0, s.beo1, s.loop, rfl, fun _ _ _ => rfl⟩

theorem LoopTouch.trans {s u v : State} (h1 : LoopTouch s u) (h2 : LoopTouch u v) : LoopTouch s v := by
  obtain ⟨r, i, w, a, b, l, rfl, hr⟩ := h1
  obtain ⟨r', i', w', a', b', l', rfl, hr'⟩ := h2
  refine ⟨r', i', w', a', b', l', rfl, fun q hq hl => ?_⟩
  rw [hr' q hq hl]
  exact hr q hq hl

theorem State.setBeo_touch (s : State) (k : Nat) (x : Beo) (l : Loop) : LoopTouch s { s.setBeo k x with loop := l } := by
  unfold State.setBeo
  split
  · exact ⟨s.regs, s.irq, s.weir, _, s.beo1, l, rfl, fun _ _ _ => rfl⟩
  · exact ⟨s.regs, s.irq, s.weir, s.beo0, _, l, rfl, fun _ _ _ => rfl⟩

theorem State.irqFire_touch (s : State) (n : Nat) (hn : n < 128) : LoopTouch s (s.irqFire n) := by
  obtain ⟨r, i, h⟩ := s.irqFire_eq n
  refine ⟨r, i, s.weir, s.beo0, s.beo1, s.loop, h, fun q hq hl => ?_⟩
  have := s.irqFire_reg n hn q hq hl
  rw [h] at this
  exact this

theorem State.event_touch (s : State) (c : Nat) (tm : Stamp) (qs : List Nat) : LoopTouch s (s.event c tm qs) :=
  ⟨s.regs, s.irq, _, s.beo0, s.beo1, s.loop, rfl, fun _ _ _ => rfl⟩

theorem State.loop_touch (s : State) (l : Loop) : LoopTouch s { s with loop := l } :=
  ⟨s.regs, s.irq, s.weir, s.beo0, s.beo1, l, rfl, fun _ _ _ => rfl⟩

theorem State.loopHold_touch (s : State) : LoopTouch s s.loopHold := by
  unfold State.loopHold
  split
  · exact .refl s
  · exact ((s.setBeo_touch _ _ _).trans (State.irqFire_touch _ 20 (by omega))).trans (State.event_touch _ _ _ _)

theorem State.loopFollow_touch (old s : State) : LoopTouch s (State.loopFollow old s) := by
  unfold State.loopFollow
  split
  · exact .refl s
  · dsimp only
    split
    · split
      · exact (s.event_touch _ _ _).trans (State.setBeo_touch _ _ _ _)
      · exact s.setBeo_touch _ _ _
    · split
      · exact s.loopHold_touch
      · split
        · split
          · exact (s.loop_touch _).trans (State.loopHold_touch _)
          · exact s.loop_touch _
        · exact .refl s

/-! ### Gate levels -/

/-- What the gate levels may touch: the edges that units have taken from their gates, and the free values drawn for them. -/
def GateTouch (s u : State) : Prop :=
  ∃ m k, u = { s with melds := m, freeCtr := k } ∧ ∀ n, ∃ g, cellGet m n {} = { s.meld n with gateIn := g }

theorem GateTouch.refl (s : State) : GateTouch s s := ⟨s.melds, s.freeCtr, rfl, fun n => ⟨(s.meld n).gateIn, rfl⟩⟩

theorem GateTouch.trans {s u v : State} (h1 : GateTouch s u) (h2 : GateTouch u v) : GateTouch s v := by
  obtain ⟨m, k, rfl, hm⟩ := h1
  obtain ⟨m', k', rfl, hm'⟩ := h2
  refine ⟨m', k', rfl, fun n => ?_⟩
  obtain ⟨g, hg⟩ := hm n
  obtain ⟨g', hg'⟩ := hm' n
  refine ⟨g', ?_⟩
  rw [hg']
  change ({ cellGet m n {} with gateIn := g' } : Meld) = _
  rw [hg]

theorem State.modGate_touch (s : State) (u : Nat) (f : List (Int × Bool) → List (Int × Bool)) :
    GateTouch s (s.modMeld u fun m => { m with gateIn := f m.gateIn }) := by
  refine ⟨_, s.freeCtr, rfl, fun n => ?_⟩
  by_cases h : n = u
  · subst h
    exact ⟨_, cellGet_cellSet_self _ _ _ _⟩
  · exact ⟨_, cellGet_cellSet_ne _ _ _ h⟩

theorem State.draw_touch (s : State) (w : Nat) : GateTouch s (s.draw w).1 :=
  ⟨s.melds, _, rfl, fun n => ⟨(s.meld n).gateIn, rfl⟩⟩

theorem GateTouch.foldl {α : Type} (f : State → α → State) (hf : ∀ s x, GateTouch s (f s x)) (l : List α) (s : State) :
    GateTouch s (l.foldl f s) := by
  induction l generalizing s with
  | nil => exact .refl s
  | cons x xs ih => exact (hf s x).trans (ih (f s x))

theorem State.gateFollow_touch (old s : State) : GateTouch s (State.gateFollow old s) := by
  unfold State.gateFollow
  refine GateTouch.foldl _ (fun s u => ?_) _ s
  dsimp only
  split
  · exact .refl s
  · split
    · exact s.modGate_touch u fun g => g ++ [_]
    · split
      · exact s.modGate_touch u fun g => g.dropLast
      · exact (s.draw_touch 2).trans ((s.draw 2).1.modGate_touch u fun g => g ++ [_])

/-! ### All of it -/

theorem State.judge_eq (old s : State) : ∃ p e, State.judge old s = { s with route := { s.route with pend := p, edge := e } } :=
  ⟨_, _, rfl⟩

/-- What `settle` may touch. -/
theorem State.settle_eq (old s : State) :
    ∃ a b z r i w b0 b1 l p e m k,
      State.settle old s =
        { s with clk := { s.clk with copyA := a, copyB := b, savedAt := z }, regs := r, irq := i, weir := w, beo0 := b0, beo1 := b1
                 loop := l, route := { s.route with pend := p, edge := e }, melds := m, freeCtr := k } ∧
      (∀ q : Reg, q.ok → (∀ t w, q ≠ .irqLost t w) → cellGet r q.addr q.reset = s.reg q) ∧
      ∀ n, ∃ g, cellGet m n {} = { s.meld n with gateIn := g } := by
  unfold State.settle
  obtain ⟨a, b, z, h1⟩ := State.saveIfChanged_eq old s
  rw [h1]
  obtain ⟨r, i, w, b0, b1, l, h2, hr⟩ :=
    State.loopFollow_touch old { s with clk := { s.clk with copyA := a, copyB := b, savedAt := z } }
  rw [h2]
  obtain ⟨p, e, h5⟩ := State.judge_eq old
    { s with clk := { s.clk with copyA := a, copyB := b, savedAt := z }, regs := r, irq := i, weir := w, beo0 := b0, beo1 := b1
             loop := l }
  rw [h5]
  obtain ⟨m, k, h3, hm⟩ := State.gateFollow_touch old
    { s with clk := { s.clk with copyA := a, copyB := b, savedAt := z }, regs := r, irq := i, weir := w, beo0 := b0, beo1 := b1
             loop := l, route := { s.route with pend := p, edge := e } }
  rw [h3]
  obtain ⟨j, h4⟩ := State.irqSettle_eq
    { s with clk := { s.clk with copyA := a, copyB := b, savedAt := z }, regs := r, irq := i, weir := w, beo0 := b0, beo1 := b1
             loop := l, route := { s.route with pend := p, edge := e }, melds := m, freeCtr := k }
  rw [h4]
  exact ⟨a, b, z, r, j, w, b0, b1, l, p, e, m, k, rfl, hr, hm⟩

/-- A register that exists keeps its word; the lost-event bits of the interrupt controller may be set. -/
theorem State.settle_reg (old s : State) (q : Reg) (hq : q.ok) (hl : ∀ t w, q ≠ .irqLost t w) :
    (State.settle old s).reg q = s.reg q := by
  obtain ⟨a, b, z, r, i, w, b0, b1, l, p, e, m, k, h, hr, _⟩ := State.settle_eq old s
  rw [h]
  exact hr q hq hl

/-- Of a Meld unit's record only the edges of its gate move. -/
theorem State.settle_meld (old s : State) (n : Nat) : ∃ g, (State.settle old s).meld n = { s.meld n with gateIn := g } := by
  obtain ⟨a, b, z, r, i, w, b0, b1, l, p, e, m, k, h, _, hm⟩ := State.settle_eq old s
  rw [h]
  exact hm n

/-- Of the event fabric only the judgement of waiting events moves, with what it asks at an MCLK edge. -/
theorem State.settle_route (old s : State) : ∃ p e, (State.settle old s).route = { s.route with pend := p, edge := e } := by
  obtain ⟨a, b, z, r, i, w, b0, b1, l, p, e, m, k, h, _⟩ := State.settle_eq old s
  rw [h]
  exact ⟨p, e, rfl⟩

@[simp] theorem State.settle_pending (old s : State) : (State.settle old s).pending = s.pending := by
  obtain ⟨a, b, z, r, i, w, b0, b1, l, p, e, m, k, h, _⟩ := State.settle_eq old s; rw [h]
@[simp] theorem State.settle_sram (old s : State) : (State.settle old s).sram = s.sram := by
  obtain ⟨a, b, z, r, i, w, b0, b1, l, p, e, m, k, h, _⟩ := State.settle_eq old s; rw [h]
@[simp] theorem State.settle_otp (old s : State) : (State.settle old s).otp = s.otp := by
  obtain ⟨a, b, z, r, i, w, b0, b1, l, p, e, m, k, h, _⟩ := State.settle_eq old s; rw [h]
@[simp] theorem State.settle_coef (old s : State) : (State.settle old s).coef = s.coef := by
  obtain ⟨a, b, z, r, i, w, b0, b1, l, p, e, m, k, h, _⟩ := State.settle_eq old s; rw [h]
@[simp] theorem State.settle_proto (old s : State) : (State.settle old s).proto = s.proto := by
  obtain ⟨a, b, z, r, i, w, b0, b1, l, p, e, m, k, h, _⟩ := State.settle_eq old s; rw [h]
@[simp] theorem State.settle_eng (old s : State) : (State.settle old s).eng = s.eng := by
  obtain ⟨a, b, z, r, i, w, b0, b1, l, p, e, m, k, h, _⟩ := State.settle_eq old s; rw [h]
@[simp] theorem State.settle_chains (old s : State) : (State.settle old s).chains = s.chains := by
  obtain ⟨a, b, z, r, i, w, b0, b1, l, p, e, m, k, h, _⟩ := State.settle_eq old s; rw [h]
@[simp] theorem State.settle_past (old s : State) : (State.settle old s).past = s.past := by
  obtain ⟨a, b, z, r, i, w, b0, b1, l, p, e, m, k, h, _⟩ := State.settle_eq old s; rw [h]
@[simp] theorem State.settle_drivers (old s : State) : (State.settle old s).drivers = s.drivers := by
  obtain ⟨a, b, z, r, i, w, b0, b1, l, p, e, m, k, h, _⟩ := State.settle_eq old s; rw [h]
@[simp] theorem State.settle_sources (old s : State) : (State.settle old s).sources = s.sources := by
  obtain ⟨a, b, z, r, i, w, b0, b1, l, p, e, m, k, h, _⟩ := State.settle_eq old s; rw [h]
@[simp] theorem State.settle_mon (old s : State) : (State.settle old s).mon = s.mon := by
  obtain ⟨a, b, z, r, i, w, b0, b1, l, p, e, m, k, h, _⟩ := State.settle_eq old s; rw [h]
@[simp] theorem State.settle_ds (old s : State) : (State.settle old s).ds = s.ds := by
  obtain ⟨a, b, z, r, i, w, b0, b1, l, p, e, m, k, h, _⟩ := State.settle_eq old s; rw [h]
@[simp] theorem State.settle_dsStage (old s : State) : (State.settle old s).dsStage = s.dsStage := by
  obtain ⟨a, b, z, r, i, w, b0, b1, l, p, e, m, k, h, _⟩ := State.settle_eq old s; rw [h]
@[simp] theorem State.settle_dets (old s : State) : (State.settle old s).dets = s.dets := by
  obtain ⟨a, b, z, r, i, w, b0, b1, l, p, e, m, k, h, _⟩ := State.settle_eq old s; rw [h]
@[simp] theorem State.settle_stats (old s : State) : (State.settle old s).stats = s.stats := by
  obtain ⟨a, b, z, r, i, w, b0, b1, l, p, e, m, k, h, _⟩ := State.settle_eq old s; rw [h]
@[simp] theorem State.settle_queues (old s : State) : (State.settle old s).queues = s.queues := by
  obtain ⟨a, b, z, r, i, w, b0, b1, l, p, e, m, k, h, _⟩ := State.settle_eq old s; rw [h]
@[simp] theorem State.settle_syncs (old s : State) : (State.settle old s).syncs = s.syncs := by
  obtain ⟨a, b, z, r, i, w, b0, b1, l, p, e, m, k, h, _⟩ := State.settle_eq old s; rw [h]
@[simp] theorem State.settle_syncFall (old s : State) : (State.settle old s).syncFall = s.syncFall := by
  obtain ⟨a, b, z, r, i, w, b0, b1, l, p, e, m, k, h, _⟩ := State.settle_eq old s; rw [h]
@[simp] theorem State.settle_syncLast (old s : State) : (State.settle old s).syncLast = s.syncLast := by
  obtain ⟨a, b, z, r, i, w, b0, b1, l, p, e, m, k, h, _⟩ := State.settle_eq old s; rw [h]
@[simp] theorem State.settle_syncPin (old s : State) : (State.settle old s).syncPin = s.syncPin := by
  obtain ⟨a, b, z, r, i, w, b0, b1, l, p, e, m, k, h, _⟩ := State.settle_eq old s; rw [h]
@[simp] theorem State.settle_tim (old s : State) : (State.settle old s).tim = s.tim := by
  obtain ⟨a, b, z, r, i, w, b0, b1, l, p, e, m, k, h, _⟩ := State.settle_eq old s; rw [h]
@[simp] theorem State.settle_caps (old s : State) : (State.settle old s).caps = s.caps := by
  obtain ⟨a, b, z, r, i, w, b0, b1, l, p, e, m, k, h, _⟩ := State.settle_eq old s; rw [h]
@[simp] theorem State.settle_hostIf (old s : State) : (State.settle old s).hostIf = s.hostIf := by
  obtain ⟨a, b, z, r, i, w, b0, b1, l, p, e, m, k, h, _⟩ := State.settle_eq old s; rw [h]
@[simp] theorem State.settle_polls (old s : State) : (State.settle old s).polls = s.polls := by
  obtain ⟨a, b, z, r, i, w, b0, b1, l, p, e, m, k, h, _⟩ := State.settle_eq old s; rw [h]
@[simp] theorem State.settle_sbusTicks (old s : State) : (State.settle old s).sbusTicks = s.sbusTicks := by
  obtain ⟨a, b, z, r, i, w, b0, b1, l, p, e, m, k, h, _⟩ := State.settle_eq old s; rw [h]
@[simp] theorem State.settle_link (old s : State) : (State.settle old s).link = s.link := by
  obtain ⟨a, b, z, r, i, w, b0, b1, l, p, e, m, k, h, _⟩ := State.settle_eq old s; rw [h]
@[simp] theorem State.settle_servo (old s : State) : (State.settle old s).servo = s.servo := by
  obtain ⟨a, b, z, r, i, w, b0, b1, l, p, e, m, k, h, _⟩ := State.settle_eq old s; rw [h]
@[simp] theorem State.settle_pwr (old s : State) : (State.settle old s).pwr = s.pwr := by
  obtain ⟨a, b, z, r, i, w, b0, b1, l, p, e, m, k, h, _⟩ := State.settle_eq old s; rw [h]
@[simp] theorem State.settle_ebb (old s : State) : (State.settle old s).ebb = s.ebb := by
  obtain ⟨a, b, z, r, i, w, b0, b1, l, p, e, m, k, h, _⟩ := State.settle_eq old s; rw [h]
@[simp] theorem State.settle_sl (old s : State) : (State.settle old s).sl = s.sl := by
  obtain ⟨a, b, z, r, i, w, b0, b1, l, p, e, m, k, h, _⟩ := State.settle_eq old s; rw [h]

end Sys2Proof.Machine
end

