-- ==== Sys2Proof/Laws/Submit.lean ====
section
/-! SUPPORT. A packet that passes steps 1 to 7 of R300: the command runs on the state `ready`, and its answer joins the reply queue. -/

namespace Sys2Proof.Machine

/-! ### The state on which a command runs -/

/-- A change of a port's transfers. -/
theorem State.modBus_eq (s : State) (p : Port) (g : Bus → Bus) :
    ∃ a b, s.modBus p g = { s with hostIf := { s.hostIf with busA := a, busB := b } } := by
  cases p
  · exact ⟨_, s.hostIf.busB, rfl⟩
  · exact ⟨s.hostIf.busA, _, rfl⟩

theorem State.lead_eq (s : State) (p : Port) (l : Lead) :
    ∃ a b, s.lead p l = { s with hostIf := { s.hostIf with busA := a, busB := b } } := by
  unfold State.lead
  exact s.modBus_eq p _

/-- The transfers of a port touch nothing but its record of them (R319 to R321). -/
theorem State.transfers_eq (s : State) (p : Port) (ls : List Lead) :
    ∃ a b, s.transfers p ls = { s with hostIf := { s.hostIf with busA := a, busB := b } } := by
  unfold State.transfers
  induction ls generalizing s with
  | nil => exact ⟨s.hostIf.busA, s.hostIf.busB, rfl⟩
  | cons l ls ih =>
    obtain ⟨a, b, h⟩ := s.lead_eq p l
    rw [List.foldl_cons, h]
    obtain ⟨a', b', h'⟩ := ih { s with hostIf := { s.hostIf with busA := a, busB := b } }
    exact ⟨a', b', h'⟩

/-- The transfers at the ports, in any order, touch nothing but their records of them. -/
theorem State.peers_eq (s : State) (xs : List (Port × Lead)) :
    ∃ a b, xs.foldl (fun s x => s.lead x.1 x.2) s = { s with hostIf := { s.hostIf with busA := a, busB := b } } := by
  induction xs generalizing s with
  | nil => exact ⟨s.hostIf.busA, s.hostIf.busB, rfl⟩
  | cons x xs ih =>
    obtain ⟨a, b, h⟩ := s.lead_eq x.1 x.2
    rw [List.foldl_cons, h]
    obtain ⟨a', b', h'⟩ := ih { s with hostIf := { s.hostIf with busA := a, busB := b } }
    exact ⟨a', b', h'⟩

theorem State.heard_eq (s : State) (p : Port) (t : Nat) : ∃ r, s.heard p t = { s with hostIf := { s.hostIf with rxAt := r } } := by
  unfold State.heard
  split
  · exact ⟨_, rfl⟩
  · exact ⟨s.hostIf.rxAt, rfl⟩

/-- The transfers that bring a packet touch the records of the transfers and when HB_RX was last heard. -/
theorem State.portSent_eq (s : State) (h : Hdr) (c : HostCmd) :
    ∃ a b r, s.portSent h c = { s with hostIf := { s.hostIf with busA := a, busB := b, rxAt := r } } := by
  unfold State.portSent
  obtain ⟨a0, b0, h0⟩ := s.peers_eq h.peer
  rw [h0]
  dsimp only
  split
  · rename_i p _
    obtain ⟨a, b, e⟩ := ({ s with hostIf := { s.hostIf with busA := a0, busB := b0 } } : State).transfers_eq p h.leads
    rw [e]
    unfold State.taken
    obtain ⟨a', b', e'⟩ := ({ s with hostIf := { s.hostIf with busA := a, busB := b } } : State).modBus_eq p
      (fun x => { x with rx := x.rx - (packetBytes h c).length })
    have e'' : State.modBus { s with hostIf := { s.hostIf with busA := a, busB := b } } p
        (fun x => { x with rx := x.rx - (packetBytes h c).length }) = { s with hostIf := { s.hostIf with busA := a', busB := b' } } := e'
    obtain ⟨r, e3⟩ := ({ s with hostIf := { s.hostIf with busA := a', busB := b' } } : State).heard_eq p h.rx
    refine ⟨a', b', r, ?_⟩
    rw [← e3]
    exact congrArg (fun t : State => t.heard p h.rx) e''
  · exact ⟨a0, b0, s.hostIf.rxAt, rfl⟩

theorem State.renew_eq (s : State) (h : Hdr) : ∃ d, s.renew h = { s with proto := { s.proto with deadline := d } } := by
  unfold State.renew
  split
  · exact ⟨_, rfl⟩
  · exact ⟨s.proto.deadline, rfl⟩

theorem State.takeTag_eq (s : State) (h : Hdr) : ∃ ts, s.takeTag h = { s with proto := { s.proto with tags := ts } } := by
  unfold State.takeTag
  split
  · split
    · exact ⟨_, rfl⟩
    · exact ⟨s.proto.tags, rfl⟩
  · exact ⟨s.proto.tags, rfl⟩

/-- `ready` touches the transfers of the ports, the deadline and the tags in flight. -/
theorem State.ready_parts (s : State) (h : Hdr) (c : HostCmd) :
    ∃ a b r d ts, s.ready h c =
      { s with hostIf := { s.hostIf with busA := a, busB := b, rxAt := r }, proto := { s.proto with deadline := d, tags := ts } } := by
  obtain ⟨a, b, r, h1⟩ := s.portSent_eq h c
  unfold State.ready
  rw [h1]
  obtain ⟨d, hd⟩ := ({ s with hostIf := { s.hostIf with busA := a, busB := b, rxAt := r } } : State).renew_eq h
  rw [hd]
  obtain ⟨ts, ht⟩ := ({ s with hostIf := { s.hostIf with busA := a, busB := b, rxAt := r }, proto := { s.proto with deadline := d } } : State).takeTag_eq h
  rw [ht]
  exact ⟨a, b, r, d, ts, rfl⟩

theorem State.ready_eq (s : State) (h : Hdr) (c : HostCmd) :
    ∃ x d ts, s.ready h c = { s with hostIf := x, proto := { s.proto with deadline := d, tags := ts } } := by
  obtain ⟨a, b, r, d, ts, e⟩ := s.ready_parts h c
  exact ⟨_, d, ts, e⟩

@[simp] theorem State.ready_pending (s : State) (h : Hdr) (c : HostCmd) : (s.ready h c).pending = s.pending := by
  obtain ⟨x, d, ts, e⟩ := s.ready_eq h c; rw [e]
@[simp] theorem State.ready_regs (s : State) (h : Hdr) (c : HostCmd) : (s.ready h c).regs = s.regs := by
  obtain ⟨x, d, ts, e⟩ := s.ready_eq h c; rw [e]
@[simp] theorem State.ready_sram (s : State) (h : Hdr) (c : HostCmd) : (s.ready h c).sram = s.sram := by
  obtain ⟨x, d, ts, e⟩ := s.ready_eq h c; rw [e]
@[simp] theorem State.ready_otp (s : State) (h : Hdr) (c : HostCmd) : (s.ready h c).otp = s.otp := by
  obtain ⟨x, d, ts, e⟩ := s.ready_eq h c; rw [e]
@[simp] theorem State.ready_coef (s : State) (h : Hdr) (c : HostCmd) : (s.ready h c).coef = s.coef := by
  obtain ⟨x, d, ts, e⟩ := s.ready_eq h c; rw [e]
@[simp] theorem State.ready_clk (s : State) (h : Hdr) (c : HostCmd) : (s.ready h c).clk = s.clk := by
  obtain ⟨x, d, ts, e⟩ := s.ready_eq h c; rw [e]
@[simp] theorem State.ready_eng (s : State) (h : Hdr) (c : HostCmd) : (s.ready h c).eng = s.eng := by
  obtain ⟨x, d, ts, e⟩ := s.ready_eq h c; rw [e]
@[simp] theorem State.ready_chains (s : State) (h : Hdr) (c : HostCmd) : (s.ready h c).chains = s.chains := by
  obtain ⟨x, d, ts, e⟩ := s.ready_eq h c; rw [e]
@[simp] theorem State.ready_past (s : State) (h : Hdr) (c : HostCmd) : (s.ready h c).past = s.past := by
  obtain ⟨x, d, ts, e⟩ := s.ready_eq h c; rw [e]
@[simp] theorem State.ready_drivers (s : State) (h : Hdr) (c : HostCmd) : (s.ready h c).drivers = s.drivers := by
  obtain ⟨x, d, ts, e⟩ := s.ready_eq h c; rw [e]
@[simp] theorem State.ready_sources (s : State) (h : Hdr) (c : HostCmd) : (s.ready h c).sources = s.sources := by
  obtain ⟨x, d, ts, e⟩ := s.ready_eq h c; rw [e]
@[simp] theorem State.ready_mon (s : State) (h : Hdr) (c : HostCmd) : (s.ready h c).mon = s.mon := by
  obtain ⟨x, d, ts, e⟩ := s.ready_eq h c; rw [e]
@[simp] theorem State.ready_ds (s : State) (h : Hdr) (c : HostCmd) : (s.ready h c).ds = s.ds := by
  obtain ⟨x, d, ts, e⟩ := s.ready_eq h c; rw [e]
@[simp] theorem State.ready_dsStage (s : State) (h : Hdr) (c : HostCmd) : (s.ready h c).dsStage = s.dsStage := by
  obtain ⟨x, d, ts, e⟩ := s.ready_eq h c; rw [e]
@[simp] theorem State.ready_dets (s : State) (h : Hdr) (c : HostCmd) : (s.ready h c).dets = s.dets := by
  obtain ⟨x, d, ts, e⟩ := s.ready_eq h c; rw [e]
@[simp] theorem State.ready_stats (s : State) (h : Hdr) (c : HostCmd) : (s.ready h c).stats = s.stats := by
  obtain ⟨x, d, ts, e⟩ := s.ready_eq h c; rw [e]
@[simp] theorem State.ready_melds (s : State) (h : Hdr) (c : HostCmd) : (s.ready h c).melds = s.melds := by
  obtain ⟨x, d, ts, e⟩ := s.ready_eq h c; rw [e]
@[simp] theorem State.ready_route (s : State) (h : Hdr) (c : HostCmd) : (s.ready h c).route = s.route := by
  obtain ⟨x, d, ts, e⟩ := s.ready_eq h c; rw [e]
@[simp] theorem State.ready_irq (s : State) (h : Hdr) (c : HostCmd) : (s.ready h c).irq = s.irq := by
  obtain ⟨x, d, ts, e⟩ := s.ready_eq h c; rw [e]
@[simp] theorem State.ready_queues (s : State) (h : Hdr) (c : HostCmd) : (s.ready h c).queues = s.queues := by
  obtain ⟨x, d, ts, e⟩ := s.ready_eq h c; rw [e]
@[simp] theorem State.ready_weir (s : State) (h : Hdr) (c : HostCmd) : (s.ready h c).weir = s.weir := by
  obtain ⟨x, d, ts, e⟩ := s.ready_eq h c; rw [e]
@[simp] theorem State.ready_syncs (s : State) (h : Hdr) (c : HostCmd) : (s.ready h c).syncs = s.syncs := by
  obtain ⟨x, d, ts, e⟩ := s.ready_eq h c; rw [e]
@[simp] theorem State.ready_syncFall (s : State) (h : Hdr) (c : HostCmd) : (s.ready h c).syncFall = s.syncFall := by
  obtain ⟨x, d, ts, e⟩ := s.ready_eq h c; rw [e]
@[simp] theorem State.ready_syncLast (s : State) (h : Hdr) (c : HostCmd) : (s.ready h c).syncLast = s.syncLast := by
  obtain ⟨x, d, ts, e⟩ := s.ready_eq h c; rw [e]
@[simp] theorem State.ready_syncPin (s : State) (h : Hdr) (c : HostCmd) : (s.ready h c).syncPin = s.syncPin := by
  obtain ⟨x, d, ts, e⟩ := s.ready_eq h c; rw [e]
@[simp] theorem State.ready_tim (s : State) (h : Hdr) (c : HostCmd) : (s.ready h c).tim = s.tim := by
  obtain ⟨x, d, ts, e⟩ := s.ready_eq h c; rw [e]
@[simp] theorem State.ready_caps (s : State) (h : Hdr) (c : HostCmd) : (s.ready h c).caps = s.caps := by
  obtain ⟨x, d, ts, e⟩ := s.ready_eq h c; rw [e]
@[simp] theorem State.ready_polls (s : State) (h : Hdr) (c : HostCmd) : (s.ready h c).polls = s.polls := by
  obtain ⟨x, d, ts, e⟩ := s.ready_eq h c; rw [e]
@[simp] theorem State.ready_sbusTicks (s : State) (h : Hdr) (c : HostCmd) : (s.ready h c).sbusTicks = s.sbusTicks := by
  obtain ⟨x, d, ts, e⟩ := s.ready_eq h c; rw [e]
@[simp] theorem State.ready_link (s : State) (h : Hdr) (c : HostCmd) : (s.ready h c).link = s.link := by
  obtain ⟨x, d, ts, e⟩ := s.ready_eq h c; rw [e]
@[simp] theorem State.ready_servo (s : State) (h : Hdr) (c : HostCmd) : (s.ready h c).servo = s.servo := by
  obtain ⟨x, d, ts, e⟩ := s.ready_eq h c; rw [e]
@[simp] theorem State.ready_pwr (s : State) (h : Hdr) (c : HostCmd) : (s.ready h c).pwr = s.pwr := by
  obtain ⟨x, d, ts, e⟩ := s.ready_eq h c; rw [e]
@[simp] theorem State.ready_ebb (s : State) (h : Hdr) (c : HostCmd) : (s.ready h c).ebb = s.ebb := by
  obtain ⟨x, d, ts, e⟩ := s.ready_eq h c; rw [e]
@[simp] theorem State.ready_sl (s : State) (h : Hdr) (c : HostCmd) : (s.ready h c).sl = s.sl := by
  obtain ⟨x, d, ts, e⟩ := s.ready_eq h c; rw [e]
@[simp] theorem State.ready_beo0 (s : State) (h : Hdr) (c : HostCmd) : (s.ready h c).beo0 = s.beo0 := by
  obtain ⟨x, d, ts, e⟩ := s.ready_eq h c; rw [e]
@[simp] theorem State.ready_beo1 (s : State) (h : Hdr) (c : HostCmd) : (s.ready h c).beo1 = s.beo1 := by
  obtain ⟨x, d, ts, e⟩ := s.ready_eq h c; rw [e]
@[simp] theorem State.ready_loop (s : State) (h : Hdr) (c : HostCmd) : (s.ready h c).loop = s.loop := by
  obtain ⟨x, d, ts, e⟩ := s.ready_eq h c; rw [e]
@[simp] theorem State.ready_freeCtr (s : State) (h : Hdr) (c : HostCmd) : (s.ready h c).freeCtr = s.freeCtr := by
  obtain ⟨x, d, ts, e⟩ := s.ready_eq h c; rw [e]
@[simp] theorem State.ready_proto_dev (s : State) (h : Hdr) (c : HostCmd) : (s.ready h c).proto.dev = s.proto.dev := by
  obtain ⟨x, d, ts, e⟩ := s.ready_eq h c; rw [e]
@[simp] theorem State.ready_proto_faultCause (s : State) (h : Hdr) (c : HostCmd) : (s.ready h c).proto.faultCause = s.proto.faultCause := by
  obtain ⟨x, d, ts, e⟩ := s.ready_eq h c; rw [e]
@[simp] theorem State.ready_proto_factory (s : State) (h : Hdr) (c : HostCmd) : (s.ready h c).proto.factory = s.proto.factory := by
  obtain ⟨x, d, ts, e⟩ := s.ready_eq h c; rw [e]
@[simp] theorem State.ready_proto_replies (s : State) (h : Hdr) (c : HostCmd) : (s.ready h c).proto.replies = s.proto.replies := by
  obtain ⟨x, d, ts, e⟩ := s.ready_eq h c; rw [e]
@[simp] theorem State.ready_proto_owner (s : State) (h : Hdr) (c : HostCmd) : (s.ready h c).proto.owner = s.proto.owner := by
  obtain ⟨x, d, ts, e⟩ := s.ready_eq h c; rw [e]
@[simp] theorem State.ready_proto_lease (s : State) (h : Hdr) (c : HostCmd) : (s.ready h c).proto.lease = s.proto.lease := by
  obtain ⟨x, d, ts, e⟩ := s.ready_eq h c; rw [e]
@[simp] theorem State.ready_proto_gen (s : State) (h : Hdr) (c : HostCmd) : (s.ready h c).proto.gen = s.proto.gen := by
  obtain ⟨x, d, ts, e⟩ := s.ready_eq h c; rw [e]
@[simp] theorem State.ready_proto_expA (s : State) (h : Hdr) (c : HostCmd) : (s.ready h c).proto.expA = s.proto.expA := by
  obtain ⟨x, d, ts, e⟩ := s.ready_eq h c; rw [e]
@[simp] theorem State.ready_proto_expB (s : State) (h : Hdr) (c : HostCmd) : (s.ready h c).proto.expB = s.proto.expB := by
  obtain ⟨x, d, ts, e⟩ := s.ready_eq h c; rw [e]
@[simp] theorem State.ready_proto_longs (s : State) (h : Hdr) (c : HostCmd) : (s.ready h c).proto.longs = s.proto.longs := by
  obtain ⟨x, d, ts, e⟩ := s.ready_eq h c; rw [e]
@[simp] theorem State.ready_proto_held (s : State) (h : Hdr) (c : HostCmd) : (s.ready h c).proto.held = s.proto.held := by
  obtain ⟨x, d, ts, e⟩ := s.ready_eq h c; rw [e]
@[simp] theorem State.ready_proto_staging (s : State) (h : Hdr) (c : HostCmd) : (s.ready h c).proto.staging = s.proto.staging := by
  obtain ⟨x, d, ts, e⟩ := s.ready_eq h c; rw [e]
@[simp] theorem State.ready_proto_shadow (s : State) (h : Hdr) (c : HostCmd) : (s.ready h c).proto.shadow = s.proto.shadow := by
  obtain ⟨x, d, ts, e⟩ := s.ready_eq h c; rw [e]
@[simp] theorem State.ready_proto_lapsed (s : State) (h : Hdr) (c : HostCmd) : (s.ready h c).proto.lapsed = s.proto.lapsed := by
  obtain ⟨x, d, ts, e⟩ := s.ready_eq h c; rw [e]
@[simp] theorem State.ready_proto_late (s : State) (h : Hdr) (c : HostCmd) : (s.ready h c).proto.late = s.proto.late := by
  obtain ⟨x, d, ts, e⟩ := s.ready_eq h c; rw [e]
@[simp] theorem State.ready_reg (s : State) (h : Hdr) (c : HostCmd) (q : Reg) : (s.ready h c).reg q = s.reg q := by
  obtain ⟨x, d, ts, e⟩ := s.ready_eq h c; rw [e]; rfl
@[simp] theorem State.ready_fld (s : State) (h : Hdr) (c : HostCmd) (q : Reg) (i j : Nat) : (s.ready h c).fld q i j = s.fld q i j := by
  simp [State.fld]
@[simp] theorem State.ready_bit (s : State) (h : Hdr) (c : HostCmd) (q : Reg) (i : Nat) : (s.ready h c).bit q i = s.bit q i := by
  simp [State.bit]
@[simp] theorem State.ready_ch_at (s : State) (h : Hdr) (c : HostCmd) (n : Nat) : (s.ready h c).ch n = s.ch n := by
  obtain ⟨x, d, ts, e⟩ := s.ready_eq h c; rw [e]; rfl
@[simp] theorem State.ready_drv_at (s : State) (h : Hdr) (c : HostCmd) (n : Nat) : (s.ready h c).drv n = s.drv n := by
  obtain ⟨x, d, ts, e⟩ := s.ready_eq h c; rw [e]; rfl
@[simp] theorem State.ready_isrc_at (s : State) (h : Hdr) (c : HostCmd) (n : Nat) : (s.ready h c).isrc n = s.isrc n := by
  obtain ⟨x, d, ts, e⟩ := s.ready_eq h c; rw [e]; rfl
@[simp] theorem State.ready_dsr_at (s : State) (h : Hdr) (c : HostCmd) (n : Nat) : (s.ready h c).dsr n = s.dsr n := by
  obtain ⟨x, d, ts, e⟩ := s.ready_eq h c; rw [e]; rfl
@[simp] theorem State.ready_det_at (s : State) (h : Hdr) (c : HostCmd) (n : Nat) : (s.ready h c).det n = s.det n := by
  obtain ⟨x, d, ts, e⟩ := s.ready_eq h c; rw [e]; rfl
@[simp] theorem State.ready_stat_at (s : State) (h : Hdr) (c : HostCmd) (n : Nat) : (s.ready h c).stat n = s.stat n := by
  obtain ⟨x, d, ts, e⟩ := s.ready_eq h c; rw [e]; rfl
@[simp] theorem State.ready_meld_at (s : State) (h : Hdr) (c : HostCmd) (n : Nat) : (s.ready h c).meld n = s.meld n := by
  obtain ⟨x, d, ts, e⟩ := s.ready_eq h c; rw [e]; rfl
@[simp] theorem State.ready_queue_at (s : State) (h : Hdr) (c : HostCmd) (n : Nat) : (s.ready h c).queue n = s.queue n := by
  obtain ⟨x, d, ts, e⟩ := s.ready_eq h c; rw [e]; rfl
@[simp] theorem State.ready_poll_at (s : State) (h : Hdr) (c : HostCmd) (n : Nat) : (s.ready h c).poll n = s.poll n := by
  obtain ⟨x, d, ts, e⟩ := s.ready_eq h c; rw [e]; rfl

/-! ### Running -/

/-- In RUN no wake source is latched. -/
theorem State.wakeLatch_run (s : State) (i : Nat) (h : s.pwr.st = .run) : s.wakeLatch i = s := by
  simp [State.wakeLatch, State.wakeable, h, wakeActs]

/-- An admitted packet's command meets steps 8 to 10 on the state `ready`. -/
theorem submit_admitted {h : Hdr} {c : HostCmd} {s : State} (hA : Admitted h c s) (body : State → Res) :
    s.submit h c body =
      match body (s.ready h c) with
      | .ok u d => u.irqSettle.answer h .ok d true
      | .accepted u => u.irqSettle.answer h .accepted [] true
      | .later u => u
      | .okQ u d q => u.irqSettle.answer h .ok d true q
      | .no r => (s.ready h c).irqSettle.answer h r.1 r.2 true
      | .part u r => u.irqSettle.answer h r.1 r.2 true := by
  obtain ⟨⟨p, hp, ho, hw⟩, hr, he, hf, hb, hk, hi, ht, hg, hn, hgate⟩ := hA
  have hq : ∀ (u : State) st d fr q, u.respond h st d fr q = u.irqSettle.answer h st d fr q := by
    intro u st d fr q; simp [State.respond, quiet, hp]
  obtain ⟨a, b, r, hx⟩ := s.portSent_eq h c
  have hlatch : (s.portSent h c).wakeLatch (wakeOf h.src) = s.portSent h c :=
    State.wakeLatch_run _ _ (by rw [hx]; exact hr)
  have harr : ((s.portSent h c).renew h).arrive h = none := by
    obtain ⟨d, hd⟩ := (s.portSent h c).renew_eq h
    have hb' : ((s.portSent h c).renew h).tagBusy h.tag = false := by rw [hd, hx]; exact hg
    have : ¬ 96 ≤ h.tag := by omega
    simp [State.arrive, hk, hi, hp, this, hb']
  have hent : (s.ready h c).pwr.entering = false := by simpa using he
  have h1 : s.submit h c body = (s.ready h c).perform h c body := by
    unfold State.ready at hent ⊢
    unfold State.submit
    simp [hp, ho, hw, hr, hf, hb]
    rw [hp] at hlatch
    simp [hlatch, harr, hent]
  have hperf : (s.ready h c).perform h c body = (s.ready h c).execute h c body := by
    unfold State.perform
    have : (s.ready h c).nodeAddr = s.nodeAddr := by
      obtain ⟨x, d, ts, h⟩ := s.ready_eq h c; rw [h]; rfl
    simp [hp, this, hn]
  rw [h1, hperf]
  unfold State.execute
  rw [hgate]
  cases body (s.ready h c) <;> simp [hq]

/-- The answer to a local packet joins the reply queue; beyond it only the interrupt controller moves. -/
theorem State.answer_eq (s : State) {h : Hdr} {p : Port} (hp : h.src = .port p) {st : Status} (hst : st ≠ .stateConflict)
    (d : List Byte) (fr : Bool) (q : Option (Nat × Nat × W64)) :
    ∃ r i, s.answer h st d fr q =
        { s with regs := r, irq := i
                 proto := { s.proto with replies := s.proto.replies ++
                   [{ src := h.src, tag := h.tag, node := s.nodeAddr.getD 0x40, status := st, data := d, frees := fr, q := q, ready := s.clk.frc }] } } ∧
      ∀ x : Reg, x.ok → (∀ t w, x ≠ .irqLost t w) → cellGet r x.addr x.reset = s.reg x := by
  unfold State.answer
  simp only [hst, if_false]
  unfold State.reply
  simp only [hp]
  generalize ({ src := Src.port p, tag := h.tag, node := s.nodeAddr.getD 64, status := st, data := d, frees := fr, q := q, ready := s.clk.frc } : Reply) = rep
  split
  · obtain ⟨r, i, e⟩ := State.irqFire_eq { s with proto := { s.proto with replies := s.proto.replies ++ [rep] } } (64 + portIx p)
    refine ⟨r, i, e, fun x hx hl => ?_⟩
    have := State.irqFire_reg { s with proto := { s.proto with replies := s.proto.replies ++ [rep] } } (64 + portIx p)
      (by cases p <;> decide) x hx hl
    rw [e] at this
    exact this
  · exact ⟨s.regs, s.irq, rfl, fun _ _ _ => rfl⟩

end Sys2Proof.Machine
end

