-- ==== Sys2Proof/Laws/Writes.lean ====
section
/-! SUPPORT. An accepted register write: the function of the register's chapter runs on the state `ready`, and the answer is OK. -/

namespace Sys2Proof.Machine

/-! ### Addresses of registers -/

/-- Bases and strides of the address map are multiples of 4. -/
theorem aligned_of_all {row : RegRow} {l : List RegRow} (h : row ∈ l)
    (hl : l.all (fun row => decide (row.base % 4 = 0 ∧ row.stride % 4 = 0)) = true) :
    row.base % 4 = 0 ∧ row.stride % 4 = 0 := by
  simpa using List.all_eq_true.mp hl row h

theorem regRowsOf_mem (a : Nat) (row : RegRow) (h : row ∈ regRowsOf a) :
    a < 0x100000 ∧ row.base % 4 = 0 ∧ row.stride % 4 = 0 := by
  unfold regRowsOf at h
  split at h <;> first
    | exact ⟨by omega, aligned_of_all h (by decide)⟩
    | (exfalso; exact List.not_mem_nil h)

/-- A register lies below the SRAM window, at a multiple of 4. -/
theorem decodeAddr_range {a : Nat} {r : Reg} (h : decodeAddr a = some r) : a < 0x100000 ∧ a % 4 = 0 := by
  unfold decodeAddr at h
  obtain ⟨row, hm, hr⟩ := List.exists_of_findSome?_eq_some h
  obtain ⟨hl, hb, hs⟩ := regRowsOf_mem a row hm
  refine ⟨hl, ?_⟩
  unfold rowAt at hr
  split at hr
  · rename_i hc
    have h1 : (a - row.base) % 4 = 0 := by
      have : row.stride ∣ a - row.base := Nat.dvd_of_mod_eq_zero hc.2.1
      exact Nat.mod_eq_zero_of_dvd (Nat.dvd_trans (Nat.dvd_of_mod_eq_zero hs) this)
    omega
  · cases hr

theorem placeOf_reg {r : Reg} (h : r.ok) : placeOf r.addr = some (.reg r) := by
  obtain ⟨h1, h2⟩ := decodeAddr_range h
  have h3 : inSramWindow r.addr = false := by simp [inSramWindow]; omega
  have h4 : ¬ (0x20000000 ≤ r.addr ∧ r.addr < 0x20002000) := by omega
  have h5 : decodeAddr r.addr = some r := h
  simp [placeOf, h2, h3, h4, h5]

/-! ### Accepted writes -/

theorem checkReg_ok {s : State} {src : Src} {r : Reg} {v : W32} (h : s.checkReg src r v = none) : r.ok := by
  unfold State.checkReg at h
  split at h
  · cases h
  · rename_i hc
    by_contra hn
    exact hc (Or.inl hn)

theorem Accepted.ok {h : Hdr} {r : Reg} {v : W32} {s : State} (hA : Accepted h r v s) : r.ok := checkReg_ok hA.2

/-- Checks that meet nothing in the memories leave nothing. -/
theorem State.memErr_none (s : State) : s.memErr {} = s := by
  simp [State.memErr, State.coefFixed, State.sramFixed]

theorem errsOf_none (r : Reg) : errsOf r {} = {} := by cases r <;> rfl

/-- What an accepted write answers, from what its register's function answers. -/
theorem write_accepted {h : Hdr} {r : Reg} {v : W32} {s : State} (hA : Accepted h r v s) :
    writeStep h r v s =
      .next (State.finish s (match (s.ready h (.regWrite r.addr v)).putReg h r v with
        | .ok t => (t.memErr (errsOf r (hdrErr h 0))).irqSettle.answer h .ok [] true
        | .error e => ((s.ready h (.regWrite r.addr v)).memErr (errsOf r (hdrErr h 0))).irqSettle.answer h e.1 e.2 true)) := by
  have hok : decodeAddr r.addr = some r := hA.ok
  have hrow : rowAddr r = r.addr := by simp [rowAddr, hok]
  unfold writeStep hostStep
  rw [hrow, submit_admitted hA.1]
  simp only [hostBody, regWriteBody, State.checkAt, State.putAt, placeOf_reg hA.ok, hA.2]
  cases (s.ready h (.regWrite r.addr v)).putReg h r v <;> rfl

/-- A REG_WRITE of the register's address is the same write. -/
theorem regWrite_accepted {h : Hdr} {r : Reg} {v : W32} {s : State} (hA : Accepted h r v s) :
    hostStep h (.regWrite r.addr v) s = writeStep h r v s := by
  have hok : decodeAddr r.addr = some r := hA.ok
  have hrow : rowAddr r = r.addr := by simp [rowAddr, hok]
  unfold writeStep
  rw [hrow]

/-! ### The answer -/

/-- A source that fires looks at no port and no reply. -/
theorem State.irqFire_touched (w : State) (H : HostIf) (P : Proto) (n : Nat) :
    State.irqFire { w with hostIf := H, proto := P } n = { w.irqFire n with hostIf := H, proto := P } := by
  have key : ∀ x : State, ∀ b1 b2 : Bool, b1 = (x.irq.pend.getLsbD n || x.irq.insv.getLsbD n) → b2 = decide (x.tgt n = 0) →
      x.irqFire n = if b1 then (if b2 then x else x.setBit (.irqLost (x.tgt n - 1) (n / 32)) (n % 32) true)
        else { x with irq := { x.irq with pend := x.irq.pend ||| BitVec.ofNat 128 (2 ^ n) } } := by
    intro x b1 b2 h1 h2
    subst h1 h2
    unfold State.irqFire
    simp
  rw [key { w with hostIf := H, proto := P } _ _ rfl rfl, key w _ _ rfl rfl]
  change (if (w.irq.pend.getLsbD n || w.irq.insv.getLsbD n) = true then (if decide (w.tgt n = 0) = true then _ else _) else _) = _
  generalize (w.irq.pend.getLsbD n || w.irq.insv.getLsbD n) = b1
  generalize decide (w.tgt n = 0) = b2
  cases b1 <;> cases b2 <;> rfl

/-- `s` with what `ready` touches replaced. -/
def State.touch (s : State) (a b : Bus) (r d : Nat) (ts : List (Nat × Src)) : State :=
  { s with hostIf := { s.hostIf with busA := a, busB := b, rxAt := r }, proto := { s.proto with deadline := d, tags := ts } }

/-- The interrupt lines look at nothing that `ready` touches. -/
theorem State.irqSettle_touch (s : State) (a b : Bus) (r d : Nat) (ts : List (Nat × Src)) :
    (s.touch a b r d ts).irqSettle = s.irqSettle.touch a b r d ts := by
  have hi : ∀ (w : State) (p : Port), (w.touch a b r d ts).ibi p = (w.ibi p).touch a b r d ts := by
    intro w p
    unfold State.ibi
    have hc : ((w.touch a b r d ts).portLive p && (w.touch a b r d ts).onI3c p && (w.touch a b r d ts).bit (.irqCtrl (portIx p)) 0) =
        (w.portLive p && w.onI3c p && w.bit (.irqCtrl (portIx p)) 0) := by cases p <;> rfl
    rw [hc]
    split <;> rfl
  unfold State.irqSettle
  dsimp only
  rw [show (s.touch a b r d ts).line 0 = s.line 0 from rfl, show (s.touch a b r d ts).line 1 = s.line 1 from rfl,
    show (s.touch a b r d ts).irq = s.irq from rfl, hi]
  split
  · rw [show ((s.ibi .a).touch a b r d ts).irq = (s.ibi .a).irq from rfl, hi]
    split <;> rfl
  · rw [show (s.touch a b r d ts).irq = s.irq from rfl, hi]
    split <;> rfl

/-- After the answer to a command that left `w`, but for what `ready` touches. -/
theorem answered {h : Hdr} {p : Port} (hp : h.src = .port p) (w : State) (a b : Bus) (rx d : Nat) (ts : List (Nat × Src))
    (data : List Byte) (fr : Bool) (q : Option (Nat × Nat × W64)) :
    let u := (w.touch a b rx d ts).irqSettle.answer h .ok data fr q
    AnsweredFrom w u ∧ u.clk = w.clk ∧
      u.proto.replies = w.proto.replies ++
        [{ src := h.src, tag := h.tag, node := w.nodeAddr.getD 0x40, status := .ok, data := data, frees := fr, q := q, ready := w.clk.frc }] := by
  intro u
  obtain ⟨iq, hv⟩ := w.irqSettle_eq
  have hu : u = (w.irqSettle.touch a b rx d ts).answer h .ok data fr q := by rw [← State.irqSettle_touch]
  generalize hg : w.irqSettle = v at hu
  have hf : ∀ n (rp : List Reply),
      State.irqFire { v.touch a b rx d ts with proto := { (v.touch a b rx d ts).proto with replies := rp } } n =
      { v.irqFire n with hostIf := { (v.irqFire n).hostIf with busA := a, busB := b, rxAt := rx }
                         proto := { (v.irqFire n).proto with deadline := d, tags := ts, replies := rp } } := by
    intro n rp
    rw [State.irqFire_hostIf, State.irqFire_proto]
    exact v.irqFire_touched { v.hostIf with busA := a, busB := b, rxAt := rx } { v.proto with deadline := d, tags := ts, replies := rp } n
  have hvw : v.clk = w.clk ∧ v.proto = w.proto ∧ v.nodeAddr = w.nodeAddr := by rw [← hg, hv]; exact ⟨rfl, rfl, rfl⟩
  obtain ⟨h1, h2, h3⟩ := hvw
  rw [hu, ← h1, ← h2, ← h3]
  unfold State.answer
  simp only [show (Status.ok = Status.stateConflict) = False by simp, if_false]
  unfold State.reply
  simp only [hp]
  generalize hrep : ({ src := Src.port p, tag := h.tag, node := (v.touch a b rx d ts).nodeAddr.getD 64, status := Status.ok, data := data, frees := fr, q := q, ready := (v.touch a b rx d ts).clk.frc } : Reply) = rep
  subst hrep
  split
  · rw [hf]
    refine ⟨⟨v, v.irqFire (64 + portIx p), a, b, rx, d, ts, _, .inr hg.symm, ?_, rfl⟩, ?_, rfl⟩
    · cases p
      · exact .inr (.inl rfl)
      · exact .inr (.inr rfl)
    · exact State.irqFire_clk v _
  · exact ⟨⟨v, v, a, b, rx, d, ts, _, .inr hg.symm, .inl rfl, rfl⟩, rfl, rfl⟩

/-- A command whose body answers OK. -/
theorem answers_of {i : Instr} {h : Hdr} {c : HostCmd} {s w : State} {data : List Byte} (hA : Admitted h c s)
    (hex : exec i s = hostStep h c s)
    (hb : ∀ a b r d ts, s.ready h c = s.touch a b r d ts → hostBody h c (s.ready h c) = .ok (w.touch a b r d ts) data)
    (hn : w.nodeAddr = s.nodeAddr) (hr : w.proto.replies = s.proto.replies) : Answers i h data s w := by
  obtain ⟨⟨p, hp, _⟩, _⟩ := id hA
  obtain ⟨a, b, r, d, ts, e⟩ := s.ready_parts h c
  have hs := submit_admitted hA (hostBody h c)
  rw [hb a b r d ts e] at hs
  obtain ⟨h1, h2, h3⟩ := answered hp w a b r d ts data true none
  refine ⟨(w.touch a b r d ts).irqSettle.answer h .ok data true, ?_, ?_, h1⟩
  · unfold Leads
    rw [hex]
    unfold hostStep
    rw [hs]
  · unfold Replies replyOf
    rw [← hn, ← hr, h3, h2]

/-- An accepted register write, from what its register's function answers; its checks met nothing in the memories. -/
theorem writes_of {i : Instr} {h : Hdr} {r : Reg} {v : W32} {s w : State} (hA : Accepted h r v s)
    (hc : hdrErr h 0 = {})
    (hex : exec i s = writeStep h r v s)
    (hb : ∀ a b x d ts, s.ready h (.regWrite r.addr v) = s.touch a b x d ts → (s.ready h (.regWrite r.addr v)).putReg h r v = .ok (w.touch a b x d ts))
    (hn : w.nodeAddr = s.nodeAddr) (hr : w.proto.replies = s.proto.replies) : Answers i h [] s w := by
  obtain ⟨⟨p, hp, _⟩, _⟩ := id hA.1
  obtain ⟨a, b, x, d, ts, e⟩ := s.ready_parts h (.regWrite r.addr v)
  have hs := write_accepted hA
  rw [hb a b x d ts e, hc, errsOf_none] at hs
  simp only [State.memErr_none] at hs
  obtain ⟨h1, h2, h3⟩ := answered hp w a b x d ts [] true none
  refine ⟨(w.touch a b x d ts).irqSettle.answer h .ok [] true, ?_, ?_, h1⟩
  · unfold Leads
    rw [hex]
    exact hs
  · unfold Replies replyOf
    rw [← hn, ← hr, h3, h2]

/-! ### Refusals -/

/-- Two steps that agree on what an invariant of the accumulator admits fold alike. -/
theorem foldl_agree {α β : Type} (f g : β → α → β) (P : β → Prop) (l : List α) (b : β) (hb : P b)
    (h : ∀ c, P c → ∀ a ∈ l, f c a = g c a ∧ P (g c a)) : l.foldl f b = l.foldl g b := by
  induction l generalizing b with
  | nil => rfl
  | cons a l ih =>
    obtain ⟨h1, h2⟩ := h b hb a (by simp)
    rw [List.foldl_cons, List.foldl_cons, h1]
    exact ih _ h2 fun c hc x hx => h c hc x (by simp [hx])

/-- What a claim would take looks at the controller and its configuration words only. -/
theorem State.peek_agree (s t : State) (k : Nat) (hi : s.irq = t.irq) (hr : ∀ n, n < 128 → s.reg (.irqCfg n) = t.reg (.irqCfg n)) :
    s.peek k = t.peek k := by
  have ht : ∀ n, n < 128 → s.tgt n = t.tgt n := fun n h => by simp [State.tgt, State.fld, hr n h]
  have hp : ∀ n, n < 128 → s.prio n = t.prio n := fun n h => by simp [State.prio, State.fld, hr n h]
  have hl : s.level k = t.level k := by
    unfold State.level
    refine foldl_agree _ _ (fun _ => True) _ _ trivial fun c _ a ha => ?_
    have h := List.mem_range.mp ha
    simp only [hi, ht a h, hp a h, and_self]
  have hd : ∀ n, n < 128 → s.deliverable k n = t.deliverable k n := fun n h => by
    simp only [State.deliverable, hi, ht n h, hl, hp n h]
  unfold State.peek
  have hf : (List.range 128).filter (s.deliverable k) = (List.range 128).filter (t.deliverable k) :=
    List.filter_congr fun n hn => hd n (List.mem_range.mp hn)
  rw [hf]
  refine foldl_agree _ _ (fun b => ∀ n, b = some n → n < 128) _ none (by simp) fun c hc a ha => ?_
  have h := List.mem_range.mp (List.mem_filter.mp ha).1
  cases c with
  | none => exact ⟨rfl, fun n hn => by cases hn; exact h⟩
  | some m =>
    have hm := hc m rfl
    simp only [hp m hm, hp a h]
    refine ⟨trivial, fun n hn => ?_⟩
    split at hn <;> cases hn <;> assumption

/-- The count of rejected commands and the evaluation of the interrupt lines commute. -/
theorem State.irqSettle_reject (s : State) (k : Nat) :
    (s.satAdd .cmdStateRejects 31 0 k).irqSettle = s.irqSettle.satAdd .cmdStateRejects 31 0 k := by
  have hreg : ∀ (w : State) (q : Reg), q.addr ≠ Reg.cmdStateRejects.addr → (w.satAdd .cmdStateRejects 31 0 k).reg q = w.reg q :=
    fun w q h => w.setReg_reg_addr _ q _ h
  have hcfg : ∀ n, n < 128 → (Reg.irqCfg n).addr ≠ Reg.cmdStateRejects.addr := by decide
  have hpk : ∀ (w : State) (t : Nat), (w.satAdd .cmdStateRejects 31 0 k).peek t = w.peek t :=
    fun w t => State.peek_agree _ _ t rfl fun n h => hreg w _ (hcfg n h)
  have hi : ∀ (w : State) (p : Port), (w.satAdd .cmdStateRejects 31 0 k).ibi p = (w.ibi p).satAdd .cmdStateRejects 31 0 k := by
    intro w p
    have hb : ∀ (q : Reg) i, q.addr ≠ Reg.cmdStateRejects.addr → (w.satAdd .cmdStateRejects 31 0 k).bit q i = w.bit q i :=
      fun q i h => by simp [State.bit, hreg w q h]
    unfold State.ibi State.portLive
    rw [hb .supStatus 1 (by decide), hb (.irqCtrl (portIx p)) 0 (by cases p <;> decide), hpk]
    have h1 : (w.satAdd .cmdStateRejects 31 0 k).portsOn = w.portsOn := rfl
    have h2 : (w.satAdd .cmdStateRejects 31 0 k).onI3c p = w.onI3c p := by cases p <;> rfl
    rw [h1, h2]
    split <;> rfl
  unfold State.irqSettle State.line
  dsimp only
  rw [hpk, hpk, show (s.satAdd .cmdStateRejects 31 0 k).irq = s.irq from rfl, hi]
  split
  · rw [show ((s.ibi .a).satAdd .cmdStateRejects 31 0 k).irq = (s.ibi .a).irq from rfl, hi]
    split <;> rfl
  · rw [show (s.satAdd .cmdStateRejects 31 0 k).irq = s.irq from rfl, hi]
    split <;> rfl
end Sys2Proof.Machine
end

