-- ==== Sys2Proof/Tests/Slice0.lean ====
section
/-! SUPPORT. Tests: ill-formed commands are refused, the worked example of an address, and for the statements a state and operands that meet
their hypotheses together. The states are small changes of `dev`, a hub in CONFIG whose port A holds the semaphore. -/

open Sys2Proof Sys2Proof.Machine

namespace Sys2Proof.Tests

/-- R425's worked example: SLU_BANK17 and MELD_RES_LO05. -/
theorem test_addresses : (Reg.sluBank 17).addr = 0x51118 ∧ (Reg.meldResLo 5).addr = 0x7016c := by decide

/-! ### States and hypotheses -/

/-- A hub in CONFIG with its boot done; port A holds the semaphore. -/
def dev : State :=
  { State.reset with
    proto := { dev := .config, owner := some (.port .a), lease := 1000, deadline := 10 ^ 9, gen := 1 } }.setReg .bootStatus 3
/-- What `Admitted` asks of a packet from port A, as a value to evaluate. -/
def admits (h : Hdr) (c : HostCmd) (s : State) : Bool :=
  decide (h.src = .port .a) && s.portOpen .a && (s.portSent h c).writing .a && decide (s.pwr.st = .run) && !s.pwr.entering && !s.proto.factory && decide (s.proto.dev ≠ .boot) &&
  h.known && h.fit && decide (h.tag < 96) && !s.tagBusy h.tag && decide (h.node = 0x40 ∨ s.nodeAddr = some h.node) && ((s.ready h c).gate h c).isNone
theorem admitted_of {h : Hdr} {c : HostCmd} {s : State} (w : admits h c s = true) : Admitted h c s := by
  simp only [admits, Bool.and_eq_true, decide_eq_true_eq, Option.isNone_iff_eq_none, Bool.not_eq_true'] at w
  obtain ⟨⟨⟨⟨⟨⟨⟨⟨⟨⟨⟨⟨a, b⟩, b'⟩, c⟩, d⟩, e⟩, f⟩, g⟩, h⟩, i⟩, j⟩, k⟩, l⟩ := w
  exact ⟨⟨.a, a, b, b'⟩, c, d, e, f, g, h, i, j, k, l⟩
/-- What `Accepted` asks of a packet from port A, as a value to evaluate. -/
def accepts (h : Hdr) (r : Reg) (v : W32) (s : State) : Bool := admits h (.regWrite r.addr v) s && ((s.ready h (.regWrite r.addr v)).checkReg h.src r v).isNone
theorem accepted_of {h : Hdr} {r : Reg} {v : W32} {s : State} (w : accepts h r v s = true) : Accepted h r v s := by
  simp only [accepts, Bool.and_eq_true, Option.isNone_iff_eq_none] at w
  exact ⟨admitted_of w.1, w.2⟩
/-! ### Ill-formed commands, one for each check -/

theorem test_ill_formed_1 : ∀ i ∈ ([
    .ackFrame 0 { type := 4, dest := 256, src := 0, payload := [] }, .ackFrame 0 { type := 4, dest := 0, src := 256, payload := [] },
      .nop { node := 256 }, .nop { rx := 2 ^ 64 }, .nop { src := .link 64 .a }, .nop { tag := 256 }, .devStatus { tag := 256 },
      .swidRead { tag := 256 }, .semTake { tag := 256 } 0, .semTake {} 65536, .semGive { tag := 256 }, .semStatus { tag := 256 },
      .regRead { tag := 256 } 0, .regRead {} (2 ^ 32), .regWrite { tag := 256 } 0 0, .regWrite {} (2 ^ 32) 0,
      .regReadBlock { tag := 256 } 0 0 0, .regReadBlock {} (2 ^ 32) 0 0, .regReadBlock {} 0 65536 0, .regReadBlock {} 0 0 256,
      .regWriteBlock { tag := 256 } 0 0 0 [], .regWriteBlock {} (2 ^ 32) 0 0 [], .regWriteBlock {} 0 0 256 [], .regWriteBlock {} 0 1 0 [],
      .tableLoad { tag := 256 } 0 []] : List Instr), i.wf = false := by decide
theorem test_ill_formed_2 : ∀ i ∈ ([
    .tableLoad {} (2 ^ 32) [], .chanStart { tag := 256 } 0, .chanStart {} (2 ^ 24), .chanStop { tag := 256 } 0, .chanStop {} (2 ^ 24),
      .chanSync { tag := 256 } 0, .chanSync {} 256, .queueRead { tag := 256 } 0 0 0 none, .queueRead {} 256 0 0 none,
      .queueRead {} 0 65536 0 none, .queueRead {} 0 0 1 none, .clockSet { tag := 256 } 0 0 0 0, .clockSet {} 256 0 0 0,
      .clockSet {} 0 256 0 0, .clockSet {} 0 0 256 0, .clockSet {} 0 0 0 256, .refQualified 65536, .waitCmd { tag := 256 },
      .ebbArm { tag := 256 } {}, .ebbArm {} { mask := 2 ^ 24 }, .ebbDisarm { tag := 256 }, .timeRead { tag := 256 },
      .timeSet { tag := 256 } 0 0 false, .timeSet {} (2 ^ 64) 0 false, .timeSet {} 0 65536 false] : List Instr), i.wf = false := by decide
theorem test_ill_formed_3 : ∀ i ∈ ([
    .timeAdjust { tag := 256 } 0 0 0 0, .timeAdjust {} (2 ^ 63) 0 0 0, .timeAdjust {} 0 65536 0 0, .timeAdjust {} 0 0 (2 ^ 31) 0,
      .timeAdjust {} 0 0 0 256, .linkEnum { tag := 256 }, .seal { tag := 256 }, .unseal { tag := 256 }, .patchLoad { tag := 256 } 0 [0],
      .patchLoad {} (2 ^ 32) [0], .patchLoad {} 0 [], .patchActivate { tag := 256 }, .forwardTimeout 96, .clrRej { tag := 256 } 0,
      .clrErr { tag := 256 } 0, .clrLate { tag := 256 } 0, .lfSelWrite { tag := 256 } 0, .clrLost { tag := 256 } 0,
      .regCtrlModeWrite { tag := 256 } 0, .chainOrigin 24, .outputBoundary 24 [], .outputBoundary 0 [2], .engineItem 4 0 .none,
      .modulatorClear 24, .chopReversal 4] : List Instr), i.wf = false := by decide
theorem test_ill_formed_4 : ∀ i ∈ ([
    .rampEnd 4, .hiccupEntry 4 [], .hiccupRestart 4, .faultDetect ([{ kind := .low 4, tM := 0, tF := 0, q := 0 }]),
      .faultDetect ([{ kind := .low 0, tM := 0, tF := 2 ^ 64, q := 0 }]), .faultClear 0 0 (2 ^ 64) false, .tempReading (2 ^ 15),
      .learn { tag := 256 } 0 0, .learn {} 4 0, .learnComplete 4 0 false, .learnComplete 0 4096 false, .clrExc { tag := 256 } 0,
      .clrCm { tag := 256 } 0, .clrTemp { tag := 256 } 0, .clrOvl { tag := 256 } 0, .apCfgWrite { tag := 256 } 0 0, .apCfgWrite {} 48 0,
      .excConfigWrite { tag := 256 } (.ctrl 0) 0, .excConfigWrite {} (.isrc 8) 0, .afeTiaFbWrite { tag := 256 } 0 0, .afeTiaFbWrite {} 4 0,
      .sysTickDivWrite { tag := 256 } 0, .engPrioWrite { tag := 256 } 0, .clrOvr { tag := 256 } 0, .clrDrop { tag := 256 } 0] : List Instr), i.wf = false := by decide
theorem test_ill_formed_5 : ∀ i ∈ ([
    .clrMax { tag := 256 } 0, .coefCommit { tag := 256 } 0, .swapRequest { tag := 256 } 0 0, .swapRequest {} 24 0, .swapEdge 24,
      .syncFire { tag := 256 } 0, .syncFire {} 256, .syncEdge 8 [], .sluEccClr { tag := 256 } 0, .pairLoWrite { tag := 256 } 0 0,
      .pairLoWrite {} (2 ^ 32) 0, .pairHiCommit { tag := 256 } 0 0, .pairHiCommit {} (2 ^ 32) 0, .pairLoRead { tag := 256 } 0,
      .pairLoRead {} (2 ^ 32), .sclSpanCommit { tag := 256 } 0 0, .sclSpanCommit {} 24 0, .sclAztCommit { tag := 256 } 0 0,
      .sclAztCommit {} 24 0, .sclSshWrite { tag := 256 } 0 0, .sclSshWrite {} 24 0, .dsEnable { tag := 256 } 0 0, .dsEnable {} 16 0,
      .dsWtWrite { tag := 256 } 0, .dsWtRead { tag := 256 }] : List Instr), i.wf = false := by decide
theorem test_ill_formed_6 : ∀ i ∈ ([
    .linCfgWrite { tag := 256 } 0 0, .linCfgWrite {} 40 0, .detectorReset { tag := 256 } 0, .detectorLatch 8,
      .statEnaWrite { tag := 256 } 0, .statLatch { tag := 256 } 0, .statLatchEdge 32, .statCntRead { tag := 256 } 0, .statCntRead {} 32,
      .meldEnable { tag := 256 } 0 0, .meldEnable {} 16 0, .meldArm { tag := 256 } 0, .meldArm {} (2 ^ 16), .meldClr { tag := 256 } 0,
      .meldClr {} (2 ^ 16), .meldResRead { tag := 256 } 0, .meldResRead {} 16, .meldSlot 16, .gateEdge 16 false, .ztPeriodEnd 16,
      .aztApply 16, .evtPulseEnd 8, .gpEdge 8 false, .routeFire { tag := 256 } 0 0, .routeFire {} 2 0] : List Instr), i.wf = false := by decide
theorem test_ill_formed_7 : ∀ i ∈ ([
    .routeGset { tag := 256 } 0, .routeGclr { tag := 256 } 0, .routeChWrite { tag := 256 } 0 0, .routeChWrite {} 64 0,
      .routeTdivWrite { tag := 256 } 0, .clrCons { tag := 256 } 0, .clrBudget { tag := 256 } 0, .evtClr { tag := 256 } 0 0, .evtClr {} 8 0,
      .routeEvtWrite { tag := 256 } 0 0, .routeEvtWrite {} 8 0, .irqPendWrite { tag := 256 } 0 0 0, .irqPendWrite {} 3 0 0,
      .irqPendWrite {} 0 4 0, .irqMaskWrite { tag := 256 } 0 0 0, .irqMaskWrite {} 3 0 0, .irqMaskWrite {} 0 4 0,
      .irqClaim { tag := 256 } 0, .irqClaim {} 3, .irqEoi { tag := 256 } 0 0, .irqEoi {} 3 0, .irqLostclr { tag := 256 } 0 0 0,
      .irqLostclr {} 3 0 0, .irqLostclr {} 0 4 0, .clrBadeoi { tag := 256 } 0 0] : List Instr), i.wf = false := by decide
theorem test_ill_formed_8 : ∀ i ∈ ([
    .clrBadeoi {} 3 0, .irqCfgWrite { tag := 256 } 0 0, .irqCfgWrite {} 128 0, .pktTicksClose 16, .queueEnable { tag := 256 } 0 0,
      .queueEnable {} 16 0, .closeQ { tag := 256 } 0 0, .closeQ {} 16 0, .flush { tag := 256 } 0 0, .flush {} 16 0, .flushEffect 16,
      .markW { tag := 256 } 0 0, .markW {} 16 0, .markR { tag := 256 } 0 0, .markR {} 16 0, .markClr { tag := 256 } 0 0, .markClr {} 16 0,
      .rewind { tag := 256 } 0 0, .rewind {} 16 0, .skip { tag := 256 } 0 0, .skip {} 16 0, .resume { tag := 256 } 0 0, .resume {} 16 0,
      .clrStky { tag := 256 } 0 0, .clrStky {} 16 0] : List Instr), i.wf = false := by decide
theorem test_ill_formed_9 : ∀ i ∈ ([
    .release { tag := 256 } 0 0, .release {} 16 0, .weirThrWrite { tag := 256 } 0 0, .weirThrWrite {} 16 0, .moverClr { tag := 256 } 0,
      .regionWrite { tag := 256 } 0 false 0, .regionWrite {} 16 false 0, .regionBoundWrite { tag := 256 } 0,
      .spiQuadWrite { tag := 256 } 0 0, .spiQuadWrite {} 2 0, .abortRx { tag := 256 } 0 0, .abortRx {} 2 0, .hostClr { tag := 256 } 0 0,
      .hostClr {} 2 0, .hostBBaudWrite { tag := 256 } 0, .entdaa .a 128, .setdasa .a 128, .setnewda .a 128, .enec .a 256, .disec .a 256,
      .setmwl .a 65536, .setmrl .a 65536, .sbusEnable { tag := 256 } 0, .pollDue 8, .pollComplete 8 0 false []] : List Instr), i.wf = false := by decide
theorem test_ill_formed_10 : ∀ i ∈ ([
    .pollComplete 0 0 false (List.replicate 7 0), .pollAbandon 8, .sbusClr { tag := 256 } 0, .portSignalDetect 2, .trainComplete 2 0,
      .trainTimeout 2, .trainRetry 2, .signalLoss 2, .headerCrcError 2 0 0, .frameCrcError 2 0 0, .retrainU { tag := 256 } 0,
      .retrainD { tag := 256 } 0, .linkClrStky { tag := 256 } 0, .linkClrErr { tag := 256 } 0, .crd 2 0 0, .creditTimeout 2 0,
      .cmdFrame 2 { type := 0, dest := 0, src := 0, payload := [] } 0 {}, .cmdFrame 0 { type := 256, dest := 0, src := 0, payload := [] } 0 {},
      .rplFrame 2 { type := 0, dest := 0, src := 0, payload := [] } false, .rplFrame 0 { type := 256, dest := 0, src := 0, payload := [] } false,
      .recFrame 2 { type := 0, dest := 0, src := 0, payload := [] } none 0,
      .recFrame 0 { type := 256, dest := 0, src := 0, payload := [] } none 0,
      .ackFrame 2 { type := 0, dest := 0, src := 0, payload := [] }, .ackFrame 0 { type := 256, dest := 0, src := 0, payload := [] },
      .evtFrame 2 { type := 0, dest := 0, src := 0, payload := [] }] : List Instr), i.wf = false := by decide
theorem test_ill_formed_11 : ∀ i ∈ ([
    .evtFrame 0 { type := 256, dest := 0, src := 0, payload := [] }, .synFrame 2 { type := 0, dest := 0, src := 0, payload := [] },
      .synFrame 0 { type := 256, dest := 0, src := 0, payload := [] }, .timFrame 2 { type := 0, dest := 0, src := 0, payload := [] } 0,
      .timFrame 0 { type := 256, dest := 0, src := 0, payload := [] } 0, .enuFrame 2 { type := 0, dest := 0, src := 0, payload := [] },
      .enuFrame 0 { type := 256, dest := 0, src := 0, payload := [] }, .helFrame 2 { type := 0, dest := 0, src := 0, payload := [] },
      .helFrame 0 { type := 256, dest := 0, src := 0, payload := [] }, .frameForward 2 { type := 0, dest := 0, src := 0, payload := [] },
      .frameForward 0 { type := 256, dest := 0, src := 0, payload := [] }, .ackTimeout 16, .linkSyncFire { tag := 256 } 0,
      .reacq { tag := 256 } 0, .timeClrStky { tag := 256 } 0, .clrCnt { tag := 256 } 0, .timeNowRead { tag := 256 },
      .pwrWakeClr { tag := 256 } 0, .ebbResult [] ([{ kind := .comp 8, tM := 0, tF := 0, q := 0 }]), .ebbResult (List.replicate 9 ([], true)) [],
      .sealCalc { tag := 256 } 0, .sealClrStky { tag := 256 } 0, .beoEnable { tag := 256 } 0 0, .beoEnable {} 2 0,
      .beoCtrlHold { tag := 256 } 0] : List Instr), i.wf = false := by decide
theorem test_ill_formed_12 : ∀ i ∈ ([
    .beoCtrlRelease { tag := 256 } 0, .beoClrStky { tag := 256 } 0, .beoLock { tag := 256 } 0, .holdTicksExpiry 2,
      .loopEnable { tag := 256 } 0, .overRangeFlag 24 false, .overloadTimerClear 4 [], .sealComplete 0 (List.replicate 33 0) {}] : List Instr), i.wf = false := by decide
theorem test_ill_formed_long_1 : (Instr.regWriteBlock {} 0 1038 0 (List.replicate 1038 0)).wf = false := by decide +kernel
theorem test_ill_formed_long_2 : (Instr.tableLoad {} 0 (List.replicate 519 0)).wf = false := by decide +kernel
theorem test_ill_formed_long_3 : (Instr.ackFrame 0 { type := 4, dest := 0, src := 0, payload := List.replicate 209 0 }).wf = false := by decide +kernel

theorem accepted_all {l : List (Reg × W32 × State)} (w : (l.all fun x => accepts {} x.1 x.2.1 x.2.2) = true) :
    ∀ x ∈ l, Accepted {} x.1 x.2.1 x.2.2 := fun x hx => accepted_of (List.all_eq_true.1 w x hx)
theorem admitted_all {l : List (HostCmd × State)} (w : (l.all fun x => admits {} x.1 x.2) = true) :
    ∀ x ∈ l, Admitted {} x.1 x.2 := fun x hx => admitted_of (List.all_eq_true.1 w x hx)
/-- The hub in other device states, with the semaphore free or at port B, sealed, with a chain that runs, with a waiting reply. -/
def devIn (d : DevState) : State := { dev with proto := { dev.proto with dev := d } }
def devOwned (o : Option Src) : State := { dev with proto := { dev.proto with owner := o } }
def devSealed : State := { dev with sl := { dev.sl with sealed := true } }
def busyChain (n : Nat) : State := dev.setCh n { st := .running, live := true }
def aReply : Reply := { src := .port .a, tag := 5, node := 0x40, status := .ok, data := [1], frees := true }
def withLong (op : LongOp) : State := { dev with proto := { dev.proto with longs := [({ tag := 5 }, op)] } }
/-- The hub after loss of port traffic: in a power state, on its way to one, and on the PLL. -/
def powered (p : PwrState) : State := { dev with pwr := { dev.pwr with st := p } }
def entering (t : Nat) : State := { dev with pwr := { dev.pwr with entering := true, target := t } }
def devPll : State := dev.setReg .clkStatus 0xf
/-- The hub with link ports UP and node address 5. -/
def linked : State := ((dev.setFld (.linkPStat 0) 1 0 2).setFld (.linkPStat 1) 1 0 2).setFld .linkNode 7 0 5
def frame (ty dest : Nat) (bs : List Byte) : Frame := { type := ty, dest := dest, src := 3, payload := bs }
/-- A hub with queue 0 enabled, one block of its area in the window. -/
def queued : State := (dev.setReg (.weirArea 0) 0x000100c0).setReg (.weirCfg 0) 0x80000000
def queuedLink : State := (linked.setReg (.weirArea 0) 0x000100c0).setReg (.weirCfg 0) 0xe0000000

theorem witness_StepRunsTheFrontCommand : ({ dev with pending := [.nop {}] } : State).pending = .nop {} :: [] ∧ dev.pending = [] := by decide
theorem witness_WhatFollowsEveryCommand : dev.proto.held = [] ∧ dev.loop.st = 0 := by decide
theorem witness_LinesEvaluatedByEveryStep : Claims.LinesEvaluated State.reset ∧ ∃ t, step State.reset = .next t :=
  ⟨⟨by decide, by decide⟩, _, rfl⟩
theorem witness_PacketsReadBack :
    (Instr.regWrite {} 0xffffffff 0xffffffff).wf = true ∧
    Claims.packetOf (.regWrite {} 0xffffffff 0xffffffff) = some ({}, .regWrite 0xffffffff 0xffffffff) ∧
    aReply.node < 256 ∧ aReply.tag < 256 ∧ aReply.data.length < 65533 := by decide
theorem witness_FirstChecksAnswer :
    dev.portOpen .a = true ∧ dev.pwr.st = .run ∧ dev.proto.factory = false ∧ dev.proto.dev ≠ .boot ∧
    ({ known := false } : Hdr).known = false ∧ ({ fit := false } : Hdr).fit = false ∧ 96 ≤ ({ tag := 96 } : Hdr).tag ∧
    ({ dev with proto := { dev.proto with tags := [(95, .port .a)] } } : State).tagBusy 95 = true := by decide
theorem witness_GateRefusesInOrder :
    (devIn .config).legal (.port .a) .ebbDisarm = false ∧ dev.legal (.port .a) .nop = true ∧
    (withLong .clockSet).blockedBy (.port .a) .wait .clockSet = true ∧ (devIn .run).legal (.port .a) (.chanStart 1) = true ∧
    (devOwned none).needsSem (.port .a) (.chanStart 1) = true := by decide
theorem witness_QueriesAnswer :
    ∀ x ∈ [(HostCmd.nop, dev), (.devStatus, devIn .fault), (.swidRead, dev), (.semStatus, devOwned none), (.timeRead, dev)],
      Admitted {} x.1 x.2 := admitted_all (by decide)
theorem witness_SemaphoreIsTakenAndGiven :
    (∀ x ∈ [(HostCmd.semTake 0, dev), (.semTake 10, devOwned none), (.semTake 60000, dev), (.semTake 500, devOwned (some (.port .b))),
      (.semTake 9, dev), (.semTake 60001, dev), (.semGive, dev)], Admitted {} x.1 x.2) ∧
    (devOwned none).legal (.port .a) .semGive = true ∧ ({ dev with proto := { dev.proto with deadline := 0 } } : State).proto.deadline ≤ dev.clk.frc ∧
    dev.clk.frc < dev.proto.deadline := ⟨admitted_all (by decide), by decide⟩
theorem witness_RegisterReads :
    (∀ x ∈ [(HostCmd.regRead (Reg.excLevel 0).addr, dev), (.regRead 1, dev), (.regRead 0x20000000, dev), (.regRead 0x20001ffc, dev),
      (.regRead 0x10000000, dev), (.regRead 0x103ffffc, dev), (.regRead 0x10000000, dev.setReg .bootStatus 0)], Admitted {} x.1 x.2) ∧
    Claims.setting (.excLevel 0) = true ∧ decodeAddr (Reg.excLevel 0).addr = some (.excLevel 0) ∧ decodeAddr 0x0 = none ∧
    dev.bit .bootStatus 0 = true ∧ dev.allows 0x10000000 3 = false ∧ dev.allows 0x103ffffc 3 = true := ⟨admitted_all (by decide), by decide⟩
theorem witness_RowsAreRegisterAccesses :
    (Instr.learn {} 3 1).wf = true ∧ Claims.accessOf (.learn {} 3 1) = some (.regWrite {} (0x40000 + 0x60) 5) := by decide
theorem witness_PlainRegistersAreSet : Claims.plain .pwrTimer = true ∧ Accepted {} .pwrTimer 0xffffffff dev := ⟨rfl, accepted_of (by decide)⟩
theorem witness_WriteChecksRefuse :
    (∀ x ∈ [(HostCmd.regWrite 1 0, dev), (.regWrite 0x20000000 0, dev), (.regWrite (Reg.sysTickCount).addr 0, dev),
      (.regWrite (Reg.regionBound).addr 1, dev), (.regWrite (Reg.sclZeroHi 0).addr 0, dev), (.regWrite (Reg.monExcWin 0).addr 1, devSealed)],
      Admitted {} x.1 x.2) ∧
    Claims.outOfRange .regionBound 1 ∧ hiOf (.sclZeroLo 0) = some (.sclZeroHi 0) ∧ slotOf dev.proto.staging (.port .a) (.sclZeroLo 0) = none ∧
    placeOf (Reg.regionBound).addr = some (.reg .regionBound) ∧ devSealed.sl.sealed = true := by
  refine ⟨admitted_all (by decide), ?_, by decide, by decide, by decide, by decide⟩
  unfold Claims.outOfRange
  decide
theorem witness_WindowWordsReadAndWritten :
    (∀ x ∈ [(HostCmd.regWrite 0x10080000 7, dev), (.regWrite 0x100bfffc 7, dev), (.regWriteBlock 0x10080000 2 1 [1, 2], dev),
      (.regWriteBlock 0x100bfff8 2 0 [1, 2], dev), (.regReadBlock 0x10080000 1 16, dev), (.regReadBlock 0x103ffffc 2 0, dev),
      (.regReadBlock 0 0 0, dev), (.regReadBlock 0 1025 0, dev), (.regReadBlock 0 1 17, dev), (.regWriteBlock 0 0 0 [], dev)],
      Admitted {} x.1 x.2) ∧
    dev.bit .bootStatus 0 = true ∧ dev.sl.sealed = false ∧ dev.blockInUse 0x10080000 = false ∧ dev.blockInUse 0x100bfffc = false ∧
    dev.allows 0x10080000 2 = true ∧ dev.allows 0x100bfffc 2 = true ∧ dev.allows 0x10080000 3 = true ∧ blockAddr 0x10080000 1 1 = 0x10080000 ∧
    blockAddr 0x100bfff8 0 1 = 0x100bfffc ∧ placeOf (blockAddr 0x103ffffc 0 1) = none ∧ (∀ i, i < 40 → dev.curve i < 13) :=
  ⟨admitted_all (by decide), by decide⟩
theorem witness_TableLoadWritesItsWords :
    (∀ x ∈ [(HostCmd.tableLoad 0 [1], dev), (.tableLoad 0x6ffff [1], dev), (.tableLoad 0x70000 [1], dev), (.tableLoad 0 [], dev),
      (.tableLoad 0 [1], dev.setReg .bootStatus 0)], Admitted {} x.1 x.2) ∧
    0x10080000 + 8 * (0x6ffff + 1) ≤ 0x10400000 ∧ dev.blockInUse 0x10080000 = false ∧ dev.allows 0x10080000 2 = true ∧
    dev.blockInUse 0x103ffff8 = false ∧ (withLong (.tableLoad 0 [1])).fabricOn = true ∧
    (withLong (.tableLoad 0 [1])).proto.longs.find? (fun x => match x.2 with | .tableLoad _ _ => true | _ => false) =
      some ({ tag := 5 }, .tableLoad 0 [1]) := ⟨admitted_all (by decide), by decide⟩
def staged (r : Reg) (w : W32) : State := { dev with proto := { dev.proto with staging := [(.port .a, r.addr, w)] } }
theorem witness_PairsAreStagedAndCommitted :
    (∀ x ∈ [(Reg.sclZeroLo 0, (5 : W32), dev), (.sclZeroHi 0, 1, staged (.sclZeroLo 0) 5), (.linNtcAHi 0, 0, staged (.linNtcALo 0) 0)],
      Accepted {} x.1 x.2.1 x.2.2) ∧
    (∀ x ∈ [(HostCmd.regRead (Reg.sclZeroLo 0).addr, dev), (.regRead (Reg.sclZeroHi 0).addr, dev)], Admitted {} x.1 x.2) ∧
    slotOf (staged (.sclZeroLo 0) 5).proto.staging (.port .a) (.sclZeroLo 0) = some 5 ∧ dev.chBusy 0 = false ∧
    slotOf dev.proto.shadow (.port .a) (.sclZeroHi 0) = none ∧
    slotOf [((.port .a : Src), (Reg.sclZeroHi 0).addr, (9 : W32))] (.port .a) (.sclZeroHi 0) = some 9 :=
  ⟨accepted_all (by decide), admitted_all (by decide), by decide⟩
theorem witness_StickyBitsAreCleared :
    Claims.writes (.clrRej {} 0) {} .cmdCtrl 1 ∧ (Claims.cleared .cmdCtrl 1 dev).isSome = true ∧ Accepted {} .cmdCtrl 1 dev ∧
    Claims.writes (.moverClr {} 0x81) {} .moverCtrl 0x81 ∧ (Claims.cleared .moverCtrl 0x81 dev).isSome = true ∧ Accepted {} .moverCtrl 0x81 dev :=
  ⟨.inr rfl, rfl, accepted_of (by decide), .inr rfl, rfl, accepted_of (by decide)⟩
theorem witness_PacketsAndRepliesLeave :
    dev.pwr.st = .run ∧ dev.proto.factory = false ∧ State.reset.proto.dev = .boot ∧
    ({ dev with proto := { dev.proto with replies := [aReply] } } : State).proto.replies = [] ++ aReply :: [] ∧ aReply.src = .port .a ∧
    aReply.q = none := by decide
theorem witness_NodesAreReached :
    linked.fabricOn = true ∧ linked.portUp 0 = true ∧ linked.portUp 1 = true ∧ linked.nodeAddr = some 5 ∧ dev.portUp 0 = false ∧
    dev.portUp 1 = false ∧ (({ tag := 5 }, .forward 3 0 0) : Hdr × LongOp) ∈ (withLong (.forward 3 0 0)).proto.longs ∧
    (withLong (.forward 3 0 0)).clk.frc < 1 := by decide
theorem witness_ClocksAreSet :
    (∀ x ∈ [(HostCmd.clockSet 2 0 12 0, dev), (.clockSet 1 0 5 0, dev), (.clockSet 1 1 24 0, dev), (.clockSet 1 0 6 0, dev),
      (.clockSet 1 0 12 3, busyChain 23)], Admitted {} x.1 x.2) ∧ dev.onPll = false ∧ dev.clk.pll = none ∧ dev.bit .clkStatus 3 = false ∧
    dev.fld .clkCtrl 5 4 = 0 ∧ (busyChain 23).chBusy 23 = true ∧ (busyChain 23).chBusy 22 = false ∧
    96 * 196608 ≤ 100 * (15729 * 12) ∧ 100 * (17039 * 12) ≤ 104 * 196608 ∧ dev.clk.mclkPh = 0 ∧ dev.bit .clkCtrl 8 = false :=
  ⟨admitted_all (by decide), by decide⟩
theorem witness_QueuesAreRead :
    (∀ x ∈ [(HostCmd.queueRead 0 1 0 none, queued), (.queueRead 0 4096 0 none, queued), (.queueRead 16 1 0 none, dev), (.queueRead 0 0 0 none, dev),
      (.queueRead 0 4097 0 none, dev), (.queueRead 15 1 0 none, dev)], Admitted {} x.1 x.2) ∧
    queued.qOn 0 = true ∧ dev.qOn 15 = false ∧ (queued.win .a).q ≠ some 0 ∧ queued.owed 0 = 0 ∧ (queued.queue 0).rhalt = false ∧
    queued.allows (queued.qAddr 0 511) 1 = true ∧ queued.fld (.weirThr 0) 31 30 = 0 ∧ queued.hostIf.ratePend = [] :=
  ⟨admitted_all (by decide), by decide⟩
/-- The hub with its time servo off. -/
def unserved : State := dev.setReg .timeSrvCfg 0
theorem witness_TimeIsStepped :
    (∀ x ∈ [(HostCmd.timeSet 0 0 true, unserved), (.timeSet (10 ^ 12) 0 false, unserved), (.timeSet 1 0 false, dev),
      (.timeAdjust 1 0 0 1, unserved), (.timeAdjust 0 0 5 2, unserved), (.timeAdjust 0 0 0 0, dev)], Admitted {} x.1 x.2) ∧
    unserved.bit .timeSrvCfg 31 = false ∧ dev.bit .timeSrvCfg 31 = true ∧ dev.fld .timeSrvStat 25 23 ≠ 5 := ⟨admitted_all (by decide), by decide⟩
theorem witness_NodesAreEnumerated :
    (∀ x ∈ [(HostCmd.linkEnum, linked), (.linkEnum, dev.setFld .linkNode 7 0 0), (.linkEnum, ((dev.setFld (.linkPStat 1) 1 0 2).setFld .linkNode 7 0 0))],
      Admitted {} x.1 x.2) ∧ linked.portUp 0 = true ∧ (dev.setFld .linkNode 7 0 0).portUp 0 = false ∧
    (withLong .linkEnum).proto.longs = [({ tag := 5 }, .linkEnum)] := ⟨admitted_all (by decide), by decide⟩
theorem witness_ChainsStartAndStop :
    (∀ x ∈ [(HostCmd.chanStart 0, dev), (.chanStart 0x800000, busyChain 23), (.chanStop 0xffffff, busyChain 23), (.chanSync 255, dev)],
      Admitted {} x.1 x.2) ∧ ((busyChain 23).ch 23).st ≠ .idle ∧ ((busyChain 23).ch 23).stopPend = false ∧
    20 * dev.loadWith (fun _ => false) ≤ 19 * dev.capacity :=
  ⟨admitted_all (by decide), by decide, by decide, by decide +kernel⟩
theorem witness_TheHubIsSealed :
    (∀ x ∈ [(HostCmd.seal, dev), (.seal, devSealed), (.unseal, dev), (.unseal, devSealed)], Admitted {} x.1 x.2) ∧ dev.sl.sealed = false ∧
    devSealed.sl.sealed = true ∧ dev.sl.refValid = false ∧ dev.auditCount = 0 ∧ devSealed.sl.jumper = true ∧
    (withLong .unseal).proto.longs = [({ tag := 5 }, .unseal)] ∧ Accepted {} .sealCtrl 2 dev :=
  ⟨admitted_all (by decide), by decide, by decide, by decide, by decide +kernel, by decide, by decide, accepted_of (by decide)⟩
theorem witness_PatchesAreLoaded :
    (∀ x ∈ [(HostCmd.patchLoad 0 [1], dev), (.patchLoad 65535 [1], dev), (.patchLoad 65536 [1], dev), (.patchLoad 0 [1], devSealed),
      (.patchActivate, dev)], Admitted {} x.1 x.2) ∧ dev.sl.sealed = false ∧ dev.sl.active = false ∧
    (withLong .patchActivate).proto.longs = [({ tag := 5 }, .patchActivate)] := ⟨admitted_all (by decide), by decide⟩
/-- The hub in CONFIG and EBB with PWR_MODE on a target and a wake source enabled. -/
def aimed (d : DevState) (t : Nat) (wake : W32) : State := ((devIn d).setReg .pwrMode (BitVec.ofNat 32 t)).setReg .pwrWakeEn wake
theorem witness_WaitIsChecked :
    (∀ x ∈ [(HostCmd.wait, aimed .config 0 0), (.wait, aimed .config 5 0), (.wait, aimed .config 2 0x20), (.wait, aimed .config 3 0),
      (.wait, aimed .config 1 0), (.wait, aimed .ebb 2 0x20), (.wait, aimed .config 3 0x20), (.wait, aimed .config 4 0)], Admitted {} x.1 x.2) ∧
    (aimed .config 1 0).fld .pwrMode 2 0 = 1 ∧ (aimed .config 1 0).onPll = false ∧ (aimed .config 3 0x20).bit .pwrWakeEn 5 = true ∧
    wakeActs .hold 5 = true := ⟨admitted_all (by decide), by decide⟩
theorem witness_PowerStatesAreEntered :
    (∀ t ∈ [1, 2, 3, 4], (entering t).pwr.entering = true ∧ (entering t).pwr.waitReply = none ∧ (entering t).pwr.st = .run ∧
      (entering t).pwr.target = t ∧ (∀ i, i < 9 → (entering t).bit .pwrWakePend i = false) ∧
      ∀ id ∈ [0x0b, 0x07, 0x01, 0x02, 0x0a, 0x08, 0x03, 0x06, 0x04, 0x05, 0x09], (entering t).agrees {} t id = true) ∧
    (entering 1).portUp 0 = false ∧ (entering 1).portUp 1 = false ∧ ({} : EntryObs).wake = none := by decide
/-- The hub asleep with wake sources 5 and 6 enabled, and a wake in progress. -/
def asleep (p : PwrState) : State := ((powered p).setReg .pwrWakeEn 0x60).setReg .pwrTimer 100
theorem witness_TheHubWakes :
    dev.wakeable 0 = false ∧ (asleep .doze).pwr.waking = none ∧ (asleep .doze).bit .pwrWakeEn 5 = true ∧ wakeActs .doze 5 = true ∧
    (asleep .hold).pwr.st = .hold ∧ wakeActs .hold 5 = true ∧ (asleep .hold).fld .pwrTimer 23 0 ≠ 0 ∧
    ({ asleep .doze with pwr := { (asleep .doze).pwr with waking := some 0x15 } } : State).pwr.waking = some 0x15 := by decide
/-- A hub in Ebb mode whose cycle is in progress. -/
def ebbing : State := { (powered .ebb).setFld .ebbPulse 10 0 8 with ebb := { mask := 1, cycling := true, convAt := some 0 } }
theorem witness_EbbCycles :
    (∀ x ∈ [(HostCmd.ebbArm {}, dev), (.ebbDisarm, devIn .ebb)], Admitted {} x.1 x.2) ∧ (powered .ebb).pwr.st = .ebb ∧
    (powered .ebb).ebb.cycling = false ∧ ebbing.ebb.cycling = true ∧ ebbing.ebb.convAt = some 0 ∧ ebbing.ebb.wakeAfter = none ∧
    ebbing.fld .ebbCfg 31 30 = 0 ∧ ebbing.pwr.waking = none ∧ (List.replicate 29 (0 : Int)).length = 4 * ebbing.fld .ebbPulse 10 0 - 3 :=
  ⟨admitted_all (by decide), by decide⟩
theorem witness_ResetsStartTheBoot :
    ({} : Env).test = false ∧ dev.fabricOn = true ∧ dev.proto.factory = false ∧ dev.proto.dev ≠ .fault ∧ dev.newestCopy = none ∧
    ({ dev with clk := { dev.clk with copyA := some { seq := 1 } } } : State).newestCopy = some { seq := 1 } := by decide
theorem witness_TheBootEnds :
    State.reset.proto.dev = .boot ∧ State.reset.proto.factory = false ∧ dev.proto.dev ≠ .boot ∧ dev.fabricOn = true ∧ dev.clk.copyA = none := by decide
/-- The hub with every supply good. -/
def supplied : State := dev.setReg .supStatus 0x1f
theorem witness_SuppliesChange :
    supplied.pwr.st = .run ∧ supplied.reg .supStatus = 0x1f ∧ ((0x1b : BitVec 5).setWidth 32 ||| 1 : W32) ≠ supplied.reg .supStatus ∧
    Claims.writes (.regCtrlModeWrite {} 1) {} .regCtrl 1 ∧ Accepted {} .regCtrl 1 dev ∧ Accepted {} .regCtrl 0 dev ∧ dev.bit .regCtrl 0 = false :=
  ⟨by decide, by decide, by decide, .inr rfl, accepted_of (by decide), accepted_of (by decide), by decide⟩
theorem witness_ClocksAreLost :
    Claims.writes (.lfSelWrite {} 0x80) {} .clkCtrl 0x80 ∧ Accepted {} .clkCtrl 0x80 dev ∧ dev.clk.lfQual = false ∧ dev.onPll = false ∧
    (dev.setReg .clkStatus 0x10).bit .clkStatus 4 = true ∧ devPll.onPll = true ∧ devPll.clk.op = none ∧ devPll.clk.mclkPh = 0 :=
  ⟨.inr rfl, accepted_of (by decide), by decide⟩
theorem witness_TheTickTurns :
    (∀ x ∈ [(Reg.sysTickDiv, (96 : W32), dev), (.sysTickDiv, 6144000, dev), (.sysTickDiv, 6144, busyChain 0)], Accepted {} x.1 x.2.1 x.2.2) ∧
    dev.bit .beoLoopCfg 31 = false ∧ (∀ x, x < 4 → dev.genEnabled x = false) ∧ dev.fabricOn = true ∧ dev.clk.mclkPh < dev.tPerM ∧
    dev.clk.mclk ≤ dev.eng.tickAt + dev.eng.div := ⟨accepted_all (by decide), by decide⟩
theorem witness_ChainsProduceOutputs :
    (busyChain 23).fabricOn = true ∧ (busyChain 23).clk.mclkPh < (busyChain 23).tPerM ∧ ((busyChain 23).ch 23).st ≠ .idle ∧
    ((busyChain 23).ch 23).live = true ∧ (List.replicate ((busyChain 23).decimD 23) (0 : Int)).length = (busyChain 23).decimD 23 :=
  ⟨by decide, by decide, by decide, by decide, List.length_replicate⟩
/-- The hub with one job of chain 0 before its scaling. -/
def jobbed : State :=
  { dev.setReg (.sluIir 0) 0x01000000 with eng := { dev.eng with used := 0, jobs := [{ source := 0, tick := 0, b := 0, meas := {}, flags := 0, wins := [], prio := false, todo := [{ st := .scl }] }] } }
theorem witness_TheEngineWorks :
    (∀ x ∈ [(Reg.engPrio, (0xf : W32), dev), (.engPrio, 0x1f, dev)], Accepted {} x.1 x.2.1 x.2.2) ∧ dev.nextItem = none ∧ jobbed.nextItem = some 0 ∧
    Claims.Calm jobbed ∧ jobbed.decQ 0 = 1 ∧ jobbed.decP 0 = 1 ∧ jobbed.loop.st = 0 ∧ jobbed.beo0.on = false :=
  ⟨accepted_all (by decide), by decide, by decide, ⟨by decide, by decide, by decide⟩, by decide⟩
theorem witness_BanksAreSwapped :
    (∀ x ∈ [(Reg.sluCoefHi, (0xf : W32), staged .sluCoefLo 7), (.sluBank 0, 0x80000000, dev), (.sluBank 23, 0x80000000, busyChain 23)],
      Accepted {} x.1 x.2.1 x.2.2) ∧ slotOf (staged .sluCoefLo 7).proto.staging (.port .a) .sluCoefLo = some 7 ∧
    ((busyChain 23).ch 23).swap = false ∧ (busyChain 23).chBusy 23 = true ∧ dev.fabricOn = true := ⟨accepted_all (by decide), by decide⟩
theorem witness_GroupsAreSynced :
    Accepted {} .sluSyncCtrl ((dev.reg .sluSyncCtrl &&& 0x17) ||| BitVec.ofNat 32 (255 * 0x10000)) dev ∧ dev.fabricOn = true ∧ dev.link.syns = [] ∧
    (∃ x ∈ ({ dev with syncs := [(7, false, 1)] } : State).syncs, x.1 = 7) ∧ (7, dev.clk.mclk) ∉ dev.syncLast ∧ dev.bit .sluSyncCtrl 4 = false ∧
    dev.bit .linkSynctx 0 = false := ⟨accepted_of (by decide), by decide, by decide, ⟨_, .head _, rfl⟩, by decide⟩
/-- The hub with driver 3 on and its monitors running. -/
def driven : State := dev.setDrv 3 { en := true, on := true }
theorem witness_FaultsAreRecorded :
    (FaultKind.sat 3).wf = true ∧ dev.fabricOn = true ∧ dev.mon.faults = [] ∧ dev.monActive (.low 0) = false ∧ ((busyChain 23).ch 23).st ≠ .idle ∧
    driven.monActive (.sat 3) = true ∧ driven.monBlanked (.sat 3) = false ∧
    ([{ code := 0x1413, scope := .driver 3, t0 := 0, t1 := none }] : List FaultIv).filter (fun f => f.code == (Claims.faultRow (.sat 3)).1 && f.t1.isNone) =
      [{ code := 0x1413, scope := .driver 3, t0 := 0, t1 := none }] ∧
    (dev.reg .monTempStatus &&& 7) = 0 ∧ 60 ≤ dev.fld .monTempCfg 7 0 ∧ cellGet dev.mon.hot 0 0 = 0 := by decide
/-- The hub with a driver or source port: role 2 or 3 of unit 0 at port 47. -/
def ported (role : Nat) : State := dev.setReg (.apCfg 47) (BitVec.ofNat 32 role)
theorem witness_ExcitationWritesAreHeld :
    (∀ x ∈ [(Reg.excCtrl 3, (0x1 : W32), supplied), (.excCtrl 3, 0x201, supplied), (.excCtrl 0, 1, dev.setReg .supStatus 0), (.excLevel 3, 500, dev),
      (.excLevel 0, 5250, dev), (.excChop 3, 0x0c001800, dev), (.isrcPair 3, 0, dev), (.isrcPair 0, 1, dev), (.monExcCtrl 3, 0x2104, dev),
      (.afeTia 3, 0x05dc0000, dev), (.afeTia 0, 0, busyChain 16), (.isrcCfg 0, 0xaf01, ported 3), (.isrcCfg 7, 0x8001, dev), (.isrcCfg 0, 1, dev),
      (.apCfg 47, 4, dev), (.apCfg 0, 2, ported 2)], Accepted {} x.1 x.2.1 x.2.2) ∧
    (ported 3).fld (.apCfg 47) 2 0 = 3 ∧ (ported 3).fld (.apCfg 47) 12 8 % 8 = 0 ∧ dev.fld (.apCfg 47) 2 0 = 0 ∧ supplied.bit .supStatus 3 = true :=
  ⟨accepted_all (by decide), by decide⟩
theorem witness_DriversMove :
    driven.fabricOn = true ∧ driven.clk.mclkPh < driven.tPerM ∧ (driven.drv 3).on = true ∧ (driven.drv 0).on = false ∧ (driven.drv 3).chopEn = false ∧
    ((dev.setDrv 3 { chopEn := true, chops := [(0, false, false, 0)] }).drv 3).chops = [(0, false, false, 0)] ∧
    ((dev.setDrv 3 { en := true, hiccup := true }).drv 3).hiccup = true ∧ ((dev.setDrv 3 { learn := 2, ramp := true }).drv 3).learn = 2 := by decide
theorem witness_ScalingIsSet :
    (∀ x ∈ [(Reg.sclSpanHi 23, (0 : W32), staged (.sclSpanLo 23) 7), (.sclAztHi 23, 0, staged (.sclAztLo 23) 0), (.sclCfg 23, 0x2f, dev),
      (.sclCfg 0, 0, busyChain 0), (.linCfg 39, 0, dev), (.linCfg 0, 8, dev), (.dsCfg 15, 0, dev), (.dsCfg 15, 0x80000000, dev), (.dsWt, 1, dev)],
      Accepted {} x.1 x.2.1 x.2.2) ∧ (∀ x ∈ [(HostCmd.regRead Reg.dsWt.addr, dev)], Admitted {} x.1 x.2) ∧ dev.producing 39 = false ∧
    dev.bit (.dsCfg 15) 31 = false ∧ dev.dsSlots 15 = [] ∧ (busyChain 0).chBusy 0 = true ∧
    slotOf (staged (.sclAztLo 23) 0).proto.staging (.port .a) (.sclAztLo 23) = some 0 :=
  ⟨accepted_all (by decide), admitted_all (by decide), by decide⟩
/-- The hub with a latch of detector 7 and statistics slot 31 requested. -/
def latching : State := (dev.setDet 7 { pend := [(1, false)] }).setStat 31 { pend := [(1, false)], run := true }
theorem witness_PeriodsAreLatched :
    (∀ x ∈ [(Reg.dtCtrl, (0x80 : W32), dev), (.statLatch, 0x80000001, dev), (.statEna, 0x80000000, dev)], Accepted {} x.1 x.2.1 x.2.2) ∧
    (∀ x ∈ [(HostCmd.regRead (Reg.statCnt 31).addr, dev), (.regRead (Reg.statCnt 0).addr, dev)], Admitted {} x.1 x.2) ∧ latching.fabricOn = true ∧
    (latching.det 7).pend = [(1, false)] ∧ (latching.stat 31).pend = [(1, false)] ∧ (latching.stat 31).run = true ∧
    (latching.stat 31).edge ≠ some 1 ∧ (latching.det 0).pend = [] :=
  ⟨accepted_all (by decide), admitted_all (by decide), by decide⟩
/-- The hub with Meld unit 15 enabled as a unit of a type. -/
def melded (ty : Nat) (x : Meld) : State := (dev.setReg (.meldCfg 15) (0x80000000 ||| BitVec.ofNat 32 (ty * 256))).setMeld 15 x
def anInput : MIn := { val := 5, flags := 0, tm := {}, frc := 0, b := 0 }
theorem witness_MeldUnitsAreSet :
    (∀ x ∈ [(Reg.meldCfg 15, (0x80000000 : W32), dev), (.meldCfg 15, 0x40000001, dev), (.meldCfg 15, 0, melded 1 {}), (.meldCfg 15, 1, melded 1 {}),
      (.meldCtrl, BitVec.ofNat 32 65535, dev), (.meldCtrl, BitVec.ofNat 32 (65535 * 65536), dev)], Accepted {} x.1 x.2.1 x.2.2) ∧
    (∀ x ∈ [(HostCmd.regRead (Reg.meldResLo 15).addr, dev)], Admitted {} x.1 x.2) ∧ dev.fabricOn = true ∧ (melded 1 {}).bit (.meldCfg 15) 31 = true ∧
    ((melded 1 {}).setReg (.meldGate 15) 16).fld (.meldGate 15) 5 0 = 16 := ⟨accepted_all (by decide), admitted_all (by decide), by decide⟩
theorem witness_MeldUnitsEvaluate :
    (melded 1 { buf := [anInput] }).fabricOn = true ∧ (melded 1 { buf := [anInput] }).bit (.meldCfg 15) 31 = true ∧
    (melded 2 {}).fld (.meldCfg 15) 11 8 = 2 ∧ ((melded 1 { buf := [anInput] }).meld 15).buf = [anInput] ∧ (melded 1 {}).bit (.meldCfg 15) 28 = false ∧
    (melded 1 {}).fld (.meldGate 15) 5 0 = 0 ∧ ((melded 8 {}).setReg (.meldP1 15) 0x10).bit (.meldP1 15) 4 = true ∧
    ((melded 8 { outs := [{}] }).meld 15).outs = [{}] ∧ ((melded 7 { arms := [(0, {})] }).meld 15).arms = [(0, {})] ∧
    (melded 7 {}).reg (.meldP3 15) = 0 ∧ ((melded 4 { zt := [{ start := 0, til := some 0 }] }).meld 15).zt = [{ start := 0, til := some 0 }] ∧
    (melded 4 { zt := [{ start := 0, til := some 0 }] }).ztWaits 15 0 = false ∧ ((melded 4 { corr := [(2, 5)] }).meld 15).corr = [(2, 5)] := by decide
/-- The hub with a firing of a channel pending, its word, and its budget not spent. -/
def firing (cc : Nat) (v : W32) : State := { dev.setReg (.routeCh cc) v with route := { dev.route with pend := [{ cc := cc }] } }
theorem witness_EventsAreRouted :
    (firing 63 0).fabricOn = true ∧ (firing 63 0).route.pend = [{ cc := 63 }] ∧ (firing 0 0x80000102).targets 0 = [88] ∧ (firing 0 0x80000104).targets 0 = [65] ∧
    (firing 0 0x80000101).targets 0 = [80] ∧ (firing 0 0x80000180).targets 0 = [96] ∧ (firing 0 0x80000120).targets 0 = [112] ∧
    (firing 1 0x80000180).targets 1 = [104] ∧ (firing 1 0x80000120).targets 1 = [128] ∧ (firing 0 0x80000100).targets 0 = [] ∧
    (firing 0 0x80000102).bit (.routeCh 0) 31 = true ∧ (firing 0 0x80000102).bit (.routeCh 0) 23 = false ∧
    (firing 0 0x80000102).fld (.routeStat 0) 7 0 < (firing 0 0x80000102).fld (.routeCh 0) 15 8 ∧ dev.route.gp.getLsbD 7 ≠ true ∧
    dev.fld (.routePin 7) 1 0 = 0 ∧ (powered .hold).fabricOn = false ∧ (dev.setReg .routeTdiv 1).fld .routeTdiv 23 0 ≠ 0 := by decide
theorem witness_RoutingIsSet :
    (∀ x ∈ [(Reg.routeFire0, (0x80000001 : W32), dev), (.routeFire1, 1, dev), (.routeFire1, 0x80000000, dev.setReg (.routeCh 63) 0x80000000),
      (.routeFire0, 1, devSealed.setReg (.routeCh 0) 0x40000000), (.routeGset, 0x8000, dev), (.routeGclr, 1, dev), (.routeCh 63, 0xff00, dev),
      (.routeCh 0, 0x100, dev.setReg (.routeCh 0) 0x80000000), (.routeTdiv, 1, dev), (.routeEvt 7, 0x90000000, dev), (.routeEvt 0, 0x8000001, dev)],
      Accepted {} x.1 x.2.1 x.2.2) ∧ dev.bit (.routeCh 0) 31 = false ∧ dev.fld (.routeGsrc 15) 7 0 = 0 := ⟨accepted_all (by decide), by decide⟩
/-- The hub with source 9 given to target t, pending and not masked. -/
def requested (t : Nat) : State :=
  { dev.setReg (.irqCfg 9) (BitVec.ofNat 32 (256 * (t + 1) + 3)) with irq := { dev.irq with pend := 1#128 <<< 9, mask := 0 } }
def serving : State := { requested 0 with irq := { (requested 0).irq with insv := 1#128 <<< 9 } }
theorem pend_only_9 (t n : Nat) (h : (requested t).irq.pend.getLsbD n = true) : n = 9 := by
  have h : (1#128 <<< 9).getLsbD n = true := h
  simp only [BitVec.getLsbD_shiftLeft, BitVec.getLsbD_one, Bool.and_eq_true, decide_eq_true_eq, Bool.not_eq_true'] at h
  have := h.1.2
  simp at h
  omega
theorem taken_9 (t : Nat) (ht : t < 3) : Claims.Taken (requested t) t 9 := by
  refine ⟨?_, fun k hk => .inr ⟨?_, ?_⟩⟩
  · rcases t with _ | _ | _ | t
    · exact ⟨by decide, by decide, by decide, by decide, by decide, fun k hk h => by simp [requested, dev, State.reset, State.setReg] at h⟩
    · exact ⟨by decide, by decide, by decide, by decide, by decide, fun k hk h => by simp [requested, dev, State.reset, State.setReg] at h⟩
    · exact ⟨by decide, by decide, by decide, by decide, by decide, fun k hk h => by simp [requested, dev, State.reset, State.setReg] at h⟩
    · omega
  all_goals have := pend_only_9 t k hk.2.2.1
  · rw [this]
  · omega
theorem witness_InterruptsAreClaimed :
    (∀ x ∈ [(Reg.irqEoi 0, (0x7f : W32), dev), (.irqEoi 1, 0, dev), (.irqEoi 0, 9, serving)], Accepted {} x.1 x.2.1 x.2.2) ∧
    serving.irq.insv.getLsbD 9 = true ∧ serving.fld (.irqCfg 9) 9 8 = 1 ∧ dev.irq.insv.getLsbD 0 = false ∧
    (∀ x ∈ [(HostCmd.regRead (Reg.irqClaim 0).addr, requested 0), (.regRead (Reg.irqClaim 1).addr, requested 1),
      (.regRead (Reg.irqClaim 2).addr, requested 2)], Admitted {} x.1 x.2) ∧
    Claims.Taken (requested 0) 0 9 ∧ Claims.Taken (requested 1) 1 9 ∧ Claims.Taken (requested 2) 2 9 ∧ ∀ n, ¬ Claims.Deliverable dev 0 n :=
  ⟨accepted_all (by decide), by decide, by decide, by decide, admitted_all (by decide), taken_9 0 (by decide), taken_9 1 (by decide),
    taken_9 2 (by decide), fun n h => by have := h.2.2.1; simp [dev, State.reset, State.setReg] at this⟩
theorem witness_InterruptsAreSet :
    (∀ x ∈ [(Reg.irqPend 0 3, (0xffffffff : W32), dev), (.irqPend 1 0, 1, dev), (.irqMask 1 3, 0, dev), (.irqCtrl 0, 5, dev), (.irqCtrl 1, 4, dev),
      (.irqCfg 127, 0x307, dev), (.irqCfg 9, 0, serving)], Accepted {} x.1 x.2.1 x.2.2) ∧ serving.irq.insv.getLsbD 9 = true ∧
    (requested 2).fabricOn = true ∧ Claims.Taken (requested 2) 2 9 ∧ Claims.Taken (requested 0) 0 9 ∧ (requested 0).irq.claimedA = false ∧
    ({ requested 0 with hostIf := { dev.hostIf with strapA := .high } } : State).hostIf.strapA = .high :=
  ⟨accepted_all (by decide), by decide, by decide, taken_9 2 (by decide), taken_9 0 (by decide), by decide⟩
def aUnit : RUnit := { src := 56, recs := [{ source := 56 }] }
def aPkt : Pkt := { slot := 0, count := 1, part := [1, 2, 3, 4, 5, 6], ticks := 5 }
/-- Queue 0 with a unit on its way, and with an open packet. -/
def storing : State := { queued with weir := { queued.weir with mv0 := [(0, aUnit)] } }
def packed : State := (queued.setReg (.weirPkt 0) 0x10005).setQueue 0 { w := 3, pkt := some aPkt }
theorem witness_QueuesFill :
    storing.fabricOn = true ∧ storing.weir.mv0 = (0, aUnit) :: [] ∧ (storing.queue 0).flushPend = false ∧ storing.qOn 0 = true ∧
    (storing.queue 0).whalt = false ∧ (storing.queue 0).pkt = none ∧ dev.weir.mv0 = [] ∧
    (∀ p, p ≤ 3 → storing.allows (storing.qAddr 0 p) 0 = true) ∧ 3 ≤ 512 * storing.fld (.weirArea 0) 25 16 ∧ (packed.queue 0).pkt = some aPkt ∧
    packed.fld (.weirPkt 0) 15 0 = 5 ∧ packed.fld (.weirThr 0) 31 30 ≠ 1 ∧
    ((queued.setQueue 0 { flushPend := true }).queue 0).flushPend = true ∧
    ({ queued with weir := { queued.weir with winA := { q := some 0 } } } : State).weir.winA.q = some 0 := by decide
theorem witness_QueueCommandsAreTaken :
    (∀ x ∈ [(Reg.weirCtrl 0, (0x2 : W32), packed), (.weirCtrl 15, 0x4, dev), (.weirCtrl 0, 0x40, dev), (.weirCtrl 0, 0x200, queued), (.weirRel 0, 0x80000000, queued),
      (.weirRel 15, 1, dev), (.weirRel 0, 0, queuedLink), (.weirThr 15, 0x80000000, dev), (.weirCfg 0, 0x80000000, dev.setReg (.weirArea 0) 0x000100c0),
      (.weirCfg 0, 0, queued), (.weirCfg 15, 0, dev), (.weirCfg 0, 0x20000000, queued), (.weirCfg 0, 0x80000000, dev), (.regionAddr 15, 0x030000c0, dev),
      (.regionAttr 3, 0, dev), (.regionAttr 2, 0, dev), (.regionBound, 2, dev), (.regionBound, 8, queued)], Accepted {} x.1 x.2.1 x.2.2) ∧
    (packed.queue 0).pkt = some aPkt ∧ packed.qOn 0 = true ∧ packed.allows (packed.qAddr 0 0) 0 = true ∧ queuedLink.fld (.weirCfg 0) 30 29 = 3 ∧
    dev.bit .bootStatus 0 = true ∧ dev.qOn 0 = false := ⟨accepted_all (by decide), by decide⟩
/-- The hub with port A in I3C mode at a dynamic address. -/
def bused : State := { (dev.setFld (.hostAddr 0) 14 8 9) with hostIf := { dev.hostIf with strapA := .high } }
theorem witness_PortsAreOperated :
    (∀ x ∈ [(Reg.hostCfg 0, (0 : W32), dev), (.hostCfg 0, 4, dev.setReg .supStatus 0), (.hostCfg 1, 4, dev), (.hostCtrl 0, 3, dev), (.hostCtrl 1, 2, dev),
      (.hostBBaud, 9600, dev), (.hostBBaud, 12000000, dev), (.hostBBaud, 12000000, devPll)], Accepted {} x.1 x.2.1 x.2.2) ∧ dev.hostIf.strapA = .gnd ∧
    dev.proto.replies = [] ∧ dev.onPll = false ∧ devPll.onPll = true ∧ dev.hostIf.strapB = .gnd ∧ bused.fabricOn = true ∧ bused.hostIf.strapA = .high ∧
    bused.fld (.hostAddr 0) 14 8 ≠ 0 ∧ dev.fld (.hostAddr 0) 14 8 = 0 := ⟨accepted_all (by decide), by decide⟩
/-- The hub with schedule entry 7 due, in progress, or late. -/
def polling (x : Poll) : State := (dev.setReg .supStatus 0x1f).setPoll 7 x
theorem witness_PollsRun :
    (∀ x ∈ [(Reg.sbusCfg, (0x80010007 : W32), dev), (.sbusCfg, 0x80ff00ff, dev.setReg .sbusCfg 0x80000000)], Accepted {} x.1 x.2.1 x.2.2) ∧
    (polling { due := true }).fabricOn = true ∧ ((polling { due := true }).poll 7).due = true ∧ (∀ j, j < 7 → ((polling { due := true }).poll j).due = false) ∧
    (polling {}).bit .supStatus 2 = true ∧ ((polling { late := true }).poll 7).late = true ∧ ((polling { busy := true }).poll 7).busy = true ∧
    ((polling { busy := true }).poll 7).late = false := ⟨accepted_all (by decide), by decide⟩
/-- A link port in the DOWN, TRAIN and UP state. -/
def port (p st : Nat) : State := (dev.setFld (.linkPStat p) 1 0 st).setFld .linkCfg 1 0 3
theorem witness_LinkPortsTrain :
    (∀ p, p < 2 → (port p 0).fabricOn = true ∧ (port p 0).bit .linkCfg p = true ∧ (port p 0).fld (.linkPStat p) 1 0 = 0 ∧
      (port p 1).fld (.linkPStat p) 1 0 = 1 ∧ (port p 2).portUp p = true ∧ ((port p 2).lport p).tx = []) ∧
    Accepted {} .linkCtrl (0 ||| 1) linked ∧ Accepted {} .linkCtrl (0 ||| 2) dev ∧ ((0 : W32) &&& 0xf &&& ~~~ 1 = 0) :=
  ⟨by decide, accepted_of (by decide), accepted_of (by decide), by decide⟩
theorem arrives {i : Instr} {p ty : Nat} {f : Frame} {s : State} (h : Claims.frameOf i = some (p, ty, f) ∧ p < 2 ∧ s.fabricOn = true ∧ s.portUp p = true ∧
    f.type = ty ∧ (0x0a ≤ ty ∨ f.dest = 0x7f ∨ s.nodeAddr = some f.dest)) : Claims.Arrives i p f s := ⟨h.2.1, h.2.2.1, h.2.2.2.1, ty, h.1, h.2.2.2.2⟩
theorem witness_FramesAreTaken :
    Claims.Arrives (.cmdFrame 0 (frame 1 5 ([0, 0x11] ++ packetBytes {} .nop)) 0 {}) 0 (frame 1 5 ([0, 0x11] ++ packetBytes {} .nop)) linked ∧
    Claims.Arrives (.rplFrame 1 (frame 2 0x7f [0, 1]) false) 1 (frame 2 0x7f [0, 1]) linked ∧ Claims.Arrives (.evtFrame 0 (frame 8 5 [1])) 0 (frame 8 5 [1]) linked ∧
    Claims.Arrives (.synFrame 1 (frame 9 0x7f [1])) 1 (frame 9 0x7f [1]) linked ∧ Claims.Arrives (.enuFrame 0 (frame 0xb 0 [6, 0])) 0 (frame 0xb 0 [6, 0]) linked ∧
    Claims.Arrives (.helFrame 1 (frame 0xc 0 [6, 0])) 1 (frame 0xc 0 [6, 0]) linked ∧ (frame 1 3 []).dest ≠ 0x7f ∧ linked.nodeAddr ≠ some 3 ∧
    dev.portUp 0 = false ∧ Admitted {} (.regWrite Reg.linkSynctx.addr 0) dev ∧ Accepted {} .linkSynctx 0x10000 dev ∧
    Accepted {} .linkSynctx 0xffffff01 linked :=
  ⟨arrives ⟨rfl, by decide⟩, arrives ⟨rfl, by decide⟩, arrives ⟨rfl, by decide⟩, arrives ⟨rfl, by decide⟩, arrives ⟨rfl, by decide⟩, arrives ⟨rfl, by decide⟩, by decide, by decide,
    by decide, admitted_of (by decide), accepted_of (by decide), accepted_of (by decide)⟩
def sending : State := { queuedLink.setQueue 0 { w := 3, c := 3 } with link := { queuedLink.link with unacked := [{ q := 0, seq := 1, till := 3, at_ := some 0 }] } }
def sink : State := (linked.setReg .linkRxq 0x80000000).setReg (.weirCfg 0) 0x80000000 |>.setReg (.weirArea 0) 0x000100c0
theorem witness_RecordsCrossTheLink :
    sending.fabricOn = true ∧ Claims.sends sending 0 ∧ sending.nodeAddr ≠ some (sending.fld .linkCfg 31 26) ∧ sending.portUp 0 = true ∧ sending.portUp 1 = true ∧
    (∃ x ∈ sending.link.unacked, x.q = 0) ∧ Claims.Arrives (.ackFrame 0 (frame 4 5 [0, 1])) 0 (frame 4 5 [0, 1]) sending ∧
    Claims.Arrives (.recFrame 1 (frame 3 5 [0x30, 1, 0, 0]) none 0) 1 (frame 3 5 [0x30, 1, 0, 0]) sink ∧ sink.bit .linkRxq 31 = true ∧ sink.qOn 0 = true :=
  ⟨by decide, ⟨by decide, by decide, by decide, by decide⟩, by decide, by decide, by decide, ⟨_, .head _, rfl⟩, arrives ⟨rfl, by decide⟩, arrives ⟨rfl, by decide⟩,
    by decide, by decide⟩
/-- The hub with its time servo in a state, one measurement to a block. -/
def timed (st : Nat) (es : List Int) : State :=
  { (dev.setFld .timeSrvStat 25 23 st).setFld .timeSrvCfg 27 25 0 with servo := { es := es } }
theorem witness_TimeIsServed :
    (timed 5 []).fabricOn = true ∧ (timed 5 []).fld .timeSrvStat 25 23 = 5 ∧ (timed 0 []).fld .timeSrvStat 25 23 = 0 ∧ 7 ∈ (timed 1 [7]).servo.es ∧
    2 ^ (timed 1 [7]).fld .timeSrvCfg 27 25 ≤ (timed 1 [7]).servo.es.length ∧ (timed 1 [7]).fld .timeSrvStat 25 23 = 1 ∧
    Claims.Arrives (.timFrame 0 (frame 0xa 0x7f (List.replicate 13 0)) 0) 0 (frame 0xa 0x7f (List.replicate 13 0)) linked ∧
    Accepted {} .timeCtrl (0 ||| 4) dev ∧ Admitted {} (.regRead 0xc0114) dev :=
  ⟨by decide, by decide, by decide, .head _, by decide, by decide, arrives ⟨rfl, by decide⟩, accepted_of (by decide), admitted_of (by decide)⟩
/-- The hub whose output 1 is on. -/
def output1 : State := { supplied.setReg (.beoCfg 1) 0x80000000 with beo1 := { on := true } }
theorem witness_OutputsAreHeld :
    (∀ x ∈ [(Reg.beoLoopCfg, (0 : W32), dev), (.beoLoopCfg, 0x80000000, supplied), (.beoLoopCfg, 0, dev.setReg .beoLoopCfg 0x80000000),
      (.beoCfg 0, 0x80000000, supplied), (.beoCfg 1, 0x80000000, dev.setReg .supStatus 0), (.beoCfg 1, 0, output1),
      (.beoCtrl, dev.reg .beoCtrl &&& 0x300 ||| 4, dev), (.beoCtrl, output1.reg .beoCtrl &&& 0x300 ||| 8, output1), (.beoCtrl, 0x20, output1), (.beoCtrl, 2, dev),
      (.beoCtrl, 0x80000000, dev)], Accepted {} x.1 x.2.1 x.2.2) ∧ supplied.bit .supStatus 3 = true ∧ dev.bit .beoCtrl 31 = false ∧
    dev.bit .beoLoopCfg 31 = false ∧ output1.beo1.on = true ∧ output1.fabricOn = true ∧ dev.reg .beoCtrl &&& 0x300 = 0 :=
  ⟨accepted_all (by decide), by decide⟩
theorem witness_MemoriesStayCanonical : State.reset.memoriesWf = true ∧ ∃ t, step State.reset = .next t := ⟨by decide, _, rfl⟩

/-! ### Further clauses of the statements, each at states and operands that meet it -/

/-- The hub whose lease has run out, and one whose owner's lease ended at a check. -/
def lapsedDev (o : Src) : State := { dev with proto := { dev.proto with owner := some o, deadline := 0 } }
theorem witness_SemaphoreIsTakenAndGiven_lapsed :
    (∀ o ∈ [(.port .a : Src), .port .b, .link 63 .b], (lapsedDev o).proto.owner = some o ∧ (lapsedDev o).proto.deadline ≤ (lapsedDev o).clk.frc) ∧
    dev.pwr.st = .run ∧ dev.proto.dev ≠ .boot ∧ dev.clk.frc < dev.proto.deadline ∧
    ({ dev with proto := { dev.proto with owner := none, lapsed := some (.port .a, 1) } } : State).ownsAt {} = true := by decide
theorem witness_RegisterReads_ecc :
    Admitted { ecc := some 0 } (.regRead 0x10000000) dev ∧ Admitted { fix := [0] } (.regRead 0x10080000) dev ∧ dev.allows 0x10080000 3 = true ∧
    dev.allows 0x10000000 3 = false := ⟨admitted_of (by decide), admitted_of (by decide), by decide⟩
theorem witness_WriteChecksRefuse_more :
    (∀ x ∈ [(HostCmd.regWrite (Reg.sluCoefLo).addr 0, dev.setReg .sluCoefAddr 0x2000), (.regWrite 0x10080000 0, devSealed)], Admitted {} x.1 x.2) ∧
    (dev.setReg .sluCoefAddr 0x2000).bit .sluCoefAddr 13 = true ∧ placeOf (Reg.sluCoefLo).addr = some (.reg .sluCoefLo) ∧
    (devSealed.setReg .sealMetro 0xffffffff).sl.sealed = true := ⟨admitted_all (by decide), by decide⟩
theorem witness_WindowWordsReadAndWritten_blocks :
    Admitted {} (.regWriteBlock 0x10080000 2 1 [1, 2]) dev ∧
    (let ws := Claims.blockWords 0x10080000 1 [1, 2]
     let st (k : Nat) : State := Claims.wrote {} ws (dev.ready {} (.regWriteBlock 0x10080000 2 1 [1, 2])) k
     ∀ k, k < 2 → ((st k).checkAt {} 0x10080000 (ws.getD k (0, 0)).2).isNone = true ∧ ((st k).putAt {} k 0x10080000 (ws.getD k (0, 0)).2).2.isNone = true) ∧
    (dev.ready {} (.regWriteBlock 1 1 0 [0])).checkAt {} 1 0 ≠ none ∧
    (∀ k, k < 2 → ((Claims.readTill {} 0x40000 0 (dev.ready {} (.regReadBlock 0x40000 2 0)) k).readAt {} true k (blockAddr 0x40000 0 k)).2.isOk = true) := ⟨admitted_of (by decide), by decide, by decide, by decide⟩
/-- A chain whose over-range comparator flags. -/
def flagging : State := dev.setCh 0 { st := .running, live := true, ovlNow := true, ovrs := [(0, none)] }
theorem witness_StickyBitsAreCleared_ovl :
    Claims.writes (.clrOvl {} 0) {} .afeCtrl 1 ∧ Accepted {} .afeCtrl 1 flagging ∧ (flagging.ch 0).ovlNow = true ∧
    (Claims.cleared .afeCtrl 1 dev).isSome = true := ⟨.inr rfl, accepted_of (by decide), by decide, by decide⟩
/-- The hub with a reply waiting at port A, the transfers of a read frame and of a write frame, and port A on I3C. -/
def replying : State := { dev with proto := { dev.proto with replies := [aReply], tags := [(5, .port .a)] } }
theorem witness_PacketsAndRepliesLeave_ports :
    dev.portLive .a = true ∧ dev.portOpen .a = true ∧ (dev.transfers .a []).writing .a = true ∧ dev.portLive .b = true ∧
    (powered .hold).portLive .a = false ∧ (dev.transfers .a [{ first := 0 }]).writing .a = false ∧
    (replying.transfers .a [{ first := 0, got := 9 }]).sending .a = true ∧ (dev.transfers .a [{ first := 0 }]).sending .a = false ∧
    dev.firstReply .a = none ∧ 8448 ≤ ((dev.transfers .a [{ got := 8448 }]).bus .a).rx := by decide
theorem witness_NodesAreReached_ports :
    (linked.setFld (.linkPStat 0) 1 0 0).portUp 0 = false ∧ (linked.setFld (.linkPStat 0) 1 0 0).portUp 1 = true ∧
    (∀ x ∈ linked.proto.longs, x.2 ≠ .linkEnum) ∧ (∃ x ∈ (withLong .linkEnum).proto.longs, x.2 = .linkEnum) ∧
    opcodeOf (.chanSync 1) = 0x22 := by decide
/-- A CLOCK_SET in one of its phases. -/
def clocking (p : ClkPhase) (pll : Bool) (since : Nat) : State :=
  { withLong .clockSet with clk := { dev.clk with frc := 49152, op := some { hdr := some { tag := 5 }, pll := pll, ext := true, ndiv := 24, msel := 3, phase := p, since := since } } }
theorem witness_ClocksAreSet_steps :
    (∀ p ∈ [ClkPhase.leave, .startXo, .qualify, .lock, .switch], ((clocking p true 0).clk.op.map (·.phase)) = some p) ∧
    (clocking .switch false 0).proto.longs = [({ tag := 5 }, .clockSet)] ∧ 0 + 49152 ≤ (clocking .qualify true 0).clk.frc ∧
    (clocking .qualify true 1).clk.frc < 1 + 49152 ∧ (clocking .switch false 0).toEdge.onPll = false ∧
    ({ clocking .switch false 0 with regs := devPll.regs } : State).toEdge.onPll = true ∧
    dev.clockBudget 0 0 false = false ∧ dev.clockBudget 1 0 false = false := by decide +kernel
theorem witness_QueuesAreRead_halts :
    (dev.setReg (.weirArea 0) 0x00010000).allows ((dev.setReg (.weirArea 0) 0x00010000).qAddr 0 0) 1 = false ∧
    (replying.transfers .a [{ first := 0 }]).sending .a = true ∧ replying.proto.replies = [aReply] := by decide
theorem witness_NodesAreEnumerated_timeout :
    ({ withLong .linkEnum with clk := { dev.clk with frc := 245760 } } : State).link.enumAt + 245760 ≤ 245760 ∧
    (withLong .linkEnum).clk.frc < (withLong .linkEnum).link.enumAt + 245760 := by decide
theorem witness_TheHubIsSealed_completion :
    (withLong .seal).sl.refValid = false ∧ (withLong .seal).auditCount < 2048 ∧ (withLong .seal).fabricOn = true ∧ dev.sl.calcPend = false ∧
    ({ dev with sl := { dev.sl with calcPend := true } } : State).sl.calcPend = true ∧ true ≠ ({ dev.sl with jumper := false } : SealS).jumper := by
  decide +kernel
theorem witness_PowerStatesAreEntered_more :
    (let s : State := { entering 3 with pwr := { (entering 3).pwr with waitReply := some (.port .a, 5), waitAt := 0 }, clk := { dev.clk with frc := 10 ^ 9 } }
     s.pwr.waitReply = some (.port .a, 5) ∧ s.pwr.waitAt + s.fld .pwrCfg 7 0 * 24576 ≤ s.clk.frc) ∧
    ({ entering 3 with regs := (dev.setReg .beoLoopCfg 0x80000000).regs } : State).bit .beoLoopCfg 31 = true ∧
    (((entering 1).setReg .supStatus 0x1f).setPoll 7 { busy := true }).agrees {} 1 0x02 = true ∧
    (entering 3).agrees { moverBusy := true } 3 0x03 = false ∧ (entering 4).bit .pwrMode 4 = false ∧
    ((entering 3).setReg .pwrMode 0x13).bit .pwrMode 4 = true ∧ wakeActs (targetState 3) 5 = true := by decide
theorem witness_EbbCycles_more :
    (let s := ebbing.setReg .pwrWakeEn 0x40
     s.bit .pwrWakeEn 6 = true ∧ s.ebb.wakeAfter = none ∧ ebbMonitor (.sat 3) = true ∧
     (s.setDrv 3 { on := true }).judged { kind := .sat 3, tM := 0, tF := 0, q := 10, sup := 0 } = true ∧ s.faultOn (faultCode (.sat 3)) = false) ∧
    ({ ebbing with ebb := { ebbing.ebb with convAt := none } } : State).ebb.convAt = none ∧ ebbing.clk.mclkPh < ebbing.tPerM ∧
    (powered .ebb).pwr.waking = none := by decide
theorem witness_ResetsStartTheBoot_save :
    (∃ t c, ({ dev with clk := { dev.clk with savedAt := some 0, copyA := some { seq := 1 } } } : State).clk.savedAt = some t ∧ dev.clk.frc - t < 50 ∧
      ({ dev with clk := { dev.clk with savedAt := some 0, copyA := some { seq := 1 } } } : State).newestCopy = some c) ∧
    ({ also := [0] } : Env).also ≠ [] ∧ (∀ c, dev.newestCopy = some c → c.seq + 1 < 2 ^ 32) :=
  ⟨⟨0, { seq := 1 }, by decide⟩, by decide, fun c h => by simp [show dev.newestCopy = none from by decide] at h⟩
theorem witness_TheBootEnds_save :
    ({ dev with clk := { dev.clk with lf := 32768 } } : State).clk.saveLf + 32768 ≤ 32768 ∧ dev.pwr.st = .run ∧ dev.proto.dev ≠ .fault ∧
    (powered .hold).fabricOn = false ∧ State.reset.proto.owner.isSome = false := by decide
theorem witness_SuppliesChange_falls :
    let s := ({ supplied with proto := { dev.proto with owner := some (.port .b) } } : State).setBit (.hostCfg 0) 2 true
    (s.reg .supStatus).getLsbD 3 = true ∧ (((0x16 : BitVec 5).setWidth 32 ||| 1 : W32)).getLsbD 3 = false ∧
    ((0x1d : BitVec 5).setWidth 32 ||| 1 : W32).getLsbD 1 = false ∧ s.proto.owner = some (.port .b) ∧
    ((0x0f : BitVec 5).setWidth 32 ||| 1 : W32).getLsbD 4 = false ∧ s.bit (.hostCfg 0) 2 = true := by decide
theorem witness_ClocksAreLost_more :
    ({ clocking .lock true 0 with regs := devPll.regs } : State).onPll = true ∧ ({ dev.clk with lfQual := true, lf := 32768 } : Clk).lfQualAt + 32768 ≤ 32768 ∧
    dev.clk.lf < dev.clk.lfQualAt + 32768 := by decide
theorem witness_TheTickTurns_owed :
    (let s := busyChain 23; (s.ch 23).st ≠ .idle ∧ (s.ch 23).live = true ∧ (s.ch 23).lastB + s.decimD 23 ≤ s.eng.tickAt + s.eng.div) ∧
    (∀ n, n < 24 → (dev.ch n).st = .idle) ∧ dev.eng.jobs = [] := by decide
theorem witness_ChainsProduceOutputs_swaps :
    (let s := dev.setCh 23 { st := .settling, swap := true, swapFrom := 5, origin := 5 }
     (s.ch 23).live = false ∧ (s.ch 23).swap = true ∧ (s.ch 23).swapFrom ≤ (s.ch 23).origin) ∧
    ((dev.setCh 23 { st := .settling, origin := 128 }).ch 23).swapAt = none := by decide
/-- The hub with one job of a source on lane 0, and a chain set for a FIR or a rank filter. -/
def lane0 (st : Stage) : State :=
  { ((busyChain 0).setReg (.sluFir 0) 0x80000000).setReg (.sluRank 0) 0x00000301 with
    eng := { dev.eng with jobs := [{ source := 0, tick := 0, b := 0, meas := {}, flags := 0, wins := [], prio := false, todo := [{ st := .scl }], runs := [{ st := st, lane := some 0 }] }] } }
theorem witness_TheEngineWorks_filters :
    (lane0 .fir).bit (.sluFir 0) 31 = true ∧ (lane0 .rank).fld (.sluRank 0) 3 0 < (lane0 .rank).fld (.sluRank 0) 11 8 ∧
    ((lane0 .iir).eng.jobs.map fun j => (j.itemOn 0).isSome) = [true] ∧ ((lane0 .fir).ch 0).st ≠ .idle ∧ dev.eng.jobs = [] ∧ unitCount dev.weir.mv0 < 64 ∧
    (∀ j ∈ dev.eng.jobs, j.itemOn 3 = none) := by decide
theorem witness_TheEngineWorks_untaken : Claims.Untaken dev ∧ Claims.Calm dev :=
  ⟨⟨by decide, by decide, by decide, by decide, by decide, by decide, by decide, by decide⟩, by decide, by decide, by decide⟩
theorem witness_BanksAreSwapped_more :
    Accepted {} (.sluBank 0) (0 ||| 0x80000000) dev ∧ dev.chainOk 0 1 = true ∧ (dev.ch 0).swap = false ∧
    ((dev.setCh 0 { st := .running, swap := true }).ch 0).swap = true ∧ ((dev.setCh 0 { st := .running, swapAt := some 5 }).ch 0).swapAt = some 5 ∧
    (busyChain 0).chBusy 0 = true ∧ (busyChain 0).inBlock 0 0 = (busyChain 0).inBlock 0 0 := ⟨accepted_of (by decide), by decide +kernel⟩
/-- The hub with chain 23 in group 7 and a request for its sync. -/
def synced (c : Chain) : State := { (dev.setCh 23 c).setReg (.sluRate 23) 0x000f0000 with syncs := [(7, false, 1)] }
theorem witness_GroupsAreSynced_chains :
    (synced { st := .running, live := true }).bit (.sluRate 23) 19 = true ∧ (synced {}).fld (.sluRate 23) 18 16 = 7 ∧
    0 < (synced { st := .running, live := true }).decimD 23 ∧ (synced { st := .running, swap := true }).syncs = [(7, false, 1)] ∧
    ({ synced {} with syncLast := [(7, 0)] } : State).syncLast = [(7, 0)] ∧ supplied.bit .supStatus 2 = true ∧ dev.bit .sluSyncCtrl 4 = false ∧
    ({ dev with clk := { dev.clk with mclk := 16 } } : State).clk.mclk = 16 ∧ cellGet dev.syncLast (dev.fld .sluSyncCtrl 2 0) 0 = 0 := by decide
theorem witness_FaultsAreRecorded_more :
    (flagging.ch 0).st ≠ .idle ∧ flagging.bit .afeOvl 0 = false ∧ (dev.ch 23).st = .idle ∧
    driven.judged { kind := .sat 3, tM := 0, tF := 0, q := 1, sup := 250000 } = true ∧
    driven.judged { kind := .sat 3, tM := 0, tF := 0, q := 0, sup := 250000 } = false ∧
    (∀ f ∈ dev.mon.faults, f.code ≠ 0x1471) ∧ 60 ≤ dev.fld .monTempCfg 7 0 ∧ dev.pwr.st = .run := by decide
theorem witness_ExcitationWritesAreHeld_ports :
    (ported 2).fld (.apCfg 47) 2 0 = 2 ∧ (∀ n, n < 24 → (ported 2).chBusy n = false) ∧ (ported 2).drvEnabled 0 = false ∧ (ported 3).srcEnabled 0 = false ∧
    (dev.ch 16).st = .idle ∧ dev.chBusy 16 = false ∧ chopFits 6144 dev.div = true ∧ dev.fld (.monExcWin 3) 11 0 = dev.fld (.monExcWin 3) 11 0 := by
  decide
theorem witness_DriversMove_overload :
    (({ on := true } : Driver).overload10ms 180000 [{ start := 0, stop := 61440, load := 180000 }]).2 = some 61440 ∧
    (({ on := true } : Driver).overload10ms 180000 [{ start := 0, stop := 61439, load := 180000 }]).2 = none ∧
    (({ on := true } : Driver).overload10ms 180000 [{ start := 0, stop := 61440, load := 179999 }]).2 = none ∧
    (let s := dev.setReg .supStatus 0x1f |>.setDrv 3 { en := true, hiccup := true }
     (s.drv 3).en = true ∧ (s.drv 3).hiccup = true ∧ (s.drv 3).lockout = false ∧ s.bit .supStatus 3 = true ∧ s.bit .monTempStatus 2 = false) ∧
    (dev.drv 3).on = false ∧ dev.bit .monTempStatus 1 = false ∧ (dev.setReg .monTempStatus 2).bit .monTempStatus 1 = true := by decide
theorem witness_PeriodsAreLatched_edges :
    (let s := dev.setDet 7 { pend := [(1, true)], n := 1 } |>.setReg (.dtCfg 7) 0xa0000000
     (s.det 7).pend = [(1, true)] ∧ s.bit (.dtCfg 7) 31 = true ∧ s.fld (.dtCfg 7) 29 28 = 2 ∧ s.fld (.dtCfg 7) 25 24 = 0 ∧ (s.det 7).n ≠ 0) ∧
    (let s := dev.setDet 7 { pend := [(1, true)] } |>.setReg (.dtCfg 7) 0xa2000000
     2 ≤ s.fld (.dtCfg 7) 25 24 ∧ (s.det 7).tLast = none ∧ ((s.advanceTo 1).detLatchTo 7 1).stillDue (s.fld (.dtCfg 7) 13 8) 1 (.det 7) = false) ∧
    (latching.stat 31).pend = [(1, false)] ∧ (latching.stat 31).run = true ∧ ((dev.setStat 0 { pend := [(1, true)] }).stat 0).run = false := by
  decide
theorem witness_PeriodsAreLatched_idle : Claims.Idle dev := ⟨by decide, ⟨by decide, by decide, by decide⟩, by decide⟩
/-- The hub with VIO_S present and unit 15 at a gate. -/
def gated (sel : Nat) : State := ((melded 1 {}).setReg .supStatus 0x1f).setReg (.meldGate 15) (BitVec.ofNat 32 (sel + 0x800))
theorem witness_MeldUnitsAreSet_gates :
    (∀ k ∈ [1, 8, 9, 16, 17, 32], (gated k).bit (.meldCfg 15) 31 = true ∧ (gated k).bit .supStatus 2 = true ∧ (gated k).fld (.meldGate 15) 5 0 = k) ∧
    (gated 9).bit (.routeEvt 0) 31 = false ∧ ((gated 9).setReg (.routeEvt 0) 0x80000000).bit (.routeEvt 0) 31 = true ∧
    (let s := gated 17; let t := { s with route := { s.route with latch := 1 } }
     s.gateSignal 15 ≠ t.gateSignal 15) ∧ (dev.reg (.meldCfg 15)).getLsbD 31 = false := by decide
theorem witness_MeldUnitsEvaluate_more :
    (melded 3 { buf := [anInput], lag := [5] }).fld (.meldCfg 15) 11 8 = 3 ∧ (melded 7 { buf := [anInput], ctxs := [{ ts := -1, tm := {}, n := 1 }] }).reg (.meldP3 15) = 0 ∧
    (-1 : Int) + ((melded 7 {}).reg (.meldP0 15)).toNat + ((melded 7 {}).reg (.meldP1 15)).toNat < anInput.frc ∧
    8 ≤ ((melded 7 { ctxs := List.replicate 8 { ts := 0, tm := {} } }).meld 15).ctxs.length ∧
    anInput.flags &&& BitVec.ofNat 6 ((melded 1 {}).fld (.meldCfg 15) 21 16) = 0 ∧ dev.bit (.meldCfg 15) 31 = false := by decide
/-- An event whose cycle let it pass, with room in its channel's BUDGET. -/
def passed (cc : Nat) : REvent := { cc := cc, seen := some (true, 1, {}) }
theorem witness_EventsAreRouted_firings :
    Claims.Passes (firing 0 0x80000102) 0 ∧ (passed 0).seen = some (true, 1, {}) ∧ (firing 0 0x80000102).fld (.routeStat 0) 7 0 < 1 ∧
    (firing 0 0x80000180).targets 0 = [96] ∧ ((firing 0 0x80000180).setReg (.routeCh 1) 0x80000180).targets 1 ≠ [] ∧
    4 ≤ ((dev.setMeld 1 { arms := List.replicate 4 (0, {}) }).meld 1).arms.length ∧ (dev.queue 15).closePend = false ∧
    (∀ j, j < 32 → (dev.stat j).pend.any (·.2) = false) ∧ dev.remoteBusy 3 = false ∧ dev.proto.dev = .config ∧
    (dev.startRefusal 0).isNone = true ∧ dev.route.startBusy.getLsbD 3 = false ∧ supplied.bit .supStatus 2 = true := by
  refine ⟨⟨.inl (by decide), by decide⟩, ?_⟩
  decide +kernel
/-- The hub on the PLL's side of an in-band interrupt: port A on I3C, its target's source 9 deliverable, 1 ms after the last. -/
def inBand : State :=
  { (requested 0).setReg (.irqCtrl 0) 1 with hostIf := { dev.hostIf with strapA := .high }, clk := { dev.clk with frc := 24576 } }
theorem witness_InterruptsAreSet_inBand :
    inBand.hostIf.strapA = .high ∧ inBand.bit (.irqCtrl 0) 0 = true ∧ inBand.irq.ibiA + 24576 ≤ inBand.clk.frc ∧ inBand.irq.claimedA = false ∧
    (powered .doze).pwr.st = .doze ∧ (requested 2).fabricOn = true := by decide
theorem witness_QueuesFill_room :
    (storing.queue 0).closePend = false ∧ (storing.queue 0).markValid = false ∧ aUnit.recs.length = 1 ∧
    (let s := { packed.setReg (.weirPkt 0) 0x20005 with weir := { packed.weir with mv0 := [(0, aUnit)] } }
     s.unitCloses 0 aPkt aUnit = false ∧ aPkt.part.length = 6 * aPkt.count % 8 ∧ (s.queue 0).f ≤ aPkt.slot) ∧
    Claims.MayClose packed 0 aPkt ∧ (packed.queue 0).thrHigh = packed.thrSide 0 ∧ packed.weir.mv0.head?.map (·.1) ≠ some 0 ∧
    storing.weir.mv0.head?.map (·.1) = some 0 ∧ 512 * (dev.setReg (.weirCfg 0) 0x80000000).fld (.weirArea 0) 25 16 < 3 ∧
    ((storing.setQueue 0 { whalt := true }).queue 0).whalt = true := by
  refine ⟨by decide, by decide, by decide, by decide, ⟨by decide, fun _ => by decide⟩, by decide⟩
theorem witness_QueueCommandsAreTaken_close :
    Claims.MayClose packed 0 aPkt ∧ (packed.queue 0).thrHigh = packed.thrSide 0 ∧
    (∃ y, Claims.controlled (packed.queue 0) (some 0) 0x6 false false false = .ok y) ∧
    Claims.controlled (packed.queue 0) none 0x40 false false false = .error .markStale :=
  ⟨⟨by decide, fun _ => by decide⟩, by decide, ⟨_, rfl⟩, rfl⟩
theorem witness_PortsAreOperated_more :
    (∀ x ∈ replying.proto.replies, x.src = .port .a) ∧ Accepted {} (.hostCtrl 0) (0 ||| 2) replying ∧
    ((replying.transfers .a [{ first := 0, got := 15 }]).bus .a).pos ≠ 0 ∧ supplied.bit .supStatus 1 = true ∧ supplied.hostIf.resync = false ∧
    bused.proto.dev ≠ .boot := ⟨by decide, accepted_of (by decide), by decide⟩
theorem witness_PollsRun_done :
    (let s := (polling { busy := true }).setReg (.sbusSpXtr 7) 0x04080400
     ((s.poll 7).busy = true ∧ bits (s.reg (.sbusSpXtr 7)).toNat 21 19 = 1 ∧ bits (s.reg (.sbusSpXtr 7)).toNat 12 7 = 8 ∧
      bits (s.reg (.sbusSpXtr 7)).toNat 18 13 + 8 ≤ 8 * ([7] : List Byte).length ∧ bits (s.reg (.sbusSpXtr 7)).toNat 26 26 = 1)) ∧
    ((polling { skip := true }).poll 7).skip = true ∧ (dev.setReg .supStatus 0).bit .supStatus 2 = false := by decide
/-- A link port after some time in its state, and with a frame that waits. -/
def waited (p st t : Nat) : State := { port p st with clk := { dev.clk with frc := t } }
def waiting (f : Frame) : State := (port 1 2).setLport 1 { tx := [(false, none, f)] }
theorem witness_LinkPortsTrain_timers :
    (∀ p, p < 2 → ((waited p 0 245760).lport p).since + 245760 ≤ (waited p 0 245760).clk.frc ∧
      (waited p 1 2457).clk.frc < ((waited p 1 2457).lport p).rateAt + 2458 ∧
      (let s := (waited p 1 2458).setFld (.linkPStat p) 5 4 1
       s.fld (.linkPStat p) 1 0 = 1 ∧ s.fld (.linkPStat p) 5 4 ≠ 0 ∧ (s.lport p).rateAt + 2458 ≤ s.clk.frc) ∧
      ((waited p 1 24576).lport p).since + 24576 ≤ (waited p 1 24576).clk.frc ∧
      (let s := (waited p 2 2458).setLport p { stuck := some 0 }
       s.portUp p = true ∧ (s.lport p).stuck = some 0 ∧ 0 + 2458 ≤ s.clk.frc)) ∧
    16 < (0 + 256 - 239 % 256) % 256 ∧ (waiting (frame 3 3 [0x30, 1, 0, 0])).portUp 1 = true ∧
    Claims.credits (frame 3 3 [0x30, 1, 0, 0]) = 1 ∧ Claims.NoCmd 1 (waiting (frame 3 3 [0x30, 1, 0, 0])) := by
  refine ⟨by decide, by decide, by decide, by decide, ?_⟩
  unfold Claims.NoCmd
  decide
theorem witness_FramesAreTaken_more :
    (frame 5 3 []).type ∉ frameTypes ∧ (frame 1 3 [0, 1]).type ∈ frameTypes ∧ (linked.setFld (.linkPStat 1) 1 0 0).portUp 1 = false ∧
    ({ linked with proto := { dev.proto with late := [(3, 5, .a)] } } : State).proto.late = [(3, 5, .a)] ∧
    (withLong (.forward 3 0 0)).proto.longs = [({ tag := 5 }, .forward 3 0 0)] ∧ 64 ≤ ((64 : Byte)).toNat ∧
    timeDiff (linked.now.t) (2 ^ 64 - 1) ≥ 0 := by decide
theorem witness_RecordsCrossTheLink_more :
    (let s := { sending with clk := { dev.clk with frc := 10 ^ 9 } }
     ∃ x ∈ s.link.unacked, x.q = 0 ∧ ∃ t, x.at_ = some t ∧ t + 4 * s.fld .cmdLink 15 0 * 24576 ≤ s.clk.frc) ∧
    sending.link.unacked = [] ++ { q := 0, seq := 1, till := 3, at_ := some 0 } :: [] ∧
    (sink.queue 0).pkt = none ∧ (sink.queue 0).whalt = false ∧ (sink.queue 0).f ≤ (sink.queue 0).w ∧ sink.portUp (Claims.towards sink 3) = true ∧
    (∀ j, j ≤ 3 → sink.allows (sink.qAddr 0 j) 0 = true) ∧ 3 ≤ 512 * sink.fld (.weirArea 0) 25 16 :=
  ⟨⟨_, .head _, rfl, 0, rfl, by decide⟩, rfl, by decide⟩
theorem witness_TimeIsServed_more :
    (timed 5 []).servo.sent = none ∧ (timed 3 [7, -9]).fld .timeSrvStat 25 23 = 3 ∧ ((timed 1 [7]).fld .timeSrvCfg 11 0 : Int) < |(10 ^ 9 : Int)| ∧
    (timed 1 []).fld .timeSrvPri 7 0 < 255 ∧
    (let s := { timed 4 [] with clk := { dev.clk with frc := 10 ^ 12 } }
     s.servo.since + 2 * (s.fld .timeSrvCfg 15 12 * 2 ^ s.fld .timeSrvCfg 30 28 * 24576) ≤ s.clk.frc) ∧
    Accepted {} .timeCtrl (0 ||| 4) (timed 3 []) := ⟨by decide, by decide, by decide, by decide, by decide, accepted_of (by decide)⟩
/-- The hub whose loop drives output 1. -/
def looping (st : Nat) : State := { supplied.setReg .beoLoopCfg 0xc0000000 with loop := { st := st, evHold := true }, beo1 := { on := true, ticks := 1 } }
theorem witness_OutputsAreHeld_loop :
    (looping 2).bit .beoLoopCfg 31 = true ∧ (looping 2).fld .beoLoopCfg 30 30 = 1 ∧ (looping 3).loop.evHold = true ∧
    ((looping 3).setReg (.beoCfg 1) 0x100).fld (.beoCfg 1) 23 8 = 1 ∧ (looping 3).beo1.ticks = 1 ∧
    (dev.setReg .beoCtrl 0x80000000).bit .beoCtrl 31 = true := by decide

/-! ### Worked examples of the spec -/

/-- 03_supply_clock_start.md, *time after a brown-out* (R87): OFFSET is 5,001,249,949,991.81 ns, which the spec rounds to 0.01 ns. -/
theorem test_time_after_brown_out :
    let s : State := { dev with clk := { dev.clk with frc := 1229, lf := 40960 } }
    |s.estimate { ts := 5000000000000, items := { rate := 1099512 } } * 100 - 500124994999181 * 65536| ≤ 65536 := by
  intro s
  simp only [State.estimate, looseDiv]
  generalize Sys2Proof.roundsUp _ _ = b
  cases b <;> decide +kernel
/-- 13_command_protocol.md, *a REG_READ packet*. -/
theorem test_reg_read_packet :
    (packetBytes { tag := 5 } (.regRead 0x5031c)).take 10 = [0xa5, 7, 0, 0x40, 5, 0x10, 0x1c, 3, 5, 0] ∧
    (packetBytes { tag := 5 } (.regRead 0x5031c)).length = 12 := by decide
/-- 12_weir_queues.md, *a packet of five records*. -/
theorem test_length_slot : lengthSlot 0x2a 5 false false false false false = 0x2a0000050600001e := by decide
/-- 00_scope.md, *decoding a record*: source 3, UNS, value 0x0_FE00_0000. -/
theorem test_record_word :
    recBytes { source := 3, flags := flagUNS, value := 0x0fe000000 } = leBytes 6 0x0e00fe000000 ∧
    recBytes { source := 3, flags := flagUNS, value := 0xfe0000000 } = leBytes 6 0x0e0fe0000000 := by decide
/-- A hub whose 24 chains are those of 01_architecture_and_tick.md, *how many 64 kS/s chains fit*, with FIRs of T taps; the first `n` run. -/
def fast (n t : Nat) : State := (List.range 24).foldl (fun s k =>
  let s := ((s.setReg (.sluCic k) 0x00240018).setReg (.sluFir k) (BitVec.ofNat 32 (0x80000000 + t * 4096))).setReg (.sluRank k) 0x80000502
  let s := (s.setReg (.sluIir k) 0x21000000).setReg (.sluRate k) 6
  if k < n then s.setCh k { st := .running } else s) devPll
theorem test_loads :
    (fast 0 511).chainCost 0 = 36608 ∧ (fast 0 511).capacity = 786432 ∧ (fast 20 511).loadP = 733184 ∧
    (fast 20 511).loadWith (fun n => n == 20) = 769792 ∧ overBudget 769792 786432 = true ∧ overBudget 733184 786432 = false ∧
    (fast 0 255).chainCost 0 = 20224 := by decide +kernel
/-- 14_host_and_sensor_buses.md, *a digital temperature sensor on SP0*: two bytes, most significant first, signed 16 bits. -/
theorem test_sensor_reading :
    ((dev.setReg (.sbusSpXtr 0) (BitVec.ofNat 32 (2 ^ 26 + 2 ^ 25 + 2 * 2 ^ 19 + 16 * 2 ^ 7))).pollValue 0 [0x0c, 0x80]).2 = 0x0c8000000 := by
  decide +kernel
/-- 08_results_linearization_detectors.md, *the 3-wire Pt100*: R = 100 Ω, x = 0.125, is 0.0 °C; one temperature word is left to the search. -/
theorem test_pt100_at_zero :
    |solveWord (fun y => curveInput 1 (mkRat y (2 ^ 24))) (1 / 8) 36 (-200 * 2 ^ 24) (850 * 2 ^ 24 + 1)| ≤ 1 := by decide +kernel
theorem witness_SuppliesChange_balls :
    (dev.setReg .supStatus 1).bit .supStatus 1 = false ∧ (dev.setReg .supStatus 1).bit .supStatus 2 = false ∧ State.reset.proto.dev = .boot ∧
    State.reset.bit .supStatus 1 = true ∧ State.reset.bit .supStatus 2 = true ∧ dev.proto.dev ≠ .boot ∧ dev.pwr.st ≠ .off ∧
    dev.bit .supStatus 2 = true ∧ dev.bit (.routeEvt 7) 31 = false ∧ (dev.setReg (.routeEvt 7) 0x80000000).bit (.routeEvt 7) 31 = true ∧
    (dev.setReg (.routeEvt 7) 0x80000000).bit (.routeEvt 7) 26 = false := by decide

/-! ### Hypotheses of the parts of the statements -/

/-- The hub with one item of a stage on lane 0: of chain 0, or of derived stream 0. -/
def aRun (st : Stage) : Run := { st := st, lane := some 0, win := [{ v := 3 }, { v := 1 }, { v := 2 }] }
def aJob (src : Nat) (st : Stage) : Job := { source := src, tick := 0, b := 8, val := 5, todo := [{ st := .scl }], runs := [aRun st] }
def onLane (src : Nat) (st : Stage) (s : State) : State := { s with eng := { s.eng with jobs := [aJob src st] } }
/-- The hub with stages of chain 0, whose scaling has an input. -/
def waitingItem (st : Stage) : State :=
  { (((dev.setReg (.sluFir 0) 0x80003000).setReg (.sluRank 0) 0x00000301).setReg (.sluIir 0) 0x01000000) with
    eng := { dev.eng with jobs := [{ source := 0, tick := 0, b := 8, todo := [{ st := st, inp := [{ v := 1 }, { v := 2 }, { v := 3 }] }] }] } }
theorem witness_TheEngineWorks_items :
    (∀ st ∈ [Stage.fir, .rank, .hb1, .iir, .lin, .ds, .det 7, .stat 31, .scl], Claims.OnLane 0 (onLane 0 st dev) [] (aJob 0 st) [] (aRun st)) ∧
    (aJob 0 .fir).ripe = false ∧ ((busyChain 0).ch (aJob 0 .fir).source).st ≠ .idle ∧ dev.rankK 0 < (aRun .rank).win.length := by
  refine ⟨fun st m => ⟨(by decide : dev.fabricOn = true), rfl, by simp, ?_⟩, by decide⟩
  revert st
  decide
theorem witness_TheEngineWorks_starts :
    (∀ st ∈ [Stage.fir, .rank, .hb1, .scl], ((waitingItem st).eng.jobs[0]?.bind fun j => (waitingItem st).nextLeg 0 j).isSome = true) ∧
    (waitingItem .scl).decP 0 ≠ 0 := by decide
theorem witness_TheEngineWorks_outputs :
    let j : Job := { source := 0, tick := 0, b := 8, todo := [{ st := .fir }, { st := .scl }], runs := [{ st := .fir }] }
    j.todo = [] ++ { st := .fir } :: { st := .scl } :: [] ∧ (j.runs.filter fun r => r.st == .fir).takeWhile (fun r => r.lane.isNone) = j.runs := by
  decide
/-- The hub with a curve at chain 0. -/
def curved (c : Nat) : State := dev.setReg (.linCfg 0) (BitVec.ofNat 32 c)
theorem witness_TheEngineWorks_curves :
    (∀ c, c < 16 → c ∉ [6, 7] → (curved c).curve 0 = c) ∧ 0 < (aJob 0 .lin).val ∧ (curved 8).coldJunction 0 (aJob 0 .lin) = none := by decide
/-- The hub with derived stream 0 on chain 2, whose output of the boundary is kept. -/
def aPast : Past := { b := 8, val := 5, flags := 0, meas := {}, measF := 0 }
def derived : State := { dev.setDsr 0 { slots := [(0, { en := true, src := 2, w := 1 })] } with past := [(2, [aPast])] }
theorem witness_TheEngineWorks_derived :
    derived.dsSlots 0 = [(0, { en := true, src := 2, w := 1 })] ∧ (aJob 24 .ds).source = 24 + 0 ∧ derived.pastAt 2 (aJob 24 .ds) = some aPast := by decide
theorem witness_PeriodsAreLatched_inputs :
    (∀ m, m < 3 → let s := dev.setReg (.dtCfg 7) (BitVec.ofNat 32 (0x80000000 + m * 0x1000000 + 0x10000))
      s.bit (.dtCfg 7) 31 = true ∧ (s.det 7).pend = [] ∧ (s.det 7).latches = [] ∧ s.fld (.dtCfg 7) 25 24 = m ∧ s.fld (.dtCfg 7) 29 28 = 0) ∧
    (let s := dev.setStat 31 { run := true }
     (s.stat 31).pend = [] ∧ (s.stat 31).ending = [] ∧ (s.stat 31).run = true ∧ (s.stat 31).start < (aJob 0 (.stat 31)).b ∧
       (s.stat 31).cur.n < 4194303 ∧ s.flagsNow (aJob 0 (.stat 31)) &&& BitVec.ofNat 6 (s.fld (.statCfg 31) 29 24) = 0) := by decide

theorem witness_PeriodsAreLatched_waits :
    (let s := { dev with clk := { dev.clk with mclk := 0 } }.setStat 31 { pend := [(1, false)], run := true }
     (s.stat 31).edge ≠ some 1 ∧ (s.advanceTo 1).stillDue (s.fld (.statCfg 31) 5 0) 1 (.stat 31) = false) ∧
    (let s := (busyChain 0).setStat 0 { pend := [(1, false)], run := true } |> fun s => { s with eng := { s.eng with jobs := [aJob 0 .fir] } }
     (s.stat 0).run = true ∧ ∀ p ∈ ([] : List (Nat × Bool)), 1 < p.1) := by decide
/-- Unit 15 with a record before it, and what else its parts of the statement ask. -/
def unit (ty : Nat) (cfg p1 p2 : Nat) (x : Meld) : State :=
  (((melded ty x).setReg (.meldCfg 15) (BitVec.ofNat 32 (2 ^ 31 + ty * 256 + cfg))).setReg (.meldP1 15) (BitVec.ofNat 32 p1)).setReg (.meldP2 15) (BitVec.ofNat 32 p2)
def inBuf : Meld := { buf := [anInput] }
theorem witness_MeldUnitsEvaluate_skips :
    (∀ ty, ty < 7 → Claims.OneRecord (unit ty 0 0 0 inBuf) 15 anInput ∧ Claims.Reaches1 (unit ty 0 0 0 inBuf) 15 anInput) ∧
    ¬ Claims.Reaches1 (unit 1 0x10000000 0 0 inBuf) 15 anInput ∧ ¬ Claims.Excluded (unit 1 0 0 0 inBuf) 15 anInput ∧
    Claims.Excluded (unit 3 0x10000 0 0 { buf := [{ anInput with flags := 1 }] }) 15 { anInput with flags := 1 } ∧
    Claims.Shut (((unit 1 0 0 0 inBuf).setReg (.meldGate 15) 17)) 15 0 ∧ ((unit 5 0 0x30000 0 inBuf).meld 15).lag.length < (unit 5 0 0x30000 0 inBuf).fld (.meldP1 15) 27 16 := by
  have h : ∀ ty, ty < 7 → (unit ty 0 0 0 inBuf).bit (.meldCfg 15) 28 = false ∧ (unit ty 0 0 0 inBuf).fld (.meldGate 15) 5 0 = 0 := by decide
  refine ⟨fun ty q => ⟨?_, fun e => absurd e (by simp [(h ty q).1]), fun e => e.1 (h ty q).2⟩, ?_, by unfold Claims.Excluded; decide, by unfold Claims.Excluded; decide, ?_, by decide⟩
  · have : ∀ ty, ty < 7 → 15 < 16 ∧ (unit ty 0 0 0 inBuf).fabricOn = true ∧ (unit ty 0 0 0 inBuf).bit (.meldCfg 15) 31 = true ∧
        ((unit ty 0 0 0 inBuf).meld 15).arms = [] ∧ ((unit ty 0 0 0 inBuf).meld 15).gateIn = [] ∧ ((unit ty 0 0 0 inBuf).meld 15).buf = [anInput] := by decide
    exact this ty q
  · exact fun e => absurd (e.1 (by decide)) (by decide)
  · exact ⟨by decide, .inr (by decide)⟩
theorem witness_MeldUnitsEvaluate_axles :
    (let s := unit 6 0 2 0x30001 { inBuf with run := [anInput] }
     s.fld (.meldCfg 15) 11 8 = 6 ∧ max 1 (s.fld (.meldP1 15) 15 0) ≤ (s.meld 15).run.length + 1 ∧ s.fld (.meldP2 15) 31 16 = 3 ∧ (s.meld 15).state = false ∧
       pairVal (s.reg (.meldALo 15)) (s.reg (.meldAHi 15)) ≤ anInput.val) ∧
    ((unit 6 0 2 1 { inBuf with state := true }).meld 15).state = true ∧ (-1 : Int) < 0 - ((unit 6 0 2 1 {}).reg (.meldP0 15)).toNat := by decide
theorem witness_MeldUnitsEvaluate_releases :
    (let s := (unit 7 0 0 0 { gateIn := [(0, true)], ctxs := [{ ts := 0, tm := {}, n := 1, decided := some 0 }] }).setReg (.meldGate 15) 17
     (s.meld 15).gateIn = [(0, true)] ∧ 17 ≤ s.fld (.meldGate 15) 5 0 ∧ true ≠ s.bit (.meldGate 15) 7 ∧ s.fld (.meldCfg 15) 11 8 = 7 ∧ s.reg (.meldP3 15) = 0) ∧
    (let s := { (unit 7 0 0 0 { ctxs := [{ ts := 0, tm := {} }] }).setReg (.meldP3 15) 5 with clk := { dev.clk with frc := 6 } }
     (s.meld 15).gateIn = [] ∧ s.reg (.meldP3 15) ≠ 0 ∧ (0 : Int) + (s.reg (.meldP3 15)).toNat < s.clk.frc) ∧
    ((unit 8 0 0 0 {}).bit (.meldP1 15) 4 = false ∧ ((unit 8 0 0 0 {}).setReg (.meldP0 15) 2).reg (.meldP0 15) ≠ 0) := by decide
/-- The hub with two events that two consumers of one channel, and one of another, receive. -/
def twoFire : State :=
  { (dev.setReg (.routeCh 0) 0x80000182).setReg (.routeCh 1) 0x80000180 with route := { dev.route with pend := [passed 0, passed 0, passed 1] } }
theorem witness_EventsAreRouted_merges :
    (∀ e ∈ twoFire.route.pend.take 3, e.cc < 64 ∧ e.seen = some (true, 1, {}) ∧ twoFire.fld (.routeStat e.cc) 7 0 < 1) ∧
    (twoFire.targets 0).length = 2 ∧ (twoFire.targets 1).length = 1 := by decide
theorem witness_EventsAreRouted_cycles :
    let old : State := { dev with route := { dev.route with pend := [{ cc := 44, cycle := .edge }, { cc := 45, cycle := .after 0 }] } }
    let s : State := { old with clk := { old.clk with mclk := 8, frc := 8 } }
    old.clk.mclk < s.clk.mclk ∧ s.route.pend[0]? = some { cc := 44, cycle := .edge } ∧ s.clk.frc ≠ 0 := by decide
theorem witness_EventsAreRouted_busy :
    Claims.Busy { dev with syncs := [(7, true, 1)] } 7 ∧ Claims.Busy (dev.setQueue 15 { closePend := true }) 31 ∧
    Claims.Busy { dev with route := { dev.route with statEdge := 1 } } 56 ∧ Claims.Busy dev 80 ∧ ¬ Claims.Busy dev 57 ∧ ¬ Claims.Busy dev 96 := by
  refine ⟨.inl ⟨by decide, _, .head _, rfl, rfl⟩, ?_, ?_, ?_, ?_, ?_⟩
  · exact .inr (.inr (.inl ⟨15, by decide, rfl, by decide⟩))
  · exact .inr (.inr (.inr (.inr (.inl ⟨rfl, by decide⟩))))
  · exact .inr (.inr (.inr (.inr (.inr (.inr (.inr ⟨0, by decide, rfl, .inr (by decide)⟩))))))
  all_goals rintro (⟨h, _⟩ | ⟨k, h, h' | h'⟩ | ⟨k, h, h', _⟩ | ⟨k, h, h', _⟩ | ⟨h, _⟩ | ⟨k, h, h', _⟩ | ⟨k, h, h', _⟩ | ⟨k, h, h', _⟩) <;> omega
theorem witness_QueueCommandsAreTaken_pending :
    ((packed.setQueue 0 { closePend := true, commitPend := true }).queue 0).commitPend = true ∧ (packed.queue 0).commitPend = false := by decide
theorem witness_PollsRun_cut :
    ((polling { busy := true, cut := true }).poll 7).cut = true ∧ (polling { busy := true, xfer := { read := 1 } }).poll 7 = { busy := true, xfer := { read := 1 } } := by
  decide
/-- A hub whose port A's host waits for a command that is still at link port 1. -/
def forwarded : State :=
  { waiting (frame 1 3 [0, 1, 0xa5, 7, 0, 3, 5]) with
    proto := { dev.proto with longs := [({ tag := 5 }, .forward 3 0 (10 ^ 6))], tags := [(5, .port .a)] } }
theorem witness_LinkPortsTrain_own :
    forwarded.fabricOn = true ∧ forwarded.portUp 1 = true ∧ (forwarded.lport 1).tx = [(false, none, frame 1 3 [0, 1, 0xa5, 7, 0, 3, 5])] ∧
    (frame 1 3 [0, 1, 0xa5, 7, 0, 3, 5]).payload.headD 1 = 0 ∧ ([0, 1, 0xa5, 7, 0, 3, 5] : List Byte).getD 6 0 = 5 ∧
    ((1 : Byte)).getLsbD 1 = decide (Port.a = .b) := by decide
theorem witness_FramesAreTaken_late :
    (let s := { linked with proto := { dev.proto with late := [(3, 5, .a)], longs := [({ tag := 5 }, .forward 3 0 0)] } }
     (3, 5, Port.a) ∈ s.proto.late ∧ s.proto.longs = [({ tag := 5 }, .forward 3 0 0)]) ∧
    (linked.setFld .linkNode 23 16 0xff).fld .linkNode 23 16 = 0xff := by decide
/-- A hub that follows a master of PRI 200 at address 3, itself with PRI 100. -/
def following : State :=
  { (((dev.setReg .timeSrvCfg 0x80002000).setReg .timeSrvPri 100).setFld .timeSrvStat 25 23 2) with
    servo := { masterPort := some 0, best := some (200, 3), es := [7], held := none } }
theorem witness_TimeIsServed_elects :
    following.servo.masterPort ≠ none ∧ following.fld .timeSrvStat 25 23 ≠ 5 ∧
    (∃ b, Claims.bid following = some b ∧ following.servo.best = some (200, 3) ∧ b.1 < 200) ∧
    Accepted {} .timeSrvPri 5 following ∧ Accepted {} .timeSrvCfg 0x80002000 following ∧ bits (0x80002000 : W32).toNat 27 25 ≤ 4 ∧
    2 ≤ bits (0x80002000 : W32).toNat 15 12 ∧ Accepted {} .timeSrvCfg 0x2000 following :=
  ⟨by decide, by decide, ⟨(100, 0xff), by decide⟩, accepted_of (by decide), accepted_of (by decide), by decide, by decide, accepted_of (by decide)⟩
/-- The loop in a state, with a value of chain 0 for the boundary of `aJob`, and a flag. -/
def iterating (st : Nat) (fl : BitVec 6) : State :=
  { looping st with loop := { (looping st).loop with inp := [(8, 0, 5, fl)] } }.setReg .beoLoopCfg 0xc2047fc0
theorem witness_OutputsAreHeld_iterations :
    (∀ st, st < 4 → (iterating st 0).loop.st = st) ∧ (iterating 2 8).fld .beoLoopCfg 27 22 = 8 ∧ (iterating 2 8).loop.inp = [(8, 0, 5, 8)] ∧
    (iterating 3 0).fld .beoLoopCfg 21 14 ≠ 0 ∧ (iterating 3 0).fld .beoLoopCfg 5 0 = 0 := by decide
theorem witness_OutputsAreHeld_follows :
    (let old := (looping 2).setCh 0 { st := .running }
     (old.ch 0).st = .running ∧ ((old.setCh 0 {}).ch 0).st = .idle ∧ ((old.setCh 0 { st := .faulted }).ch 0).st = .faulted) ∧
    ((looping 1).setCh 0 { st := .running }).loop.st = 1 := by decide
theorem witness_OutputsAreHeld_emulates :
    (let s := { dev.setReg (.beoCfg 1) 0x80000003 with past := [(131, [{ aPast with val := 5, period := 0 }])], beo1 := { on := true } }
     s.bit (.beoCfg 1) 31 = true ∧ (s.pastOf (128 + s.fld (.beoCfg 1) 5 0)).head? = some { aPast with val := 5, period := 0 } ∧ s.eng.prevTickAt ≤ 0) ∧
    dev.bit (.beoCfg 1) 31 = false ∧ dev.bit .beoLoopCfg 31 = false := by decide
end Sys2Proof.Tests
end

section
/-! SUPPORT. The interrupt controller: one bit of a bitmap, the level of a target, the source that a claim takes, the evaluation of the
lines, and the words of IRQ_LEVEL and IRQ_CLAIM, each said once in the terms of the statements (R245 to R249). -/

namespace Sys2Proof.Machine

/-! ### Bitmaps -/

theorem putBit_getLsbD {w : Nat} (v : BitVec w) (i k : Nat) (b : Bool) (hk : k < w) :
    (putBit v i b).getLsbD k = if k = i then b else v.getLsbD k := by
  have hp : (BitVec.ofNat w (2 ^ i)).getLsbD k = decide (k = i) := by
    rw [BitVec.getLsbD_ofNat, Nat.testBit_two_pow]
    simp [hk, eq_comm]
  unfold putBit
  cases b
  · rw [if_neg Bool.false_ne_true, BitVec.getLsbD_and, BitVec.getLsbD_not, hp]
    by_cases h : k = i <;> simp [hk, h]
  · rw [if_pos rfl, BitVec.getLsbD_or, hp]
    by_cases h : k = i <;> simp [h]

theorem putBit_true_getLsbD {w : Nat} (v : BitVec w) (i k : Nat) (hk : k < w) :
    (putBit v i true).getLsbD k = (v.getLsbD k || decide (k = i)) := by
  rw [putBit_getLsbD v i k true hk]
  split <;> simp_all

theorem putBit_false_getLsbD {w : Nat} (v : BitVec w) (i k : Nat) (hk : k < w) :
    (putBit v i false).getLsbD k = (v.getLsbD k && decide (k ≠ i)) := by
  rw [putBit_getLsbD v i k false hk]
  split <;> simp_all

/-! ### Levels -/

/-- A value is the greatest of `f` over what satisfies `p`; there is none where nothing does. -/
def Greatest (p : Nat → Prop) (f : Nat → Nat) : Option Nat → Prop
  | none => ∀ k, ¬ p k
  | some x => (∃ k, p k ∧ f k = x) ∧ ∀ k, p k → f k ≤ x

theorem Greatest.congr {p q : Nat → Prop} {f : Nat → Nat} {m : Option Nat} (h : Greatest p f m) (hpq : ∀ k, p k ↔ q k) :
    Greatest q f m := by
  rwa [← funext fun k => propext (hpq k)]

theorem Greatest.isSome_iff {p : Nat → Prop} {f : Nat → Nat} {m : Option Nat} (h : Greatest p f m) : m.isSome = true ↔ ∃ k, p k := by
  cases m with
  | none => exact ⟨fun he => absurd he (by simp), fun ⟨k, hk⟩ => absurd hk (h k)⟩
  | some x => exact ⟨fun _ => h.1.imp fun _ hk => hk.1, fun _ => rfl⟩

theorem Greatest.le_getD {p : Nat → Prop} {f : Nat → Nat} {m : Option Nat} (h : Greatest p f m) {k : Nat} (hk : p k) :
    f k ≤ m.getD 0 := by
  cases m with
  | none => exact absurd hk (h k)
  | some x => exact h.2 k hk

theorem Greatest.exists_eq_getD {p : Nat → Prop} {f : Nat → Nat} {m : Option Nat} (h : Greatest p f m) (he : ∃ k, p k) :
    ∃ k, p k ∧ f k = m.getD 0 := by
  cases m with
  | none => exact absurd he.choose_spec (h _)
  | some x => exact h.1

theorem foldl_max_greatest (p : Nat → Bool) (f : Nat → Nat) (l : List Nat) :
    Greatest (fun k => k ∈ l ∧ p k = true) f (l.foldl (fun m n => if p n then some (max (f n) (m.getD 0)) else m) none) := by
  induction l using List.reverseRecOn with
  | nil => simp [Greatest]
  | append_singleton l a ih =>
    rw [List.foldl_append, List.foldl_cons, List.foldl_nil]
    generalize l.foldl _ none = m at ih
    by_cases ha : p a = true
    · rw [if_pos ha]
      refine ⟨?_, ?_⟩
      · rcases Nat.le_total (m.getD 0) (f a) with h | h
        · exact ⟨a, ⟨by simp, ha⟩, (Nat.max_eq_left h).symm⟩
        · rw [Nat.max_eq_right h]
          cases m with
          | none => exact ⟨a, ⟨by simp, ha⟩, Nat.le_zero.mp h⟩
          | some x =>
            obtain ⟨k, ⟨hk, hpk⟩, he⟩ := ih.1
            exact ⟨k, ⟨List.mem_append_left _ hk, hpk⟩, he⟩
      · rintro k ⟨hk, hpk⟩
        rcases List.mem_append.mp hk with hk | hk
        · exact le_max_of_le_right (ih.le_getD ⟨hk, hpk⟩)
        · rw [List.mem_singleton.mp hk]
          exact le_max_left _ _
    · rw [if_neg ha]
      refine ih.congr fun k => ⟨fun h => ⟨List.mem_append_left _ h.1, h.2⟩, fun ⟨hk, hpk⟩ => ⟨?_, hpk⟩⟩
      rcases List.mem_append.mp hk with hk | hk
      · exact hk
      · rw [List.mem_singleton.mp hk] at hpk
        exact absurd hpk ha

/-- A source is in service at a target (R248). -/
def State.Serves (s : State) (t k : Nat) : Prop := k < 128 ∧ s.irq.insv.getLsbD k = true ∧ s.fld (.irqCfg k) 9 8 = t + 1

theorem State.level_greatest (s : State) (t : Nat) : Greatest (s.Serves t) s.prio (s.level t) :=
  (foldl_max_greatest (fun n => s.irq.insv.getLsbD n && s.tgt n == t + 1) s.prio (List.range 128)).congr fun k => by
    simp [State.Serves, State.tgt]

theorem State.prio_lt (s : State) (n : Nat) : s.prio n < 8 := Nat.mod_lt _ (by decide)

theorem State.level_getD_lt (s : State) (t : Nat) : (s.level t).getD 0 < 8 := by
  have h := s.level_greatest t
  cases hl : s.level t with
  | none => decide
  | some x =>
    rw [hl] at h
    obtain ⟨⟨k, _, rfl⟩, _⟩ := h
    exact s.prio_lt k

/-! ### Delivery -/

theorem State.deliverable_iff (s : State) (t : Nat) {n : Nat} (hn : n < 128) :
    s.deliverable t n = true ↔ Claims.Deliverable s t n := by
  have hl : (match s.level t with | none => true | some l => decide (l < s.prio n)) = true ↔ ∀ k, s.Serves t k → s.prio k < s.prio n := by
    have h := s.level_greatest t
    cases hm : s.level t with
    | none => rw [hm] at h; simpa using fun k hk => absurd hk (h k)
    | some x =>
      rw [hm] at h
      obtain ⟨⟨k, hk, rfl⟩, hle⟩ := h
      simpa using ⟨fun hlt j hj => (hle j hj).trans_lt hlt, fun hall => hall k hk⟩
  unfold State.deliverable Claims.Deliverable
  rw [Bool.and_eq_true]
  refine (and_congr_right' hl).trans ?_
  simp only [Bool.and_eq_true, Bool.not_eq_true', beq_iff_eq, hn, true_and, State.tgt, State.prio, State.Serves, and_imp]
  tauto

/-- One source more is looked at: it is taken where none was, or where it is above the one taken (R248). -/
def pick (f : Nat → Nat) (b : Option Nat) (n : Nat) : Option Nat :=
  match b with
  | none => some n
  | some k => if f k < f n then some n else b

theorem foldl_pick_spec (f : Nat → Nat) (l : List Nat) (hl : l.Pairwise (· < ·)) (m : Option Nat)
    (hm : l.foldl (pick f) none = m) :
    (m = none → l = []) ∧ ∀ n, m = some n → n ∈ l ∧ ∀ k ∈ l, f k < f n ∨ (f k = f n ∧ n ≤ k) := by
  induction l using List.reverseRecOn generalizing m with
  | nil => subst hm; simp
  | append_singleton l a ih =>
    obtain ⟨hl, -, hlt⟩ := List.pairwise_append.mp hl
    have hlt : ∀ k ∈ l, k < a := fun k hk => hlt k hk a (by simp)
    rw [List.foldl_append, List.foldl_cons, List.foldl_nil] at hm
    obtain ⟨hnone, hsome⟩ := ih hl _ rfl
    cases hb : l.foldl (pick f) none with
    | none =>
      rw [hb, pick] at hm
      subst hm
      rw [hnone hb]
      simp
    | some b =>
      obtain ⟨hbl, hbest⟩ := hsome b hb
      rw [hb, pick] at hm
      by_cases h : f b < f a
      · simp only [h, if_true] at hm
        subst hm
        refine ⟨by simp, fun n hn => ?_⟩
        cases hn
        refine ⟨by simp, fun k hk => ?_⟩
        rcases List.mem_append.mp hk with hk | hk
        · have := hbest k hk
          omega
        · rw [List.mem_singleton.mp hk]
          exact .inr ⟨rfl, le_rfl⟩
      · simp only [h, if_false] at hm
        subst hm
        refine ⟨by simp, fun n hn => ?_⟩
        cases hn
        refine ⟨by simp [hbl], fun k hk => ?_⟩
        rcases List.mem_append.mp hk with hk | hk
        · exact hbest k hk
        · rw [List.mem_singleton.mp hk]
          have := hlt b hbl
          omega

theorem State.mem_deliverable (s : State) (t n : Nat) :
    n ∈ (List.range 128).filter (s.deliverable t) ↔ Claims.Deliverable s t n := by
  rw [List.mem_filter, List.mem_range]
  exact ⟨fun ⟨hn, h⟩ => (s.deliverable_iff t hn).mp h, fun h => ⟨h.1, (s.deliverable_iff t h.1).mpr h⟩⟩

theorem State.peek_spec (s : State) (t : Nat) :
    (s.peek t = none → ∀ n, ¬ Claims.Deliverable s t n) ∧ ∀ n, s.peek t = some n → Claims.Taken s t n := by
  obtain ⟨hnone, hsome⟩ := foldl_pick_spec s.prio ((List.range 128).filter (s.deliverable t)) (List.pairwise_lt_range.filter _) _ rfl
  refine ⟨fun h n hd => ?_, fun n h => ?_⟩
  · have hm := (s.mem_deliverable t n).mpr hd
    rw [hnone h] at hm
    exact List.not_mem_nil hm
  · obtain ⟨hn, hbest⟩ := hsome n h
    exact ⟨(s.mem_deliverable t n).mp hn, fun k hk => hbest k ((s.mem_deliverable t k).mpr hk)⟩

theorem taken_unique {s : State} {t m n : Nat} (hm : Claims.Taken s t m) (hn : Claims.Taken s t n) : m = n := by
  have h1 := hm.2 n hn.1
  have h2 := hn.2 m hm.1
  omega

theorem State.peek_eq_none_iff (s : State) (t : Nat) : s.peek t = none ↔ ∀ n, ¬ Claims.Deliverable s t n := by
  refine ⟨(s.peek_spec t).1, fun h => ?_⟩
  cases hp : s.peek t with
  | none => rfl
  | some n => exact absurd ((s.peek_spec t).2 n hp).1 (h n)

theorem State.peek_eq_some_iff (s : State) (t n : Nat) : s.peek t = some n ↔ Claims.Taken s t n := by
  refine ⟨(s.peek_spec t).2 n, fun h => ?_⟩
  cases hp : s.peek t with
  | none => exact absurd h.1 ((s.peek_spec t).1 hp n)
  | some m => rw [taken_unique ((s.peek_spec t).2 m hp) h]

theorem State.line_iff (s : State) (t : Nat) : s.line t = true ↔ ∃ k, Claims.Deliverable s t k := by
  unfold State.line
  rw [Option.isSome_iff_ne_none, ne_eq, s.peek_eq_none_iff]
  exact not_forall_not

/-! ### The words of IRQ_LEVEL and IRQ_CLAIM -/

theorem State.peek_getD_lt (s : State) (t : Nat) : (s.peek t).getD 0x7f < 128 := by
  cases hp : s.peek t with
  | none => decide
  | some n => exact ((s.peek_eq_some_iff t n).mp hp).1.1

/-- The fields of IRQ_LEVEL: LINE, ACTIVE and LEVEL. -/
theorem State.levelWord_fields (s : State) (t : Nat) :
    bits (s.levelWord t).toNat 31 31 = (s.line t).toNat ∧ bits (s.levelWord t).toNat 4 4 = (s.level t).isSome.toNat ∧
    bits (s.levelWord t).toNat 3 0 = (s.level t).getD 0 := by
  have h1 := s.peek_getD_lt t
  have h2 := s.level_getD_lt t
  have h3 := (s.line t).toNat_le
  have h4 := (s.irq.badEoi.getLsbD t).toNat_le
  have h5 := (s.level t).isSome.toNat_le
  unfold State.levelWord bits
  rw [BitVec.toNat_ofNat]
  omega

theorem State.claimWord_none {s : State} {t : Nat} (h : ∀ n, ¬ Claims.Deliverable s t n) : (s.claimWord t).toNat = 0x7f := by
  simp [State.claimWord, (s.peek_eq_none_iff t).mpr h]

theorem State.claimWord_taken {s : State} {t n : Nat} (h : Claims.Taken s t n) :
    (s.claimWord t).toNat = s.fld (.irqCfg n) 2 0 * 256 + n := by
  have h1 := s.prio_lt n
  have h2 := h.1.1
  unfold State.claimWord
  rw [(s.peek_eq_some_iff t n).mpr h]
  change (BitVec.ofNat 32 (s.prio n * 256 + n)).toNat = s.prio n * 256 + n
  rw [BitVec.toNat_ofNat]
  omega

/-! ### The evaluation of the lines -/

theorem State.ibi_requests (s : State) (p : Port) :
    ∃ ca cb ib ia ja, s.ibi p = { s with irq := { s.irq with claimedA := ca, claimedB := cb, ibis := ib, ibiA := ia, ibiB := ja } } := by
  unfold State.ibi
  split
  · exact ⟨_, _, _, _, _, rfl⟩
  · exact ⟨_, _, _, _, _, rfl⟩

/-- An evaluation of the lines moves the lines and what hangs on their rise. -/
theorem State.irqSettle_requests (s : State) : ∃ ca cb ib ia ja, s.irqSettle =
    { s with irq := { s.irq with lineA := s.line 0, lineB := s.line 1, claimedA := ca, claimedB := cb, ibis := ib, ibiA := ia, ibiB := ja } } := by
  have key : ∀ (w : State) (c : Bool) (p : Port), ∃ ca cb ib ia ja, (if c then w.ibi p else w) =
      { w with irq := { w.irq with claimedA := ca, claimedB := cb, ibis := ib, ibiA := ia, ibiB := ja } } := by
    intro w c p
    cases c
    · exact ⟨_, _, _, _, _, rfl⟩
    · exact w.ibi_requests p
  unfold State.irqSettle
  dsimp only
  obtain ⟨ca, cb, ib, ia, ja, ha⟩ := key s (s.line 0 && !s.irq.lineA) .a
  rw [ha]
  obtain ⟨ca', cb', ib', ia', ja', hb⟩ := key
    { s with irq := { s.irq with claimedA := ca, claimedB := cb, ibis := ib, ibiA := ia, ibiB := ja } } (s.line 1 && !s.irq.lineB) .b
  exact ⟨ca', cb', ib', ia', ja', congrArg (State.modIrq · _) hb⟩

theorem State.irqSettle_linesEvaluated (s : State) : Claims.LinesEvaluated s.irqSettle := by
  obtain ⟨ca, cb, ib, ia, ja, h⟩ := s.irqSettle_requests
  rw [h]
  exact ⟨rfl, rfl⟩

theorem State.irqSettle_of_linesEvaluated {s : State} (h : Claims.LinesEvaluated s) : s.irqSettle = s := by
  obtain ⟨ha, hb⟩ := h
  unfold State.irqSettle
  simp only [← ha, ← hb, Bool.and_not_self, Bool.false_eq_true, if_false]
  rfl

theorem State.irqSettle_irqSettle (s : State) : s.irqSettle.irqSettle = s.irqSettle :=
  State.irqSettle_of_linesEvaluated s.irqSettle_linesEvaluated

theorem State.replay_linesEvaluated (k : Nat) (s : State) (h : Claims.LinesEvaluated s) : Claims.LinesEvaluated (s.replay k) := by
  induction k generalizing s with
  | zero => exact h
  | succ k ih =>
    unfold State.replay
    split
    · exact h
    · split
      · exact h
      · exact ih _ (State.irqSettle_linesEvaluated _)

/-- What follows every command leaves the lines evaluated. -/
theorem State.finish_linesEvaluated (old s : State) : Claims.LinesEvaluated (State.finish old s) :=
  State.replay_linesEvaluated _ _ (State.irqSettle_linesEvaluated _)

/-! ### Answers of the controller's commands -/

/-- The lines are evaluated before the reply in any case, so a body may have evaluated them before. -/
theorem Answers.of_irqSettle {i : Instr} {h : Hdr} {data : List Byte} {s w : State} (hA : Answers i h data s w.irqSettle) :
    Answers i h data s w := by
  obtain ⟨u, hl, hr, y, x, a, b, r, d, ts, rp, hy, hx, hu⟩ := hA
  rw [State.irqSettle_irqSettle, or_self] at hy
  exact ⟨u, hl, hr, y, x, a, b, r, d, ts, rp, .inr hy, hx, hu⟩

/-- A command whose body changes the controller's record, evaluates the lines and answers OK. -/
theorem answers_irqSettle_of {i : Instr} {h : Hdr} {c : HostCmd} {s : State} {r : Irq} {data : List Byte} (hA : Admitted h c s)
    (hex : exec i s = hostStep h c s)
    (hb : ∀ a b x d ts, s.ready h c = s.touch a b x d ts →
      hostBody h c (s.ready h c) = .ok ((State.irqSettle { s with irq := r }).touch a b x d ts) data) :
    Answers i h data s (State.irqSettle { s with irq := r }) := by
  obtain ⟨q, hq⟩ := State.irqSettle_eq { s with irq := r }
  exact answers_of hA hex hb (by rw [hq]; rfl) (by rw [hq])

end Sys2Proof.Machine
end

section
/-! SUPPORT. Claims and ends of interrupt: what each does to the controller's record, and what the two commands answer (R248, R249). -/

namespace Sys2Proof.Machine

/-! ### Ends of interrupt -/

theorem State.eoi_ignored (s : State) (t : Nat) : s.eoi t 0x7f = s := rfl

theorem State.eoi_serving {s : State} {t n : Nat} (hn : n ≠ 0x7f) (h1 : s.irq.insv.getLsbD n = true) (h2 : s.fld (.irqCfg n) 9 8 = t + 1) :
    s.eoi t n = { s with irq := { s.irq with insv := putBit s.irq.insv n false } } := by
  simp [State.eoi, hn, h1, State.tgt, h2, State.modIrq]

theorem State.eoi_notServing {s : State} {t n : Nat} (hn : n ≠ 0x7f) (h : ¬ (s.irq.insv.getLsbD n = true ∧ s.fld (.irqCfg n) 9 8 = t + 1)) :
    s.eoi t n = { s with irq := { s.irq with badEoi := putBit s.irq.badEoi t true } } := by
  simp only [State.eoi, hn, if_false, State.tgt, Bool.and_eq_true, beq_iff_eq, h]
  rfl

theorem State.eoi_touch (s : State) (a b : Bus) (r d : Nat) (ts : List (Nat × Src)) (t n : Nat) :
    (s.touch a b r d ts).eoi t n = (s.eoi t n).touch a b r d ts := by
  unfold State.eoi
  rw [show (s.touch a b r d ts).irq = s.irq from rfl, show (s.touch a b r d ts).tgt n = s.tgt n from rfl]
  split
  · rfl
  · split <;> rfl

/-- An accepted write of IRQ_EOI answers OK, and its effect is the end of interrupt. -/
theorem irqEoi_answers {h : Hdr} {t : Nat} {v : W32} {s : State} {r : Irq} (hA : Accepted h (.irqEoi t) v s)
    (he : s.eoi t (bits v.toNat 6 0) = { s with irq := r }) : Answers (.irqEoi h t v) h [] s { s with irq := r } := by
  have hex : exec (.irqEoi h t v) s = hostStep h (.regWrite (Reg.irqEoi t).addr v) s := (regWrite_accepted hA).symm
  refine (answers_irqSettle_of hA.1 hex fun a b x d ts e => ?_).of_irqSettle
  have hput : (s.ready h (.regWrite (Reg.irqEoi t).addr v)).putReg h (.irqEoi t) v =
      .ok ((State.irqSettle { s with irq := r }).touch a b x d ts) := by
    rw [e, ← State.irqSettle_touch, ← he, ← State.eoi_touch]
    rfl
  simp only [hostBody, regWriteBody, State.checkAt, State.putAt, placeOf_reg hA.ok, hA.2, hput, errsOf, State.memErr_none]

/-- A source that was in service and is pending and not masked is deliverable once its service has ended, where it is above all that
remain in service. -/
theorem deliverable_of_ended {s : State} {t n : Nat} (hn : n < 128) (ht : s.fld (.irqCfg n) 9 8 = t + 1)
    (hp : s.irq.pend.getLsbD n = true) (hm : s.irq.mask.getLsbD n = false)
    (hk : ∀ k, State.Serves { s with irq := { s.irq with insv := putBit s.irq.insv n false } } t k → s.prio k < s.prio n) :
    Claims.Deliverable { s with irq := { s.irq with insv := putBit s.irq.insv n false } } t n :=
  ⟨hn, ht, hp, hm, by simp [putBit_false_getLsbD _ n n hn], fun k h1 h2 h3 => hk k ⟨h1, h2, h3⟩⟩

theorem interruptServiceEnds : Claims.InterruptServiceEnds := by
  intro h t v s ht hA n serves
  have hn : n < 128 := Nat.mod_lt _ (by decide)
  refine ⟨fun h7 => ?_, fun h7 hs => ?_, ?_, fun h7 hs => ?_⟩
  · exact irqEoi_answers (r := s.irq) hA (by rw [show bits v.toNat 6 0 = 0x7f from h7]; rfl)
  · obtain ⟨hi, htgt⟩ := hs
    refine ⟨putBit s.irq.insv n false, ?_⟩
    intro w here level
    have hl : Greatest here s.prio (w.level t) := w.level_greatest t
    obtain ⟨hline, hactive, hlevel⟩ := w.levelWord_fields t
    refine ⟨irqEoi_answers hA (State.eoi_serving h7 hi htgt), fun k hk => putBit_false_getLsbD _ n k hk, ?_, ?_, ?_, ?_, ?_⟩
    · rw [hactive, ← hl.isSome_iff, Bool.toNat_eq_one]
    · rw [hlevel]
      exact fun k hk => hl.le_getD hk
    · rw [hlevel]
      exact hl.exists_eq_getD
    · rw [hline, ← w.line_iff, Bool.toNat_eq_one]
    · exact fun hp hm hk => deliverable_of_ended hn htgt hp hm hk
  · obtain ⟨ha, hb⟩ := State.finish_linesEvaluated s (s.submit h (.regWrite (rowAddr (.irqEoi t)) v) (hostBody h (.regWrite (rowAddr (.irqEoi t)) v)))
    refine ⟨_, rfl, ?_⟩
    rw [← State.line_iff]
    split
    · next h0 => rw [ha, h0]
    · next h0 => rw [hb, show t = 1 by omega]
  · exact ⟨_, irqEoi_answers hA (State.eoi_notServing h7 hs), fun k hk => putBit_true_getLsbD _ t k hk⟩

/-! ### Claims -/

theorem irqClaim_ok {t : Nat} (ht : t < 3) : (Reg.irqClaim t).ok := by
  unfold Reg.ok
  interval_cases t <;> decide

theorem State.claim_none {s : State} {t : Nat} (h : ∀ n, ¬ Claims.Deliverable s t n) : s.claim t = s := by
  simp [State.claim, (s.peek_eq_none_iff t).mpr h]

theorem State.claim_taken {s : State} {t n : Nat} (h : Claims.Taken s t n) :
    s.claim t = { s with irq := { s.irq with insv := putBit s.irq.insv n true, claimedA := s.irq.claimedA || decide (t = 0)
                                             claimedB := s.irq.claimedB || decide (t = 1) } } := by
  unfold State.claim
  rw [(s.peek_eq_some_iff t n).mpr h]
  rfl

theorem State.claim_touch (s : State) (a b : Bus) (r d : Nat) (ts : List (Nat × Src)) (t : Nat) :
    (s.touch a b r d ts).claim t = (s.claim t).touch a b r d ts := by
  unfold State.claim
  rw [show (s.touch a b r d ts).peek t = s.peek t from rfl]
  cases s.peek t <;> rfl

theorem rowAddr_of_ok {r : Reg} (h : r.ok) : rowAddr r = r.addr := if_pos h

theorem exec_irqClaim (h : Hdr) {t : Nat} (ht : t < 3) (s : State) :
    exec (.irqClaim h t) s = hostStep h (.regRead (Reg.irqClaim t).addr) s := by
  change hostStep h (.regRead (rowAddr (.irqClaim t))) s = _
  rw [rowAddr_of_ok (irqClaim_ok ht)]

/-- A single read of IRQ_CLAIM gives its word, and at a host's target it claims and has the lines evaluated (R245, R248). -/
theorem irqClaim_body (h : Hdr) {t : Nat} (ht : t < 3) (s : State) :
    hostBody h (.regRead (Reg.irqClaim t).addr) s =
      .ok (if t = 2 then s else (s.claim t).irqSettle) (leBytes 4 (s.claimWord t).toNat) := by
  have hread : s.readReg h.src h.refx false (.irqClaim t) = (if t = 2 then s else (s.claim t).irqSettle, s.claimWord t) := by
    simp [State.readReg, loOf, State.shown, State.readEffect, hiOf, State.readWord]
  simp [hostBody, regReadBody, State.readAt, placeOf_reg (irqClaim_ok ht), hread, coefRead, State.coefFixed]

/-- A read of the sequencer's IRQ_CLAIM changes nothing (R245). -/
theorem irqClaim_sequencer_answers {h : Hdr} {s : State} (hA : Admitted h (.regRead (Reg.irqClaim 2).addr) s) :
    Answers (.irqClaim h 2) h (leBytes 4 (s.claimWord 2).toNat) s s :=
  answers_of hA (exec_irqClaim h (by decide) s) (fun a b x d ts e => by rw [irqClaim_body h (by decide), e]; rfl) rfl rfl

/-- A read of a host target's IRQ_CLAIM claims and has the lines evaluated (R248). -/
theorem irqClaim_host_answers {h : Hdr} {t : Nat} {s : State} {r : Irq} (ht : t < 2) (hA : Admitted h (.regRead (Reg.irqClaim t).addr) s)
    (hc : s.claim t = { s with irq := r }) :
    Answers (.irqClaim h t) h (leBytes 4 (s.claimWord t).toNat) s (State.irqSettle { s with irq := r }) := by
  refine answers_irqSettle_of hA (exec_irqClaim h (by omega) s) fun a b x d ts e => ?_
  rw [irqClaim_body h (by omega), if_neg (by omega), e, State.claim_touch, hc, State.irqSettle_touch]
  rfl

/-- Settles O49: what a claim takes and an end of interrupt leaves in service is read off the controller's record, and the evaluation
of the lines that both bring is the one before the reply. -/
theorem interruptsAreClaimed : Obligations.InterruptsAreClaimed := by
  refine ⟨interruptServiceEnds, fun h t s ht hA => ⟨fun hnone => ?_, fun n htaken => ⟨?_, fun ht2 => ?_⟩⟩⟩
  · rw [← State.claimWord_none hnone]
    by_cases h2 : t = 2
    · subst h2
      exact irqClaim_sequencer_answers hA
    · exact (irqClaim_host_answers (by omega) hA (State.claim_none hnone)).of_irqSettle
  · rintro rfl
    rw [← State.claimWord_taken htaken]
    exact irqClaim_sequencer_answers hA
  · rw [← State.claimWord_taken htaken]
    exact ⟨_, fun k hk => putBit_true_getLsbD _ n k hk, irqClaim_host_answers ht2 hA (State.claim_taken htaken)⟩

end Sys2Proof.Machine
end

section
/-! SUPPORT. What a command of a local port answers, whatever its status and the deadline that it leaves. -/

namespace Sys2Proof.Machine

/-! ### Answers of any status -/

/-- `s` with other replies waiting. -/
def State.withReplies (s : State) (rp : List Reply) : State := { s with proto := { s.proto with replies := rp } }

theorem State.irqFire_withReplies (s : State) (rp : List Reply) (n : Nat) : (s.withReplies rp).irqFire n = (s.irqFire n).withReplies rp := by
  refine (s.irqFire_touched s.hostIf { s.proto with replies := rp } n).trans ?_
  rw [State.withReplies, s.irqFire_proto, ← s.irqFire_hostIf n]

/-- Which replies wait is no part of what an answer leaves alone. -/
theorem AnsweredFrom.withReplies {w u : State} (hu : AnsweredFrom w u) (rp : List Reply) : AnsweredFrom w (u.withReplies rp) := by
  obtain ⟨y, x, a, b, r, d, ts, _, hy, hx, rfl⟩ := hu
  exact ⟨y, x, a, b, r, d, ts, rp, hy, hx, rfl⟩

/-- A reply of a local port joins the queue, and its source fires where none of that port waited. -/
theorem State.reply_port (s : State) {r : Reply} {p : Port} (hp : r.src = .port p) :
    s.reply r = (if s.proto.replies.any fun x => decide (x.src = .port p) then s else s.irqFire (64 + portIx p)).withReplies
      (s.proto.replies ++ [{ r with ready := s.clk.frc }]) := by
  unfold State.reply
  simp only [hp]
  cases s.proto.replies.any fun x => decide (x.src = .port p)
  · exact s.irqFire_withReplies _ _
  · rfl

/-- An answer that counts no conflict is the OK answer with another reply. -/
theorem State.answer_eq_ok (s : State) {h : Hdr} {p : Port} (hp : h.src = .port p) {st : Status} (hst : st ≠ .stateConflict)
    (data : List Byte) (fr : Bool) (q : Option (Nat × Nat × W64)) :
    s.answer h st data fr q = (s.answer h .ok data fr q).withReplies (s.proto.replies ++
      [{ src := h.src, tag := h.tag, node := s.nodeAddr.getD 0x40, status := st, data := data, frees := fr, q := q, ready := s.clk.frc }]) := by
  unfold State.answer
  simp only [hst, reduceCtorEq, if_false]
  rw [State.reply_port _ hp, State.reply_port _ hp]
  rfl

/-- The answer to a command that left `w`, but for what `ready` touches. -/
theorem answered_status {h : Hdr} {p : Port} (hp : h.src = .port p) {st : Status} (hst : st ≠ .stateConflict) {w u : State}
    {a b : Bus} {rx d : Nat} {ts : List (Nat × Src)} {data : List Byte}
    (hu : u = (w.touch a b rx d ts).irqSettle.answer h st data true) :
    AnsweredFrom w u ∧ Replies h st data w u ∧ u.proto.deadline = d := by
  obtain ⟨hfrom, -, -⟩ := answered hp w a b rx d ts data true none
  obtain ⟨iq, hsettle⟩ := w.irqSettle_eq
  obtain ⟨r, i, hi, -⟩ := State.answer_eq (w.touch a b rx d ts).irqSettle hp hst data true none
  rw [← hu, State.irqSettle_touch, hsettle] at hi
  refine ⟨?_, ?_, ?_⟩
  · rw [hu, State.answer_eq_ok _ hp hst]
    exact hfrom.withReplies _
  · rw [hi]
    rfl
  · rw [hi]
    rfl

theorem State.ready_touch (s : State) (h : Hdr) (c : HostCmd) : ∃ a b r d ts, s.ready h c = s.touch a b r d ts := s.ready_parts h c

/-- A command whose body answers OK and sets the deadline of the lease. -/
theorem answers_deadline_of {i : Instr} {h : Hdr} {c : HostCmd} {s w : State} {data : List Byte} {t : Nat} (hA : Admitted h c s)
    (hex : exec i s = hostStep h c s)
    (hb : ∀ a b r d ts, hostBody h c (s.touch a b r d ts) = .ok (w.touch a b r t ts) data)
    (hn : w.nodeAddr = s.nodeAddr) (hr : w.proto.replies = s.proto.replies) :
    ∃ u, Leads i s u ∧ Replies h .ok data s u ∧ u.proto.deadline = t ∧ AnsweredFrom w u := by
  obtain ⟨⟨p, hp, -⟩, -⟩ := id hA
  obtain ⟨a, b, r, d, ts, e⟩ := s.ready_touch h c
  have hs := submit_admitted hA (hostBody h c)
  rw [e, hb a b r d ts] at hs
  obtain ⟨hfrom, hrep, hdl⟩ := answered_status hp (by decide) hs
  refine ⟨_, hex, ?_, hdl, hfrom⟩
  unfold Replies at hrep ⊢
  rw [← hn, ← hr, hrep]

/-- A command whose body refuses it. -/
theorem refuses_of {i : Instr} {h : Hdr} {c : HostCmd} {s : State} {st : Status} {data : List Byte} (hA : Admitted h c s)
    (hst : st ≠ .stateConflict) (hex : exec i s = hostStep h c s) (hb : hostBody h c (s.ready h c) = .no (st, data)) :
    Refuses i h st data s := by
  obtain ⟨⟨p, hp, -⟩, -⟩ := id hA
  obtain ⟨a, b, r, d, ts, e⟩ := s.ready_touch h c
  have hs := submit_admitted hA (hostBody h c)
  rw [hb, e] at hs
  obtain ⟨hfrom, hrep, -⟩ := answered_status hp hst hs
  refine ⟨_, hex, hrep, ?_⟩
  rw [if_neg hst]
  exact hfrom

end Sys2Proof.Machine
end

section
/-! SUPPORT. The semaphore: what ends its ownership, and what SEM_TAKE and SEM_GIVE answer (R302, R305 to R308). -/

namespace Sys2Proof.Machine

/-! ### The owner when a packet came (R306) -/

theorem State.ownsAt_iff (s : State) (h : Hdr) : s.ownsAt h = true ↔
    (s.proto.owner = some h.src ∧ h.rx < s.proto.deadline) ∨ ∃ d, s.proto.lapsed = some (h.src, d) ∧ h.rx < d := by
  unfold State.ownsAt
  rw [Bool.or_eq_true, Bool.and_eq_true, decide_eq_true_iff, decide_eq_true_iff]
  refine or_congr Iff.rfl ?_
  cases hl : s.proto.lapsed with
  | none => simp
  | some x =>
    obtain ⟨o, d⟩ := x
    simp [and_assoc]

/-- What passes steps 5 to 7 and needs the semaphore comes from its owner. -/
theorem State.ownsAt_of_gate {s : State} {h : Hdr} {c : HostCmd} (hg : s.gate h c = none) (hn : s.needsSem h.src c = true) :
    s.ownsAt h = true := by
  by_contra ho
  unfold State.gate at hg
  split at hg
  · cases hg
  · split at hg
    · cases hg
    · simp [hn, ho] at hg

/-- A legal command that nothing blocks and that needs the semaphore is refused where its source did not hold it. -/
theorem State.gate_notOwner {s : State} {h : Hdr} {c : HostCmd} (hl : s.legal h.src c = true)
    (hb : s.proto.longs.find? (fun x => s.blockedBy h.src c x.2) = none) (hn : s.needsSem h.src c = true) (ho : s.ownsAt h = false) :
    s.gate h c = some (.notOwner, []) := by
  simp [State.gate, hl, hb, hn, ho]

/-! ### The end of a lease (R307) -/

/-- The interface's record once the lease of `o` has ended. -/
def Proto.ended (P : Proto) (o : Src) : Proto :=
  { P with owner := none, staging := P.staging.filter fun x => decide (x.1 ≠ o), lapsed := some (o, P.deadline) }

/-- The hub once the lease of `o` has ended: a local owner has its EXP bit and its source. -/
def State.leaseEnded (s : State) (o : Src) : State :=
  match o with
  | .port .a => State.irqFire { s with proto := { s.proto.ended o with expA := true } } 66
  | .port .b => State.irqFire { s with proto := { s.proto.ended o with expB := true } } 67
  | .link _ _ => { s with proto := s.proto.ended o }

theorem State.expireSem_eq {s : State} {o : Src} (ho : s.proto.owner = some o) (hd : s.proto.deadline ≤ s.clk.frc) :
    s.expireSem = s.leaseEnded o := by
  have hstage : (fun x : Src × Nat × W32 => decide (some x.1 ≠ some o)) = fun x => decide (x.1 ≠ o) := by
    funext x
    simp
  simp only [State.expireSem, State.freeSem, ho, Option.map_some, Nat.min_eq_left hd, hstage]
  match o with
  | .port .a => rfl
  | .port .b => rfl
  | .link _ _ => rfl

/-- The check of a lease whose deadline has come. -/
theorem leaseExpiry_due {s : State} {o : Src} (ho : s.proto.owner = some o) (hd : s.proto.deadline ≤ s.clk.frc)
    (hp : s.pwr.st = .run ∨ s.pwr.st = .doze) (hb : s.proto.dev ≠ .boot) : leaseExpiry s = s.expireSem :=
  if_pos ⟨by rw [ho]; rfl, hd, hp, hb⟩

theorem leaseExpiry_notDue {s : State} (h : s.proto.owner = none ∨ s.clk.frc < s.proto.deadline ∨ s.proto.dev = .boot ∨
    (s.pwr.st ≠ .run ∧ s.pwr.st ≠ .doze)) : leaseExpiry s = s := by
  refine if_neg ?_
  rintro ⟨ho, hd, hp, hb⟩
  rcases h with h | h | h | ⟨hrun, hdoze⟩
  · rw [h] at ho
    cases ho
  · omega
  · exact hb h
  · exact hp.elim hrun hdoze

theorem leads_leaseExpiry {s u : State} (h : leaseExpiry s = u) : Leads .leaseExpiry s u := by
  rw [← h]
  rfl

/-- R307: only a due check acts, and what it leaves is said by whose lease it was. -/
theorem leaseExpires : Claims.LeaseExpires := by
  refine fun s o => ⟨fun ho hd hp hb => ?_, fun h => leads_leaseExpiry (leaseExpiry_notDue h)⟩
  have hend := (leaseExpiry_due ho hd hp hb).trans (State.expireSem_eq ho hd)
  refine ⟨?_, ?_, ?_⟩
  · rintro rfl
    exact leads_leaseExpiry hend
  · rintro rfl
    exact leads_leaseExpiry hend
  · rintro n p rfl
    exact leads_leaseExpiry hend

/-! ### SEM_TAKE (R305) -/

/-- The lease that SEM_TAKE grants for its parameter: 0 asks for that of SEM_CFG. -/
def State.leaseOf (s : State) (lease : Nat) : Nat := if lease = 0 then s.fld .semCfg 15 0 else lease
/-- The semaphore is free, so that a grant begins a new ownership. -/
def State.semFree (s : State) : Bool := decide (s.proto.owner = none)
/-- The generation that a grant leaves: a new ownership counts one more. -/
def State.grantGen (s : State) : Nat := if s.semFree then (s.proto.gen + 1) % 65536 else s.proto.gen
/-- The semaphore granted to the source of a packet, or its lease renewed, but for the deadline. -/
def State.granted (s : State) (h : Hdr) (lease : Nat) : State :=
  { s with proto := { s.proto with owner := some h.src, lease := s.leaseOf lease, gen := s.grantGen
                                   lapsed := if s.semFree then none else s.proto.lapsed
                                   expA := s.proto.expA && !(s.semFree && decide (h.src = .port .a))
                                   expB := s.proto.expB && !(s.semFree && decide (h.src = .port .b)) } }

@[simp] theorem State.ready_semStatusWord (s : State) (h : Hdr) (c : HostCmd) : (s.ready h c).semStatusWord = s.semStatusWord := by
  simp [State.semStatusWord]

theorem semTakeBody_held {h : Hdr} {lease : Nat} {s : State} (hs : s.proto.owner.isSome = true) (ho : s.proto.owner ≠ some h.src) :
    semTakeBody h lease s = .no (.semHeld, leBytes 4 s.semStatusWord.toNat ++ leBytes 2 s.leaseLeft) :=
  if_pos ⟨hs, ho⟩

/-- A source that finds the semaphore free or its own is not stopped by another's hold. -/
theorem not_held {s : State} {src : Src} (ho : s.proto.owner = none ∨ s.proto.owner = some src) :
    ¬ (s.proto.owner.isSome = true ∧ s.proto.owner ≠ some src) := by
  rintro ⟨hs, hne⟩
  rcases ho with ho | ho
  · simp [ho] at hs
  · exact hne ho

theorem semTakeBody_badParam {h : Hdr} {lease : Nat} {s : State} (ho : s.proto.owner = none ∨ s.proto.owner = some h.src)
    (hl : (1 ≤ lease ∧ lease ≤ 9) ∨ 60000 < lease) : semTakeBody h lease s = .no (.badParam, []) := by
  unfold semTakeBody
  rw [if_neg (not_held ho), if_pos (by omega)]

theorem semTakeBody_granted {h : Hdr} {lease : Nat} {s : State} (ho : s.proto.owner = none ∨ s.proto.owner = some h.src)
    (hl : lease = 0 ∨ (10 ≤ lease ∧ lease ≤ 60000)) (a b : Bus) (r d : Nat) (ts : List (Nat × Src)) :
    semTakeBody h lease (s.touch a b r d ts) =
      .ok ((s.granted h lease).touch a b r (h.rx + s.leaseOf lease * 24576) ts) (leBytes 2 s.grantGen ++ leBytes 2 (s.leaseOf lease)) := by
  have hfree : s.proto.owner.isNone = s.semFree := by
    unfold State.semFree
    cases s.proto.owner <;> rfl
  have hexp : ∀ (e : Bool) (p : Port), (if s.semFree = true ∧ h.src = .port p then false else e) =
      (e && !(s.semFree && decide (h.src = .port p))) := by
    intro e p
    cases s.semFree <;> by_cases hp : h.src = .port p <;> simp [hp]
  unfold semTakeBody
  rw [if_neg (not_held (s := s.touch a b r d ts) ho), if_neg (not_not_intro hl)]
  simp only [State.touch, State.granted, State.grantGen, hfree, hexp]
  rfl

/-! ### SEM_GIVE (R305) -/

/-- The semaphore given back. -/
def State.given (s : State) : State :=
  { s with proto := { s.proto with owner := none, staging := s.proto.staging.filter fun x => decide (some x.1 ≠ s.proto.owner)
                                   lapsed := none } }

theorem semGiveBody_touch (s : State) (a b : Bus) (r d : Nat) (ts : List (Nat × Src)) :
    semGiveBody (s.touch a b r d ts) = .ok (s.given.touch a b r d ts) (leBytes 2 s.proto.gen) := rfl

/-- A SEM_GIVE that passes steps 1 to 7 comes from the owner, or from the one whose lease has ended since it came. -/
theorem semGive_admitted_owner {h : Hdr} {s : State} (hA : Admitted h .semGive s) :
    s.proto.owner = some h.src ∨ ∃ d, s.proto.lapsed = some (h.src, d) := by
  obtain ⟨-, -, -, -, -, -, -, -, -, -, hgate⟩ := hA
  have howns := (State.ownsAt_iff _ h).mp (State.ownsAt_of_gate hgate rfl)
  rw [State.ready_proto_owner, State.ready_proto_lapsed] at howns
  rcases howns with ⟨ho, -⟩ | ⟨d, hd, -⟩
  · exact .inl ho
  · exact .inr ⟨d, hd⟩

theorem semGive_notOwner {h : Hdr} {s : State} (hl : s.legal h.src .semGive = true)
    (hb : s.proto.longs.find? (fun x => s.blockedBy h.src .semGive x.2) = none) (ho : s.proto.owner ≠ some h.src)
    (hd : ∀ d, s.proto.lapsed ≠ some (h.src, d)) : s.gate h .semGive = some (.notOwner, []) := by
  refine State.gate_notOwner hl hb rfl (Bool.eq_false_iff.mpr fun howns => ?_)
  rcases (s.ownsAt_iff h).mp howns with ⟨howner, -⟩ | ⟨d, hlapsed, -⟩
  · exact ho howner
  · exact hd d hlapsed

/-- Settles O9: the body of SEM_TAKE in its three cases, that of SEM_GIVE behind step 7 of R300, and the check of R307. -/
theorem semaphoreIsTakenAndGiven : Obligations.SemaphoreIsTakenAndGiven := by
  refine ⟨leaseExpires, fun h lease s => ⟨fun hA ho hl => ?_, fun hA hs ho => ?_, fun hA ho hl => ?_, fun hA => ⟨?_, ?_⟩, ?_⟩⟩
  · exact answers_deadline_of hA rfl (semTakeBody_granted ho hl) (w := s.granted h lease) rfl rfl
  · rw [← s.ready_semStatusWord h (.semTake lease)]
    exact refuses_of hA (by decide) rfl (semTakeBody_held (by simpa using hs) (by simpa using ho))
  · exact refuses_of hA (by decide) rfl (semTakeBody_badParam (by simpa using ho) hl)
  · exact semGive_admitted_owner hA
  · refine answers_of hA rfl (fun a b r d ts e => ?_) (w := s.given) rfl rfl
    rw [e]
    exact semGiveBody_touch s a b r d ts
  · exact semGive_notOwner

end Sys2Proof.Machine
end
